-- ==== Sys2Proof/Word.lean ====
section
/-!
DEFINITION. Word.lean: the widths the manual gives its fields, and the small closed types (names of lanes,
networks, links, feeds) that commands and state share.
-/
namespace Sys2Proof

/-- One byte of a frame, an image or a memory. -/
abbrev Byte := BitVec 8
/-- A 16-bit field. -/
abbrev W16 := BitVec 16
/-- A 32-bit register or field. -/
abbrev W32 := BitVec 32
/-- A 64-bit register pair, time or signature. -/
abbrev W64 := BitVec 64

/-- The three vital lanes (01, The five devices). -/
inductive LaneId where
  | a | b | c
  deriving DecidableEq, Repr

/-- The two 24 V feeds (R311, R430). -/
inductive Feed where
  | feedA | feedB
  deriving DecidableEq, Repr

/-- The two reset inputs (R307). -/
inductive ResetInput where
  | front | rear
  deriving DecidableEq, Repr

/-- The two links of a Thawen port (R164). -/
inductive Link where
  | east | west
  deriving DecidableEq, Repr

/-- The networks that carry federation and pair messages (R260). -/
inductive Net where
  | netA | netB | pair
  deriving DecidableEq, Repr

/-- The devices BIST tests (R302); the Service Controller is not tested. -/
inductive Device where
  | lane (l : LaneId) | portHub
  deriving DecidableEq, Repr

/-- The register blocks, one per page of R425 and R426. -/
inductive Blk where
  | sys | clk | tsu | rte | zvl | vot | crc | dma | evl | bst | red | sdb | fed | dio
  | phb | ttp (n : Fin 16) | stg
  | hbr | evr | upd | scdma | mbx
  deriving DecidableEq, Repr

end Sys2Proof
end

