-- ==== Sys2Proof/Syntax.lean ====
section
/-!
DEFINITION. Syntax.lean: the commands of the module, one constructor per row of spec/opcode_table.json, with the
operands the event or the host access brings. An operand carries only what comes from outside the modelled state: a
host's value, a received frame, a measured quantity, or which link or lane an event concerns.
-/
namespace Sys2Proof

/-- What a BIST run showed (R302, R303): every measured figure of the BST registers. -/
structure BistRun where
  /-- every scan chain's MISR value at the end -/
  misr : W64
  /-- failing words of the memory BIST -/
  memFails : Nat
  firstFail : BitVec 20
  /-- the DRAM interface test passed (lanes only) -/
  dramOk : Bool
  vMin : BitVec 10
  vMax : BitVec 10
  /-- BIST clock, units of 10 kHz -/
  fMin : W16
  fMax : W16
  durationMs : W16
  deriving DecidableEq, Repr

/-- A received frame copy (R167, R220): its bytes from Husk to frame CRC, and where its first and last bit fall, in ns
from the start of the port basic cycle. -/
structure RxFrame where
  bytes : List Byte
  /-- instant of the first bit of /S/ at the module's plane -/
  first : Int
  /-- instant of the last bit of /T/ -/
  last : Int
  deriving DecidableEq, Repr

/-- A copy with the lanes whose port snoop of it failed (R367), lane A in bit 0. -/
structure SnoopedFrame where
  frame : RxFrame
  snoopFailed : BitVec 3
  deriving DecidableEq, Repr

/-- What the module saw at a port's links in the port basic cycle before: whether each link has regained sync, and the latency in ns
of the beacon of each link where it arrived once on the other link's receiver (R229). -/
structure RingSeen where
  eastSync : Bool
  westSync : Bool
  eastBeacon : Option Nat
  westBeacon : Option Nat
  deriving DecidableEq, Repr

/-- The end of a cluster at a port: what was seen in the cluster's last port basic cycle (R229). -/
structure RingEnd where
  port : Fin 16
  seen : RingSeen
  deriving DecidableEq, Repr

/-- Which cross-lane messages of a compare window did not arrive, and which failed their CRC once and were sent again (R147):
pairs of lanes, from and to. -/
structure Exchange where
  sigLost : List (LaneId × LaneId)
  verdictLost : List (LaneId × LaneId)
  relayLost : List (LaneId × LaneId)
  retries : List (LaneId × LaneId)
  deriving DecidableEq, Repr

/-- One lane's samples of the DIO at a mark (R373): input levels, read-back levels, what its reading of the four group supplies (two bits
a group) differs in from the state that the thresholds of R378 give (0 in a sound lane, assumption 118), participation senses of the three
lanes, and switch-test results of channels 0 to 15. -/
structure DioSample where
  inputs : W64
  readback : W64
  supplyOff : BitVec 8
  /-- the senses of the six participation switches, two of each lane: bits 1 and 0 those of lane A, and so on (R376) -/
  senses : BitVec 6
  testFailed : W16
  deriving DecidableEq, Repr

/-- How a register write is offered to the lanes: those that give no answer within 8 µs (R349), and those it reaches less than 15 µs before
their cluster boundary (R421, R423). -/
structure Offer where
  silent : BitVec 3
  late : BitVec 3
  deriving DecidableEq, Repr

/-- A posted write of the host (R350): how the lanes are offered it where it is a command write, and whether the command write before it in
the same slot still awaits its answer. -/
structure Posted where
  offer : Offer
  busy : Bool
  deriving DecidableEq, Repr

/-- Where a register that has no row of its own is written (R10): by the host at an offset of BAR0 or by a posted write to a window of
BAR2 (R345), by the housekeeping core of a lane at a lane-local address (R351), or by the firmware of the Service Controller in the SC DMA page (R358). -/
inductive RegPlace where
  | bar0 (offset : W16) (p : Posted)
  | bar2 (window : Fin 8) (offset : BitVec 25) (p : Posted)
  | core (l : LaneId) (offset : W16)
  | firmware (offset : BitVec 12)
  deriving DecidableEq, Repr

/-- A host access that may fail (R352): a read of a number of bytes, and whether it falls within the 2 µs before a cluster boundary that
SHADOW_CTRL.GUARD shows (R415, assumption 125), or a posted write. -/
inductive HostAccess where
  | read (len : BitVec 13) (guard : Bool)
  | posted
  deriving DecidableEq, Repr

/-- What the end of a transfer brings (R361, R363): bytes read from the host, and an uncorrectable error of the source. -/
structure XferEnd where
  host : List Byte
  uncorrectable : Bool
  deriving DecidableEq, Repr

/-- What an express pass meets from outside the lanes' logic: the voltages of the two feeds as SYS.FEEDS shows them (R431) and of the four
field supplies as DIO.SUPPLY does (R385), the currents of conducting output channels in units of 5 mA (R385, 0 where none is given), the
three lanes' DIO samples, the instants at which the Port Hub sees the three lanes' marks, in ns of its schedule clock from the mark that
clock gives (R21), and hardware faults of ZVL's own checks (lane, cause of `ZVL.FAULT`, offset). -/
structure PassInput where
  feeds : W32
  volts : W32
  dioA : DioSample
  dioB : DioSample
  dioC : DioSample
  markA : Int
  markB : Int
  markC : Int
  zvlFaults : List (LaneId × Nat × Nat)
  /-- measured µs from the lane mark to publication of the forbid set (ZVL.PASS) -/
  passUs : BitVec 8
  currents : List (Fin 64 × BitVec 8)
  deriving DecidableEq, Repr

/-- A PTP master's dataset as an Announce carries it (R250, R252), compared by the best master clock algorithm. -/
structure PtpDataset where
  priority1 : Nat
  clockClass : Nat
  accuracy : Nat
  variance : Nat
  priority2 : Nat
  identity : W64
  steps : Nat
  deriving DecidableEq, Repr

/-- The kinds of message a PTP master sends (R250). -/
inductive PtpSend where
  | syncFollowUp | announce
  deriving DecidableEq, Repr

/-- The registers whose read latches others (R258). -/
inductive TsuLatch where
  | countLo | timeLo | baseLo
  deriving DecidableEq, Repr

/-- The completion slots of R350. -/
inductive CompSlot where
  | mbxDone (n : Fin 8) | modeDone | winDone (n : Fin 8)
  deriving DecidableEq, Repr

/-- The DMA units (R358): one in each lane and one in the Service Controller. -/
inductive DmaUnit where
  | lane (l : LaneId) | sc
  deriving DecidableEq, Repr

/-- Where a DIAG or MAINT frame comes from (R188): a node, on a link, or the Service Controller for a node. -/
inductive Passage where
  | fromNode (link : Link) (rx : RxFrame)
  | toNode (index : Nat) (payload : List Byte)
  deriving DecidableEq, Repr

/-- The memories whose uncorrectable error makes a lane name itself with cause 7 (R151). -/
inductive VitalMem where
  | stateImage | inputImage | commandStaging | activeImage | workingTables | requestQueue
  deriving DecidableEq, Repr

/-- A memory error (R151): where, and whether it was a single-bit error that ECC corrected. -/
structure MemError where
  mem : VitalMem
  corrected : Bool
  deriving DecidableEq, Repr

/-- A test of a standby lane (R281): the run, and whether a block of the working tables differed from its seal. -/
structure StandbyRun where
  run : BistRun
  wtFault : Bool
  deriving DecidableEq, Repr

/-- The commands: one constructor per row of spec/opcode_table.json, in the table's order. `silent` names the lanes
(bit 0 A, bit 1 B, bit 2 C) that give no answer within 8 µs to an offered command write (R349). -/
inductive Instr where
  -- power, reset and start-up (chapters 10 and 16)
  | feedPresent (f : Feed) (voltsA voltsB : W16)
  | feedLost (f : Feed) (voltsA voltsB : W16)
  | rideThroughExpiry
  | powerRecovery
  | holdupExhausted
  | pllLocked (lockUs : BitVec 8)
  | resetEdge (inp : ResetInput)
  | resetStuck (inp : ResetInput)
  | resetReleased (inp : ResetInput)
  | resetEnact
  | bootComplete (eeprom : List Byte)
  | bootTimeout
  | selfTestComplete
  | holdupReady (capacityMs : W16) (chargePct : BitVec 8)
  | holdupReadyTimeout
  | holdupMeasurement (capacityMs : Option W16) (chargePct : BitVec 8)
  -- loading (chapter 2)
  | imageStreamDone (differing : List (LaneId × Nat × Byte))
  | imageScanDone (l : LaneId)
  | workingTablesBuilt (sealA sealB sealC : W64)
  | onDieCompareDone
  | fedTimeAligned
  | startWaitExpiry
  | pairListenEnd
  -- the cycle (chapters 1, 3, 4, 5, 8)
  | clusterBoundary
  | requestedTransition
  | expressPass (inp : PassInput)
  | fullSweep (zvlFaults : List (LaneId × Nat × Nat)) (us : BitVec 8)
  | zvlEnteredReset (route : Nat)
  | gather
  | evaluationDone (l : LaneId) (ctx : Nat) (atUs : Nat)
  | evaluateEnd
  | overrun (seq : W32)
  | press (mergeA mergeB mergeC : BitVec 8)
  | timerExpiry (object : Nat) (slot : Nat)
  | requestExpiry (seq : W32)
  | pressWindowCompare (x : Exchange)
  | emit
  | outputWindowCompare (x : Exchange)
  | imageWindowCompare (x : Exchange)
  | exclusionEnacted
  | phFrameAssembly (late : BitVec 3) (crcFailed : BitVec 3)
  | workingTableRescan (l : LaneId) (failing : List Nat)
  | imageIntegrityScan (l : LaneId)
  | laneTimeMessage (x y : LaneId) (a b m : Int)
  | supplyFault (l : LaneId) (mv : BitVec 10)
  | clockMonitorTrip (l : LaneId) (ppm : W16)
  | pllUnlock (l : LaneId)
  | lateWake (l : LaneId)
  | watchdog (l : LaneId)
  | memoryError (l : LaneId) (m : MemError)
  | degradedLimitExpiry
  | limitWarn
  | darnAutoStart
  | darnStart
  | darnZeroFillDone
  | darnBistDone (r : BistRun)
  | darnImageDone (wtSeal : W64) (differing : List (Nat × Byte))
  | darnTimebaseAligned
  | darnSnapshotReceived
  | darnTrackingMatched
  | darnCutOver
  | darnReadmission
  | darnStepTimeout
  -- requests (chapter 3)
  | setRoute (mb : Fin 8) (word : W64) (silent : BitVec 3)
  | cancelRoute (mb : Fin 8) (word : W64) (silent : BitVec 3)
  | throwPoint (mb : Fin 8) (word : W64) (silent : BitVec 3)
  | withdraw (mb : Fin 8) (word : W64) (silent : BitVec 3)
  | restrictObject (mb : Fin 8) (word : W64) (silent : BitVec 3)
  | restrictArea (mb : Fin 8) (word : W64) (silent : BitVec 3)
  | restrictAll (mb : Fin 8) (word : W64) (silent : BitVec 3)
  | liftObject (mb : Fin 8) (word : W64) (silent : BitVec 3)
  | liftArea (mb : Fin 8) (word : W64) (silent : BitVec 3)
  | liftAll (mb : Fin 8) (word : W64) (silent : BitVec 3)
  | completionSlotRead (slot : CompSlot)
  | resultLoRead (mb : Fin 8)
  | prefetchRefused (offset : W16) (len : Nat)
  | resultPlaced
  -- mode, lifecycle and session requests (chapter 10)
  | modeReqDormant (word : W32) (silent : BitVec 3)
  | restartOrWake (word : W32) (silent : BitVec 3)
  | returnToService (word : W32) (silent : BitVec 3)
  | modeReqMaintenance (word : W32) (silent : BitVec 3)
  | modeReqUpdate (word : W32) (silent : BitVec 3)
  | lifecycleService (word : W32) (silent : BitVec 3)
  | lifecycleRetired (word : W32) (silent : BitVec 3)
  | fuseBlown
  | bistSessionOpen (word : W32) (silent : BitVec 3)
  | bistSessionClose (word : W32) (silent : BitVec 3)
  | challengeExpiry
  | authLockoutEnd
  -- register accesses (chapters 12 and 15)
  | registerWrite (at_ : RegPlace) (size : Nat) (value : BitVec 2048)
  | laneRegsWrite (window : Fin 8) (offset : BitVec 25) (value : W32) (o : Offer)
  | unsupportedAtomic (offset : W32)
  | tsuLatchingRead (l : LaneId) (which : TsuLatch) (ticks : Nat)
  | lockArm (b : Blk) (silent : BitVec 3)
  | lockOpen (b : Blk) (key : W16) (silent : BitVec 3)
  | lockClose (b : Blk) (silent : BitVec 3)
  | lockArmTimeout (b : Blk)
  | shadowWrite (b : Blk) (offset : BitVec 12) (value : W32) (late : BitVec 3) (silent : BitVec 3)
  | shadowDiscard (b : Blk) (late : BitVec 3) (silent : BitVec 3)
  | intPendingClear (b : Blk) (value : W32) (silent : BitVec 3)
  | intEnableWrite (b : Blk) (value : W32) (silent : BitVec 3)
  | intForce (b : Blk) (value : W32) (silent : BitVec 3)
  | queueFlush (silent : BitVec 3)
  | signatureInject (kind : BitVec 2) (silent : BitVec 3)
  | darnStartRequest (silent : BitVec 3)
  | darnAbort (silent : BitVec 3)
  | handbackRelease (silent : BitVec 3)
  | nodeLeaveRequest (port : Fin 16) (index : BitVec 7) (o : Offer)
  | quarantineRelease (node : BitVec 11) (o : Offer)
  -- flash slots (chapter 2)
  | imgErase (slot : Bool)
  | imgEraseDone (slot : Bool)
  | imgOpen (slot : Bool)
  | imgClose (slot : Bool)
  | imgCheckDone (slot : Bool)
  | imgSelect (value : W32)
  -- event recorder (chapter 14)
  | evrFlush
  | evrFetch
  | evrFetchDone
  | evrClear (upto : W32)
  | evrClearEraseDone
  | commissioningKeyStore (word : W32)
  | bistStart (ctrl : W32) (silent : BitVec 3)
  | bistDone (d : Device) (r : BistRun)
  -- DMA and check units (chapter 12)
  | dmaCopy (u : DmaUnit) (ch : Fin 16) (ctrl : W32) (beats : Nat) (hostData : List Byte)
  | dmaFill (u : DmaUnit) (ch : Fin 16) (ctrl : W32) (beats : Nat)
  | dmaCompare (u : DmaUnit) (ch : Fin 16) (ctrl : W32) (beats : Nat) (hostData : List Byte)
  | dmaAbort (u : DmaUnit) (ch : Fin 16)
  | dmaDone (u : DmaUnit) (ch : Fin 16) (e : XferEnd)
  | dmaStopped (u : DmaUnit) (ch : Fin 16)
  | scanCrc64 (l : LaneId) (m : Fin 2)
  | scanCrc32c (l : LaneId) (m : Fin 2)
  | scanSealWrite (l : LaneId) (m : Fin 2)
  | scanSealCheck (l : LaneId) (m : Fin 2)
  | scanPause (l : LaneId) (m : Fin 2) (words : Nat)
  | scanContinue (l : LaneId) (m : Fin 2)
  | scanDone (l : LaneId) (m : Fin 2) (uncorrectable : Bool)
  | snoopInit (l : LaneId) (alg : BitVec 2)
  | crcChannelEnable (l : LaneId) (k : Fin 8) (ctrl : W32)
  | perst (asserted : Bool)
  | hostLinkFail (l : LaneId)
  | hostLinkRestore (l : LaneId)
  | eventReport (l : LaneId)
  | mergeTimeout
  | flushTimer
  | flushBatchDone
  | patchWriteDone
  | patchConfirm
  | probationExpiry
  -- Thawen ports (chapters 6 and 7)
  | portBasicCycle (port : Fin 16) (seen : RingSeen)
  | commandWindow (port : Fin 16) (index : Nat)
  | pollWindow (port : Fin 16) (index : Nat)
  | inputFrame (port : Fin 16) (link : Link) (rx : RxFrame)
  | inputWindowEnd (port : Fin 16) (index : Nat) (snoopFailed : BitVec 3)
  | eventFrame (port : Fin 16) (link : Link) (rx : SnoopedFrame)
  | diagFrame (port : Fin 16) (p : Passage)
  | maintFrame (port : Fin 16) (p : Passage)
  | joinRequest (port : Fin 16) (link : Link) (rx : RxFrame)
  | joinGrant (port : Fin 16) (index : Nat)
  | nodeLeaveFrame (port : Fin 16) (link : Link) (rx : RxFrame)
  | delayReport (port : Fin 16) (link : Link) (rx : RxFrame)
  | pollReply (port : Fin 16) (link : Link) (rx : RxFrame)
  | probeEcho (port : Fin 16) (instant : Nat) (crcOk : Bool) (returned : Bool)
  | delaySend (port : Fin 16) (index : Nat)
  | ringReturnCheck (port : Fin 16) (latency : Option Nat) (echo : Bool)
  | linkSyncLoss (port : Fin 16) (link : Link)
  | ringRestored (x : RingEnd)
  | portLatencyCheck (port : Fin 16)
  | nodeLost (port : Fin 16) (index : Nat)
  | nodeRestored (port : Fin 16) (index : Nat)
  | nodeLeft (port : Fin 16) (index : Nat)
  | nodeAdmitted (port : Fin 16) (index : Nat)
  | quarantineHoldExpiry (port : Fin 16) (index : Nat)
  | pollLinkSwitch (port : Fin 16) (index : Nat)
  | schedDecision (port : Fin 16)
  -- federation and pairs (chapter 9); `stamp` is the active unit's stamp of this unit's last time message (R244, R257), in
  -- ns of module time, where the pair link has returned one
  | boundaryMsg (n : Net) (bytes : List Byte) (arrival : Nat)
  | statusMsg (n : Net) (bytes : List Byte) (arrival : Nat)
  | startMsg (n : Net) (bytes : List Byte) (arrival : Nat)
  | pairBeatMsg (bytes : List Byte) (arrival : Nat) (stamp : Option Int)
  | healthMsg (bytes : List Byte) (arrival : Nat)
  | seedMsg (bytes : List Byte) (arrival : Nat)
  | seedAckMsg (bytes : List Byte) (arrival : Nat)
  | fedSourceLost (source : Fin 16)
  | fedSourceRestored (source : Fin 16)
  | singleNetworkEnter (silent : Net) (linkLost : Bool)
  | singleNetworkLeave
  | singleNetworkExpiry
  | duplicateClear (number : Fin 16)
  | fedListenEnd
  | startSend
  | fedClaimEnd
  | fedBackoffEnd
  | pairSilence
  | takeoverEntry
  | healthTimeout
  | standbyLaneTest
  | standbyTestDone (r : StandbyRun)
  | handbackReady
  | handbackEntry
  | handbackFinal
  | handbackHandover
  | handbackAbandon
  -- PTP (chapter 8)
  | ptpSync (n : Net) (t1 t2 : Int)
  | ptpAnnounce (n : Net) (ds : PtpDataset)
  | ptpDelayResp (n : Net) (t1 t2 t3 t4 : Int)
  | ptpSyncTimeout
  | ptpAnnounceTimeout
  | holdoverLimit
  -- 24 V digital I/O (chapter 13)
  | dioSwitchTest
  | demagEnd (ch : Fin 64)
  | deferEnd (ch : Fin 64)
  | dioOverload (ch : Fin 64) (current : BitVec 8)
  | supplyLow (g : Fin 4) (volts : BitVec 8)
  | supplyMissing (g : Fin 4) (volts : BitVec 8)
  | supplyRecover (g : Fin 4) (volts : BitVec 8)
  | readbackFault (ch : Fin 64)
  | inDisagree (l : LaneId) (ch : Fin 64)
  | participationFault (l : LaneId)
  -- rows added at the end of the table
  | partnerBeacon (port : Fin 16) (link : Link) (bytes : List Byte)
  | failedAccess (access : HostAccess) (bar2 : Bool) (offset : BitVec 28) (cause : BitVec 4)
  | ptpMasterSend (n : Net) (what : PtpSend)
  | ptpDelayReqSend (n : Net)
  | pcieLinkDown
  deriving DecidableEq, Repr

end Sys2Proof
end

