-- ==== Sys2Proof/Decode.lean ====
section
/-!
DEFINITION. Decode.lean: the command a table word spells. The rows of spec/opcode_table.json are events and host accesses
and give no bits, so no word spells a command.
-/
namespace Sys2Proof

/-- The table gives no row bits: every word is refused. -/
def decodeTableWord (_nbits _w : Nat) : Option Instr := none

end Sys2Proof
end

