-- ==== Sys2Proof/Machine/Sparse.lean ====
section
/-!
DEFINITION. Machine/Sparse.lean: sparse stores in one canonical form. A store is a list of (key, value) pairs with
strictly rising keys and no entry equal to what an unlisted key reads as; `d` says what an unlisted key reads as. Lane
memories, register files, the State Image and every per-node table are such stores, so equal stores are equal data.
-/
namespace Sys2Proof.Machine

/-- A sparse store of `α` by natural-number key. -/
abbrev Store (α : Type) := List (Nat × α)

/-- What the store holds at key `k`; `d` is what an unlisted key reads as. -/
def Store.get {α : Type} (d : Nat → α) : Store α → Nat → α
  | [], k => d k
  | (j, v) :: t, k => if k = j then v else Store.get d t k

/-- Put a pair in front of the first larger key. -/
def Store.insert {α : Type} (k : Nat) (v : α) : Store α → Store α
  | [] => [(k, v)]
  | (j, w) :: t => if k < j then (k, v) :: (j, w) :: t else (j, w) :: Store.insert k v t

/-- Write `v` at key `k`, keeping the canonical form: what an unlisted key reads as anyway is not listed. -/
def Store.set {α : Type} [DecidableEq α] (d : Nat → α) (m : Store α) (k : Nat) (v : α) : Store α :=
  let t := m.filter (fun e => decide (e.1 ≠ k))
  if v = d k then t else Store.insert k v t

/-- Change the value at a key. -/
def Store.upd {α : Type} [DecidableEq α] (d : Nat → α) (m : Store α) (k : Nat) (f : α → α) : Store α :=
  Store.set d m k (f (Store.get d m k))

/-- Keep the entries that satisfy `p`, so that every other key reads as unlisted. -/
def Store.keep {α : Type} (m : Store α) (p : Nat → Bool) : Store α := m.filter (fun e => p e.1)

/-- Every key of the list lies above `b`, the keys rise strictly and no value is the unlisted one. -/
def Store.wfFrom {α : Type} [DecidableEq α] (d : Nat → α) : Nat → Store α → Bool
  | _, [] => true
  | b, (j, v) :: t => decide (b ≤ j) && decide (v ≠ d j) && Store.wfFrom d (j + 1) t

/-- The canonical form. -/
def Store.wf {α : Type} [DecidableEq α] (d : Nat → α) (m : Store α) : Bool := Store.wfFrom d 0 m

/-! ### Byte memories -/

/-- A byte memory (lane DRAM and SRAM, SC DRAM, flash slots, host memory). -/
abbrev Mem := Store Byte

/-- A byte that nothing has written reads 0x00 (assumption 6). -/
def Mem.d : Nat → Byte := fun _ => 0

/-- The byte at an address. -/
def Mem.byte (m : Mem) (a : Nat) : Byte := Store.get Mem.d m a

/-- Write one byte. -/
def Mem.put (m : Mem) (a : Nat) (b : Byte) : Mem := Store.set Mem.d m a b

/-- `n` bytes from address `a` upwards of a memory whose first entry stands at or above `a`. -/
def Mem.readFrom : Mem → Nat → Nat → List Byte
  | _, _, 0 => []
  | [], a, n + 1 => Mem.d a :: Mem.readFrom [] (a + 1) n
  | (k, v) :: t, a, n + 1 =>
    if k = a then v :: Mem.readFrom t (a + 1) n else Mem.d a :: Mem.readFrom ((k, v) :: t) (a + 1) n

/-- `n` bytes from address `a` upwards. -/
def Mem.read (m : Mem) (a n : Nat) : List Byte := Mem.readFrom (m.dropWhile (fun e => decide (e.1 < a))) a n

/-- Replace the `len` bytes from `base` by the first `len` bytes of another memory. -/
def Mem.splice (m : Mem) (base len : Nat) (src : Mem) : Mem :=
  m.filter (fun e => decide (e.1 < base)) ++
  ((src.filter (fun e => decide (e.1 < len))).map (fun e => (e.1 + base, e.2)) ++
   m.filter (fun e => decide (base + len ≤ e.1)))

/-- Write a list of bytes from address `a` upwards. -/
def Mem.write (m : Mem) (a : Nat) : List Byte → Mem
  | [] => m
  | b :: t => Mem.write (Mem.put m a b) (a + 1) t

/-- Fill every address that satisfies `p` with zero. -/
def Mem.zeroWhere (m : Mem) (p : Nat → Bool) : Mem := Store.keep m (fun a => !p a)

/-- The canonical form of a byte memory. -/
def Memory.wf (m : Mem) : Bool := Store.wf Mem.d m

end Sys2Proof.Machine
end

