-- ==== Sys2Proof/Machine/Bits.lean ====
section
/-!
DEFINITION. Machine/Bits.lean: bit fields, byte order (R9: most significant byte first), saturation, serial-number
comparison and signed readings.
-/
namespace Sys2Proof.Machine

/-- A rational in whole units, truncated towards zero (assumption 46). -/
def ratTrunc (q : Rat) : Int := q.num.tdiv q.den

def ratAbs (q : Rat) : Rat := if q < 0 then -q else q

/-- Bits [hi:lo] of a number. -/
def bitsOf (v hi lo : Nat) : Nat := v / 2 ^ lo % 2 ^ (hi + 1 - lo)

/-- `v` with bits [hi:lo] replaced by `x`. -/
def setBits (v hi lo x : Nat) : Nat :=
  v / 2 ^ (hi + 1) * 2 ^ (hi + 1) + x % 2 ^ (hi + 1 - lo) * 2 ^ lo + v % 2 ^ lo

/-- Bit `i` of a number. -/
def bitOf (v i : Nat) : Bool := v / 2 ^ i % 2 = 1

/-- A Boolean as a bit. -/
def b2n (b : Bool) : Nat := if b then 1 else 0

/-- `v` with bit `i` set to `b`. -/
def putBit (v i : Nat) (b : Bool) : Nat := setBits v i i (b2n b)

/-- The number a list of bits spells, bit 0 first. -/
def ofBits : List Bool → Nat
  | [] => 0
  | b :: t => b2n b + 2 * ofBits t

/-- A bitmap over `n` positions. -/
def bitmap (n : Nat) (p : Nat → Bool) : Nat := ofBits ((List.range n).map p)

/-- `n` bytes of a number, most significant first (R9). -/
def be : Nat → Nat → List Byte
  | 0, _ => []
  | n + 1, v => BitVec.ofNat 8 (v / 256 ^ n) :: be n v

/-- The number a list of bytes spells, most significant byte first (R9). -/
def ofBe (l : List Byte) : Nat := l.foldl (fun a b => a * 256 + b.toNat) 0

/-- Saturate at the largest value of `w` bits. -/
def satAt (w v : Nat) : Nat := min v (2 ^ w - 1)

/-- `a` is newer than `b` under serial-number comparison modulo 2^w. -/
def newer (w a b : Nat) : Bool :=
  let d := (a + 2 ^ w - b % 2 ^ w) % 2 ^ w
  decide (0 < d) && decide (d < 2 ^ (w - 1))

/-- The signed reading of `w` bits. -/
def signed (w v : Nat) : Int :=
  let u := v % 2 ^ w
  if u < 2 ^ (w - 1) then (u : Int) else (u : Int) - 2 ^ w

/-- The `w` bits of a signed number saturated at ± (2^(w-1) - 1). -/
def satSigned (w : Nat) (i : Int) : Nat :=
  let m : Int := 2 ^ (w - 1) - 1
  let c := max (-m) (min m i)
  (c % 2 ^ w).toNat

/-- The two's complement of `i` in `w` bits. -/
def wrapSigned (w : Nat) (i : Int) : Nat := (i % 2 ^ w).toNat

/-- Round a quotient up. -/
def ceilDiv (a b : Nat) : Nat := (a + b - 1) / b

/-- Pad a list with zero bytes to `n`. -/
def padTo (n : Nat) (l : List Byte) : List Byte := l ++ List.replicate (n - l.length) 0

end Sys2Proof.Machine
end

