-- ==== Sys2Proof/Machine/Crc.lean ====
section
/-!
DEFINITION. Machine/Crc.lean: CRC-64/ECMA-182 (R143), CRC-32C as published (R168, R189), CRC-32 of
IEEE 802.3 (R260) and HMAC-SHA-256 (FIPS 198-1 with FIPS 180-4, named by R4; the algorithms themselves are PRESUMED, assumption 20).
-/
namespace Sys2Proof.Machine

/-- One bit of CRC-64/ECMA-182, most significant bit first (R143). -/
def crc64Bit (c : W64) : W64 :=
  if c.getLsbD 63 then (c <<< 1) ^^^ 0x42F0E1EBA9EA3693#64 else c <<< 1

/-- `n` applications of a step. -/
def iter {α : Type} (f : α → α) : Nat → α → α
  | 0, x => x
  | n + 1, x => iter f n (f x)

/-- One byte into the CRC-64 register. -/
def crc64Byte (c : W64) (b : Byte) : W64 := iter crc64Bit 8 (c ^^^ (b.setWidth 64 <<< 56))

/-- CRC-64/ECMA-182 continued from a running register (no final XOR, R143). -/
def crc64From (c : W64) (l : List Byte) : W64 := l.foldl crc64Byte c

/-- CRC-64/ECMA-182 of a byte string. -/
def crc64 (l : List Byte) : W64 := crc64From 0 l

/-- One bit of the reflected CRC-32C register. -/
def crc32cBit (c : W32) : W32 := if c.getLsbD 0 then (c >>> 1) ^^^ 0x82F63B78#32 else c >>> 1

/-- One byte into the reflected CRC-32C register. -/
def crc32cByte (c : W32) (b : Byte) : W32 := iter crc32cBit 8 (c ^^^ b.setWidth 32)

/-- The CRC-32C register after a byte string, from a starting register, before the final XOR (R365). -/
def crc32cFrom (c : W32) (l : List Byte) : W32 := l.foldl crc32cByte c

/-- CRC-32C as published. -/
def crc32c (l : List Byte) : W32 := crc32cFrom 0xFFFFFFFF l ^^^ 0xFFFFFFFF

/-- One bit of the reflected CRC-32 register of IEEE 802.3. -/
def crc32Bit (c : W32) : W32 := if c.getLsbD 0 then (c >>> 1) ^^^ 0xEDB88320#32 else c >>> 1

/-- The CRC-32 of IEEE 802.3 (R260). -/
def crc32 (l : List Byte) : W32 :=
  l.foldl (fun c b => iter crc32Bit 8 (c ^^^ b.setWidth 32)) 0xFFFFFFFF ^^^ 0xFFFFFFFF

/-- A lane code (R189, R263): the register starts at SEED XOR K; a result of zero is sent as all ones (R190). -/
def laneCode (seed key : W32) (l : List Byte) : W32 :=
  let c := crc32cFrom (seed ^^^ key) l ^^^ 0xFFFFFFFF
  if c = 0 then 0xFFFFFFFF else c

/-- The lane seeds (R189). -/
def laneSeed : LaneId → W32
  | .a => 0x6B1D4E27
  | .b => 0x93C50A78
  | .c => 0x2F8EB3D1

/-! ### SHA-256: constants from the roots of the first primes -/

/-- The largest `r` below 2^`bits` + `r0` with `r`^`e` at most `n`, found bit by bit from the top. -/
def rootFrom (e n : Nat) : Nat → Nat → Nat
  | 0, r => r
  | b + 1, r => rootFrom e n b (if (r + 2 ^ b) ^ e ≤ n then r + 2 ^ b else r)

/-- The first 32 bits of the fraction of the `e`-th root of `p`. -/
def rootFraction (e p : Nat) : W32 := BitVec.ofNat 32 (rootFrom e (p * 2 ^ (32 * e)) 37 0)

/-- The first 64 primes. -/
def shaPrimes : List Nat :=
  [2, 3, 5, 7, 11, 13, 17, 19, 23, 29, 31, 37, 41, 43, 47, 53] ++
  [59, 61, 67, 71, 73, 79, 83, 89, 97, 101, 103, 107, 109, 113, 127, 131] ++
  [137, 139, 149, 151, 157, 163, 167, 173, 179, 181, 191, 193, 197, 199, 211, 223] ++
  [227, 229, 233, 239, 241, 251, 257, 263, 269, 271, 277, 281, 283, 293, 307, 311]

/-- What the compression works on: the word that leads each half of the register and the three behind it, newest first. -/
structure Sha where
  low : List W32
  high : List W32
  deriving DecidableEq, Repr

def shaInit : Sha :=
  let roots := (shaPrimes.take 8).map (rootFraction 2)
  ⟨roots.take 4, roots.drop 4⟩

/-- Three rotations of a word, added bit by bit. -/
def turned (x : W32) (i j k : Nat) : W32 := x.rotateRight i ^^^ x.rotateRight j ^^^ x.rotateRight k

/-- One round: `feed` is the constant and the word of the schedule. Each half takes a new word and loses its last. -/
def Sha.round (s : Sha) (feed : W32) : Sha :=
  match s.low, s.high with
  | [p, q, r, t], [u, v, w, x] =>
    let mix := x + feed + turned u 6 11 25 + (w ^^^ (u &&& (v ^^^ w)))
    let most := (p &&& (q ||| r)) ||| (q &&& r)
    ⟨[mix + turned p 2 13 22 + most, p, q, r], [t + mix, u, v, w]⟩
  | _, _ => s

/-- The schedule: each word of the block, then sixteen at a time from the sixteen before. -/
def shaExpand (w : List W32) : W32 :=
  let at_ := fun (k : Nat) => w.getD k 0
  at_ 0 + at_ 9 + (turned (at_ 1) 7 18 0 ^^^ at_ 1 ^^^ (at_ 1 >>> 3)) + (turned (at_ 14) 17 19 0 ^^^ at_ 14 ^^^ (at_ 14 >>> 10))

/-- The rounds of one block, with the sixteen words that the schedule still needs. -/
def Sha.rounds (s : Sha) (w : List W32) : List Nat → Sha
  | [] => s
  | p :: ps => (s.round (rootFraction 3 p + w.headD 0)).rounds (w.tail ++ [shaExpand w]) ps

/-- The big-endian words of a string of whole words. -/
def wordsBe : Nat → List Byte → List W32
  | 0, _ => []
  | n + 1, l => BitVec.ofNat 32 (ofBe (l.take 4)) :: wordsBe n (l.drop 4)

/-- A block of 64 bytes into the hash value. -/
def Sha.block (s : Sha) (l : List Byte) : Sha :=
  let r := s.rounds (wordsBe 16 l) shaPrimes
  ⟨List.zipWith (· + ·) s.low r.low, List.zipWith (· + ·) s.high r.high⟩

/-- `n` blocks, one after another. -/
def Sha.blocks (s : Sha) : Nat → List Byte → Sha
  | 0, _ => s
  | n + 1, l => (s.block (l.take 64)).blocks n (l.drop 64)

/-- SHA-256: a one bit, zeros, and the length in bits fill the last block. -/
def sha256 (l : List Byte) : List Byte :=
  let full := l ++ 0x80 :: List.replicate ((119 - l.length % 64) % 64) 0 ++ be 8 (8 * l.length)
  let s := shaInit.blocks (full.length / 64) full
  (s.low ++ s.high).flatMap (fun w => be 4 w.toNat)

/-- HMAC-SHA-256 with a 32-byte key (R4). -/
def hmac (key msg : List Byte) : List Byte :=
  let k := padTo 64 key
  sha256 (k.map (· ^^^ 0x5c) ++ sha256 (k.map (· ^^^ 0x36) ++ msg))

end Sys2Proof.Machine
end

