-- ==== Sys2Proof/Config.lean ====
section
/-!
DEFINITION. Config.lean: the values the manual leaves open. Each is an opaque constant applied to the data it depends
on, or to the plain counter `Sys.free` of the state that a step reads and advances: nothing constrains it, and no
statement rests on a value of one (assumption 9).
-/
namespace Sys2Proof

/-- A fresh free value of a bit vector, by the counter of the state. -/
opaque Config.freeByte : Nat → Byte
opaque Config.freeWord : Nat → W32

/-- Bytes of the memories that a lane's own units keep in a layout the manual leaves open (R28, R29), by lane, address and
counter. -/
opaque Config.unitByte : Nat → Nat → Nat → Byte

/-- Bytes that a COPY onto its own source writes once it meets what it has written (R360), by the counter and position. -/
opaque Config.copyByte : Nat → Nat → Byte

/-- CODE of the event record of a lane's failed host link (R31), which R389 does not list. -/
opaque Config.linkCode : W16

/-- µs that the work of an unscheduled wake takes (R18), by lane, cluster and number of the wake in it. -/
opaque Config.wakeUs : Nat → Nat → Nat → Nat

/-- The challenge of R297: 16 random bytes, by the counter of the state. -/
opaque Config.challengeByte : Nat → Nat → Byte

/-- The throw condition of the rule program for a point and a target position (R109, R449): the body's encoding is left
open; by IMAGE_ID, object, position and cluster. -/
opaque Config.throwCondition : Nat → Nat → Nat → Nat → Bool

/-- The writes of the rule program to APP at a Press (R449): by IMAGE_ID, object, cluster and the present APP. -/
opaque Config.appWrite : Nat → Nat → Nat → BitVec 512 → BitVec 512

/-- What the rule program commands beyond the tables (R327, R449): the command of a level crossing, gate, release key or output
object, by IMAGE_ID, object, cluster and the present command; and the position it throws a point to (0 none). -/
opaque Config.ruleCommand : Nat → Nat → Nat → Nat → Nat
opaque Config.ruleThrow : Nat → Nat → Nat → Nat

/-- Timers of KIND 4 and 5 under the rule program (R50, R327): 0 left, 1 started, 2 stopped; by IMAGE_ID, object, slot and
cluster. -/
opaque Config.ruleTimer : Nat → Nat → Nat → Nat → Nat

/-- Holds and releases of the rule program beyond the tables (R327, R449): a route's signal is held, by IMAGE_ID, route and
cluster; a release group may release, by IMAGE_ID, route, group and cluster. -/
opaque Config.ruleHold : Nat → Nat → Nat → Bool
opaque Config.ruleRelease : Nat → Nat → Nat → Nat → Bool

/-- OUTPUTS of an object on a node as a command sets its output points (R41), by IMAGE_ID, object and command. -/
opaque Config.outputs : Nat → Nat → Nat → Byte

/-- A corruption of a signature by VOT.CTRL.INJECT (R162): what the corrupted signature becomes is not given, only that
it differs; the free value is taken modulo the inequality by the meaning that uses it. -/
opaque Config.corrupt : W64 → W64

/-- The interface numbers the running RTE microcode accepts, RTE.RULE_IF (R114, R449): by the VERSION of the microcode. -/
opaque Config.ruleIfMin : Nat → Nat
opaque Config.ruleIfMax : Nat → Nat

/-- The build of the Service Controller firmware (R415), by its VERSION. -/
opaque Config.build : Nat → W16

/-- The settings of the new format that the new firmware converts from a snapshot (R406): by format, address and value. -/
opaque Config.convertSetting : Nat → Nat → W32 → W32

/-- The module's own PTP clock (R250): its clockIdentity by the serial number, its clockAccuracy and variance. -/
opaque Config.clockIdentity : W64 → W64
opaque Config.clockAccuracy : Nat
opaque Config.clockVariance : Nat

end Sys2Proof
end

