-- ==== Sys2Proof/Machine/RegMap.lean ====
section
/-!
DEFINITION. Machine/RegMap.lean: the register map of chapter 15 and of the register tables of every chapter, as data:
the base address of each block page (R425, R426), one `Field` per named field of a register table (address, high bit,
low bit), one bit number per interrupt (`I.<BLOCK>_<NAME>`), the access row of every register (R414) and the reset values
that are not zero (R428). The names are the manual's own: `F.SYS_STATUS_MODE` is `SYS.STATUS.MODE`.
-/
namespace Sys2Proof.Machine

/-- A register field: lane-local (or Service Controller) address of the register, high bit, low bit. -/
structure Field where
  addr : Nat
  hi : Nat
  lo : Nat
  deriving DecidableEq, Repr

/-- The access codes of R10; `cmd` is a command-class write target (R348), `own` a LOCK, SHADOW_CTRL or interrupt register
with rules of its own (R415 to R420). -/
inductive Access where
  | ro | rw | wo | rwl | rws | w1c | cmd | own
  deriving DecidableEq, Repr

/-- One row of a block's register table: offset in the page, distance to the next of its kind, how many there are, access
code, and the bits of its fields that a write can set (every other bit is reserved or read-only, R10). -/
structure RegRow where
  off : Nat
  stride : Nat
  count : Nat
  acc : Access
  mask : Nat
  deriving DecidableEq, Repr

/-- The page of TTP port `p` (R207): port 15 stands above the STG page. -/
def ttpBase (p : Nat) : Nat := if p = 15 then 0x40021000 else 0x40011000 + p * 0x1000

/-- The lane DMA block's page and the SC DMA block's page (R363). -/
def laneDma : Nat := 0x40007000
def scDma : Nat := 0x50003000

/-- Base address of a block's page (R425, R427). -/
def blkBase : Blk → Nat
  | .sys => 0x40000000 | .clk => 0x40001000 | .tsu => 0x40002000 | .rte => 0x40003000 | .zvl => 0x40004000
  | .vot => 0x40005000 | .crc => 0x40006000 | .dma => 0x40007000 | .evl => 0x40008000 | .bst => 0x40009000
  | .red => 0x4000A000 | .sdb => 0x4000B000 | .fed => 0x4000C000 | .dio => 0x4000D000
  | .phb => 0x40010000 | .ttp n => ttpBase n.val | .stg => 0x40020000
  | .hbr => 0x50000000 | .evr => 0x50001000 | .upd => 0x50002000 | .scdma => 0x50003000 | .mbx => 0x50004000

/-- ID.BLOCK, the second word of the lock sequence (R415, R427). -/
def blkCode : Blk → Nat
  | .sys => 0xA001 | .clk => 0xA002 | .tsu => 0xA003 | .rte => 0xA004 | .zvl => 0xA005 | .vot => 0xA006
  | .crc => 0xA007 | .dma => 0xA008 | .evl => 0xA009 | .bst => 0xA00A | .red => 0xA00B | .sdb => 0xA00C
  | .fed => 0xA00D | .dio => 0xA00E | .phb => 0xA010 | .ttp _ => 0xA011 | .stg => 0xA012
  | .hbr => 0xA020 | .evr => 0xA021 | .upd => 0xA022 | .scdma => 0xA023 | .mbx => 0xA024


/-! ### Fields of UPD -/
def F.UPD_IMG_SLOT_STATUS_LOADING : Field := ⟨0x50002300, 9, 9⟩
def F.UPD_IMG_SLOT_STATUS_SELECTED : Field := ⟨0x50002300, 8, 8⟩
def F.UPD_IMG_SLOT_STATUS_B_STATE : Field := ⟨0x50002300, 7, 4⟩
def F.UPD_IMG_SLOT_STATUS_A_STATE : Field := ⟨0x50002300, 3, 0⟩
def F.UPD_IMG_SELECT_SLOT : Field := ⟨0x50002304, 0, 0⟩
def F.UPD_IMG_WRITE_CTRL_SLOT : Field := ⟨0x50002308, 4, 4⟩
def F.UPD_IMG_WRITE_CTRL_CMD : Field := ⟨0x50002308, 1, 0⟩
def F.UPD_IMG_WRITE_LEN_LENGTH : Field := ⟨0x5000230C, 31, 0⟩
def F.UPD_IMG_A_ID_IMAGE_ID : Field := ⟨0x50002310, 31, 0⟩
def F.UPD_IMG_B_ID_IMAGE_ID : Field := ⟨0x50002314, 31, 0⟩

/-! ### Fields of SYS -/
def F.SYS_IMG_ID_IMAGE_ID : Field := ⟨0x40000200, 31, 0⟩
def F.SYS_IMG_SEAL_LO_SEAL_LO : Field := ⟨0x40000204, 31, 0⟩
def F.SYS_IMG_SEAL_HI_SEAL_HI : Field := ⟨0x40000208, 31, 0⟩
def F.SYS_IMG_LOAD_SLOT : Field := ⟨0x4000020C, 16, 16⟩
def F.SYS_IMG_LOAD_FAULT : Field := ⟨0x4000020C, 11, 8⟩
def F.SYS_IMG_LOAD_STEP : Field := ⟨0x4000020C, 3, 0⟩
def F.SYS_IMG_PROVING_OUTSTANDING : Field := ⟨0x40000210, 17, 0⟩

/-! ### Fields of MBX -/
def F.MBX_REQn_REQUEST (n : Nat) : Field := ⟨0x50004040 + n * 0x20, 63, 0⟩
def F.MBX_DONEn_ACCEPTANCE (n : Nat) : Field := ⟨0x50004048 + n * 0x20, 63, 0⟩
def F.MBX_RESULT_HIn_RESULT_HI (n : Nat) : Field := ⟨0x50004050 + n * 0x20, 31, 0⟩
def F.MBX_RESULT_LOn_RESULT_LO (n : Nat) : Field := ⟨0x50004054 + n * 0x20, 31, 0⟩
def F.MBX_RESULT_COUNTn_OVERFLOW (n : Nat) : Field := ⟨0x50004058 + n * 0x20, 31, 31⟩
def F.MBX_RESULT_COUNTn_COUNT (n : Nat) : Field := ⟨0x50004058 + n * 0x20, 10, 0⟩
def F.MBX_AREA_LOn_AREAS (n : Nat) : Field := ⟨0x50004140 + n * 0x8, 31, 0⟩
def F.MBX_AREA_HIn_AREAS (n : Nat) : Field := ⟨0x50004144 + n * 0x8, 31, 0⟩

/-! ### Fields of RTE -/
def F.RTE_CTRL_FLUSH : Field := ⟨0x40003008, 0, 0⟩
def F.RTE_STATUS_DEFERRED : Field := ⟨0x4000300C, 3, 3⟩
def F.RTE_STATUS_QUEUE_FULL : Field := ⟨0x4000300C, 2, 2⟩
def F.RTE_STATUS_QUEUE_HIGH : Field := ⟨0x4000300C, 1, 1⟩
def F.RTE_STATUS_RUNNING : Field := ⟨0x4000300C, 0, 0⟩
def F.RTE_CYCLE_PHASE : Field := ⟨0x40003040, 31, 28⟩
def F.RTE_CYCLE_BASIC : Field := ⟨0x40003040, 27, 24⟩
def F.RTE_CLUSTER_LO_CLUSTER_LO : Field := ⟨0x40003044, 31, 0⟩
def F.RTE_CLUSTER_HI_CLUSTER_HI : Field := ⟨0x40003048, 31, 0⟩
def F.RTE_QUEUE_DEPTH_DEPTH : Field := ⟨0x4000304C, 16, 0⟩
def F.RTE_QUEUE_CUT_CUT : Field := ⟨0x40003050, 31, 0⟩
def F.RTE_QUEUE_HIGH_THRESHOLD : Field := ⟨0x40003054, 16, 0⟩
def F.RTE_REQ_LIFETIME_CLUSTERS : Field := ⟨0x40003058, 15, 0⟩
def F.RTE_LAUNCH_LEAD_LEAD : Field := ⟨0x4000305C, 9, 0⟩
def F.RTE_EVAL_LAST_STARTED : Field := ⟨0x40003060, 31, 16⟩
def F.RTE_EVAL_LAST_COMPLETED : Field := ⟨0x40003060, 15, 0⟩
def F.RTE_DROP_LAST_DEFERRED : Field := ⟨0x40003064, 31, 16⟩
def F.RTE_DROP_LAST_DROPPED : Field := ⟨0x40003064, 15, 0⟩
def F.RTE_LOAD_DEMAND_AVG : Field := ⟨0x40003068, 31, 16⟩
def F.RTE_LOAD_DEMAND : Field := ⟨0x40003068, 15, 0⟩
def F.RTE_LOCKED_SUPERVISED : Field := ⟨0x4000306C, 27, 16⟩
def F.RTE_LOCKED_ROUTES : Field := ⟨0x4000306C, 11, 0⟩
def F.RTE_PRESS_MERGE_US : Field := ⟨0x40003070, 31, 24⟩
def F.RTE_PRESS_COMMITTED : Field := ⟨0x40003070, 15, 0⟩
def F.RTE_REJECTS_COUNT : Field := ⟨0x40003074, 31, 0⟩
def F.RTE_OVERRUNS_COUNT : Field := ⟨0x40003078, 15, 0⟩
def F.RTE_RULE_IF_MAX : Field := ⟨0x4000307C, 31, 16⟩
def F.RTE_RULE_IF_MIN : Field := ⟨0x4000307C, 15, 0⟩

/-! ### Fields of ZVL -/
def F.ZVL_STATUS_FAULT : Field := ⟨0x4000400C, 4, 4⟩
def F.ZVL_STATUS_HELD : Field := ⟨0x4000400C, 3, 3⟩
def F.ZVL_STATUS_COLLIDED : Field := ⟨0x4000400C, 2, 2⟩
def F.ZVL_STATUS_ADMITTING : Field := ⟨0x4000400C, 1, 1⟩
def F.ZVL_STATUS_ACTIVE : Field := ⟨0x4000400C, 0, 0⟩
def F.ZVL_PASS_LAST_US : Field := ⟨0x40004040, 31, 24⟩
def F.ZVL_PASS_MAX_US : Field := ⟨0x40004040, 23, 16⟩
def F.ZVL_PASS_COUNT_COUNT : Field := ⟨0x40004044, 31, 0⟩
def F.ZVL_TABLE_HELD : Field := ⟨0x40004048, 27, 16⟩
def F.ZVL_TABLE_SLOTS : Field := ⟨0x40004048, 11, 0⟩
def F.ZVL_FORBIDS_OVERRIDES : Field := ⟨0x4000404C, 30, 16⟩
def F.ZVL_FORBIDS_FORBIDDEN : Field := ⟨0x4000404C, 14, 0⟩
def F.ZVL_SWEEP_LAST_US : Field := ⟨0x40004050, 31, 24⟩
def F.ZVL_SWEEP_PENDING : Field := ⟨0x40004050, 15, 0⟩
def F.ZVL_DISC_CAUSE_CAUSE : Field := ⟨0x40004054, 3, 0⟩
def F.ZVL_DISC_WHERE_OBJECT : Field := ⟨0x40004058, 29, 16⟩
def F.ZVL_DISC_WHERE_ROUTE : Field := ⟨0x40004058, 15, 0⟩
def F.ZVL_DISC_COUNT_COUNT : Field := ⟨0x4000405C, 31, 0⟩
def F.ZVL_RESTRICT_ALL : Field := ⟨0x40004060, 31, 31⟩
def F.ZVL_RESTRICT_OBJECTS : Field := ⟨0x40004060, 14, 0⟩
def F.ZVL_RESTRICT_AREA_LO_AREAS : Field := ⟨0x40004064, 31, 0⟩
def F.ZVL_RESTRICT_AREA_HI_AREAS : Field := ⟨0x40004068, 31, 0⟩
def F.ZVL_FAULT_CAUSE : Field := ⟨0x4000406C, 3, 0⟩

/-! ### Fields of VOT -/
def F.VOT_CTRL_INJECT : Field := ⟨0x40005008, 1, 0⟩
def F.VOT_STATUS_PROBATION : Field := ⟨0x4000500C, 3, 3⟩
def F.VOT_STATUS_JOINING : Field := ⟨0x4000500C, 2, 2⟩
def F.VOT_STATUS_EXCLUDED : Field := ⟨0x4000500C, 1, 1⟩
def F.VOT_STATUS_SERVING : Field := ⟨0x4000500C, 0, 0⟩
def F.VOT_LANE_LANE : Field := ⟨0x40005040, 1, 0⟩
def F.VOT_SERVING_JOINING : Field := ⟨0x40005044, 10, 8⟩
def F.VOT_SERVING_EXCLUDED : Field := ⟨0x40005044, 6, 4⟩
def F.VOT_SERVING_SERVING : Field := ⟨0x40005044, 2, 0⟩
def F.VOT_OUT_SIG_LO_SIG : Field := ⟨0x40005048, 31, 0⟩
def F.VOT_OUT_SIG_HI_SIG : Field := ⟨0x4000504C, 31, 0⟩
def F.VOT_PRESS_SIG_LO_SIG : Field := ⟨0x40005050, 31, 0⟩
def F.VOT_PRESS_SIG_HI_SIG : Field := ⟨0x40005054, 31, 0⟩
def F.VOT_IMAGE_SIG_LO_SIG : Field := ⟨0x40005058, 31, 0⟩
def F.VOT_IMAGE_SIG_HI_SIG : Field := ⟨0x4000505C, 31, 0⟩
def F.VOT_VERDICT_RELAYED : Field := ⟨0x40005060, 18, 16⟩
def F.VOT_VERDICT_WINDOW : Field := ⟨0x40005060, 13, 12⟩
def F.VOT_VERDICT_VERDICT_C : Field := ⟨0x40005060, 10, 8⟩
def F.VOT_VERDICT_VERDICT_B : Field := ⟨0x40005060, 6, 4⟩
def F.VOT_VERDICT_VERDICT_A : Field := ⟨0x40005060, 2, 0⟩
def F.VOT_MISMATCH_WINDOW : Field := ⟨0x40005064, 31, 28⟩
def F.VOT_MISMATCH_BASIC : Field := ⟨0x40005064, 27, 24⟩
def F.VOT_MISMATCH_MISSING : Field := ⟨0x40005064, 6, 4⟩
def F.VOT_MISMATCH_DIFFERING : Field := ⟨0x40005064, 2, 0⟩
def F.VOT_MISMATCH_CLUSTER_CLUSTER : Field := ⟨0x40005068, 31, 0⟩
def F.VOT_COMPARES_COUNT : Field := ⟨0x4000506C, 31, 0⟩
def F.VOT_MISMATCHES_COUNT : Field := ⟨0x40005070, 31, 0⟩
def F.VOT_LINK_RELAY_USED : Field := ⟨0x40005074, 10, 8⟩
def F.VOT_LINK_UP : Field := ⟨0x40005074, 2, 0⟩
def F.VOT_LINK_ERRORS_LOST : Field := ⟨0x40005078, 31, 16⟩
def F.VOT_LINK_ERRORS_RETRIES : Field := ⟨0x40005078, 15, 0⟩
def F.VOT_EXCLUSION_COUNT : Field := ⟨0x4000507C, 31, 16⟩
def F.VOT_EXCLUSION_LANE : Field := ⟨0x4000507C, 9, 8⟩
def F.VOT_EXCLUSION_CAUSE : Field := ⟨0x4000507C, 3, 0⟩
def F.VOT_WT_SCAN_FAULT : Field := ⟨0x40005080, 31, 31⟩
def F.VOT_WT_SCAN_PASSES : Field := ⟨0x40005080, 30, 18⟩
def F.VOT_WT_SCAN_POSITION : Field := ⟨0x40005080, 17, 0⟩

/-! ### Fields of RED -/
def F.RED_STATUS_DARN_BARRED : Field := ⟨0x4000A00C, 3, 3⟩
def F.RED_STATUS_REPLACE : Field := ⟨0x4000A00C, 2, 2⟩
def F.RED_STATUS_DARN_ACTIVE : Field := ⟨0x4000A00C, 1, 1⟩
def F.RED_STATUS_DEGRADED : Field := ⟨0x4000A00C, 0, 0⟩
def F.RED_DEGRADED_LIMIT_HOURS : Field := ⟨0x4000A040, 7, 0⟩
def F.RED_DEGRADED_ELAPSED_SECONDS : Field := ⟨0x4000A044, 19, 0⟩
def F.RED_DEGRADED_REMAIN_SECONDS : Field := ⟨0x4000A048, 19, 0⟩
def F.RED_DARN_CFG_AUTO : Field := ⟨0x4000A04C, 15, 15⟩
def F.RED_DARN_CFG_DELAY : Field := ⟨0x4000A04C, 7, 0⟩
def F.RED_DARN_CTRL_ABORT : Field := ⟨0x4000A050, 1, 1⟩
def F.RED_DARN_CTRL_START : Field := ⟨0x4000A050, 0, 0⟩
def F.RED_DARN_STATUS_FAIL_STEP : Field := ⟨0x4000A054, 19, 16⟩
def F.RED_DARN_STATUS_RESULT : Field := ⟨0x4000A054, 15, 12⟩
def F.RED_DARN_STATUS_ATTEMPTS : Field := ⟨0x4000A054, 9, 8⟩
def F.RED_DARN_STATUS_LANE : Field := ⟨0x4000A054, 5, 4⟩
def F.RED_DARN_STATUS_STEP : Field := ⟨0x4000A054, 3, 0⟩
def F.RED_LANE_HISTORY_C : Field := ⟨0x4000A058, 23, 16⟩
def F.RED_LANE_HISTORY_B : Field := ⟨0x4000A058, 15, 8⟩
def F.RED_LANE_HISTORY_A : Field := ⟨0x4000A058, 7, 0⟩
def F.RED_REPLACE_CAUSE : Field := ⟨0x4000A05C, 11, 8⟩
def F.RED_REPLACE_LANE : Field := ⟨0x4000A05C, 5, 4⟩
def F.RED_REPLACE_REQUEST : Field := ⟨0x4000A05C, 0, 0⟩
def F.RED_EPOCH_EPOCH : Field := ⟨0x4000A060, 15, 0⟩
def F.RED_EXCL_CLUSTER_LO_CLUSTER : Field := ⟨0x4000A064, 31, 0⟩

/-! ### Fields of PHB -/
def F.PHB_STATUS_FILLING : Field := ⟨0x4001000C, 2, 2⟩
def F.PHB_STATUS_ALIGNED : Field := ⟨0x4001000C, 1, 1⟩
def F.PHB_STATUS_RUNNING : Field := ⟨0x4001000C, 0, 0⟩
def F.PHB_LANES_FILLED : Field := ⟨0x40010040, 6, 4⟩
def F.PHB_LANES_TAKEN : Field := ⟨0x40010040, 2, 0⟩
def F.PHB_MARK_SKEW_MAX_NS : Field := ⟨0x40010044, 31, 16⟩
def F.PHB_MARK_SKEW_LAST_NS : Field := ⟨0x40010044, 15, 0⟩
def F.PHB_PRESENTED_COUNT : Field := ⟨0x40010048, 31, 0⟩
def F.PHB_PAYLOAD_DIFF_THREE_WAY : Field := ⟨0x4001004C, 31, 16⟩
def F.PHB_PAYLOAD_DIFF_ONE_OFF : Field := ⟨0x4001004C, 15, 0⟩
def F.PHB_LATE_PAYLOAD_LANES : Field := ⟨0x40010050, 18, 16⟩
def F.PHB_LATE_PAYLOAD_COUNT : Field := ⟨0x40010050, 15, 0⟩
def F.PHB_LINKS_WEST_UP : Field := ⟨0x40010054, 31, 16⟩
def F.PHB_LINKS_EAST_UP : Field := ⟨0x40010054, 15, 0⟩
def F.PHB_PORTS_COMMANDING : Field := ⟨0x40010058, 31, 16⟩
def F.PHB_PORTS_RUNNING : Field := ⟨0x40010058, 15, 0⟩
def F.PHB_CLUSTER_LO_CLUSTER : Field := ⟨0x4001005C, 31, 0⟩

/-! ### Fields of TTP -/
def F.TTP_STATUS_ANNOUNCING (p : Nat) : Field := ⟨ttpBase p + 0xC, 4, 4⟩
def F.TTP_STATUS_WEST_UP (p : Nat) : Field := ⟨ttpBase p + 0xC, 3, 3⟩
def F.TTP_STATUS_EAST_UP (p : Nat) : Field := ⟨ttpBase p + 0xC, 2, 2⟩
def F.TTP_STATUS_COMMANDING (p : Nat) : Field := ⟨ttpBase p + 0xC, 1, 1⟩
def F.TTP_STATUS_RUNNING (p : Nat) : Field := ⟨ttpBase p + 0xC, 0, 0⟩
def F.TTP_PORT_CFG_JOIN_OPEN (p : Nat) : Field := ⟨ttpBase p + 0x40, 0, 0⟩
def F.TTP_ARB_CFG_DIAG_SHARE (p : Nat) : Field := ⟨ttpBase p + 0x44, 7, 0⟩
def F.TTP_SCHED_REQ_GO (p : Nat) : Field := ⟨ttpBase p + 0x48, 3, 3⟩
def F.TTP_SCHED_REQ_SCHED (p : Nat) : Field := ⟨ttpBase p + 0x48, 2, 0⟩
def F.TTP_SCHED_STATE (p : Nat) : Field := ⟨ttpBase p + 0x4C, 31, 28⟩
def F.TTP_SCHED_NEXT (p : Nat) : Field := ⟨ttpBase p + 0x4C, 10, 8⟩
def F.TTP_SCHED_ACTIVE (p : Nat) : Field := ⟨ttpBase p + 0x4C, 2, 0⟩
def F.TTP_SCHED_TARGET_CLUSTER (p : Nat) : Field := ⟨ttpBase p + 0x50, 31, 0⟩
def F.TTP_NACK_LO_NODES (p : Nat) : Field := ⟨ttpBase p + 0x54, 31, 0⟩
def F.TTP_NACK_HI_NODES (p : Nat) : Field := ⟨ttpBase p + 0x58, 31, 0⟩
def F.TTP_JOINED_LO_NODES (p : Nat) : Field := ⟨ttpBase p + 0x5C, 31, 0⟩
def F.TTP_JOINED_HI_NODES (p : Nat) : Field := ⟨ttpBase p + 0x60, 31, 0⟩
def F.TTP_LOST_LO_NODES (p : Nat) : Field := ⟨ttpBase p + 0x64, 31, 0⟩
def F.TTP_LOST_HI_NODES (p : Nat) : Field := ⟨ttpBase p + 0x68, 31, 0⟩
def F.TTP_NODE_CTRL_LEAVE (p : Nat) : Field := ⟨ttpBase p + 0x6C, 7, 7⟩
def F.TTP_NODE_CTRL_NODE (p : Nat) : Field := ⟨ttpBase p + 0x6C, 6, 0⟩
def F.TTP_NODE_SEL_NODE (p : Nat) : Field := ⟨ttpBase p + 0x70, 6, 0⟩
def F.TTP_NODE_STATUS_STATE (p : Nat) : Field := ⟨ttpBase p + 0x74, 31, 28⟩
def F.TTP_NODE_STATUS_LOST_COUNT (p : Nat) : Field := ⟨ttpBase p + 0x74, 23, 16⟩
def F.TTP_NODE_STATUS_RESTORE (p : Nat) : Field := ⟨ttpBase p + 0x74, 15, 8⟩
def F.TTP_NODE_STATUS_NODE_STATE (p : Nat) : Field := ⟨ttpBase p + 0x74, 7, 4⟩
def F.TTP_NODE_STATUS_JOIN_RESULT (p : Nat) : Field := ⟨ttpBase p + 0x74, 3, 0⟩
def F.TTP_RING_LATENCY_LIMIT_NS (p : Nat) : Field := ⟨ttpBase p + 0x78, 31, 16⟩
def F.TTP_RING_LATENCY_MEASURED_NS (p : Nat) : Field := ⟨ttpBase p + 0x78, 15, 0⟩
def F.TTP_RX_FRAMES_COUNT (p : Nat) : Field := ⟨ttpBase p + 0x7C, 31, 0⟩
def F.TTP_RX_CRC_WEST (p : Nat) : Field := ⟨ttpBase p + 0x80, 31, 16⟩
def F.TTP_RX_CRC_EAST (p : Nat) : Field := ⟨ttpBase p + 0x80, 15, 0⟩
def F.TTP_RX_DISCARD_IMAGE (p : Nat) : Field := ⟨ttpBase p + 0x84, 31, 24⟩
def F.TTP_RX_DISCARD_EPOCH (p : Nat) : Field := ⟨ttpBase p + 0x84, 23, 16⟩
def F.TTP_RX_DISCARD_MALFORMED (p : Nat) : Field := ⟨ttpBase p + 0x84, 15, 8⟩
def F.TTP_RX_DISCARD_SEQUENCE (p : Nat) : Field := ⟨ttpBase p + 0x84, 7, 0⟩
def F.TTP_LOST_WINDOWS_COUNT (p : Nat) : Field := ⟨ttpBase p + 0x88, 31, 0⟩
def F.TTP_COPY_MISMATCH_COUNT (p : Nat) : Field := ⟨ttpBase p + 0x8C, 31, 0⟩
def F.TTP_ARB_GRANTED (p : Nat) : Field := ⟨ttpBase p + 0x90, 31, 16⟩
def F.TTP_ARB_DEMAND (p : Nat) : Field := ⟨ttpBase p + 0x90, 15, 0⟩
def F.TTP_LAST_DISCARD_REASON (p : Nat) : Field := ⟨ttpBase p + 0x94, 31, 28⟩
def F.TTP_LAST_DISCARD_TYPE (p : Nat) : Field := ⟨ttpBase p + 0x94, 27, 24⟩
def F.TTP_LAST_DISCARD_SOURCE (p : Nat) : Field := ⟨ttpBase p + 0x94, 10, 0⟩
def F.TTP_CONFIG_NODE_COUNT (p : Nat) : Field := ⟨ttpBase p + 0x98, 31, 24⟩
def F.TTP_CONFIG_LOSS_LIMIT (p : Nat) : Field := ⟨ttpBase p + 0x98, 23, 16⟩
def F.TTP_CONFIG_RESTORE_COUNT (p : Nat) : Field := ⟨ttpBase p + 0x98, 15, 8⟩
def F.TTP_CONFIG_BASIC_CYCLE (p : Nat) : Field := ⟨ttpBase p + 0x98, 7, 4⟩
def F.TTP_CONFIG_MODE (p : Nat) : Field := ⟨ttpBase p + 0x98, 3, 0⟩

/-! ### Fields of STG -/
def F.STG_STATUS_QUARANTINE : Field := ⟨0x4002000C, 2, 2⟩
def F.STG_STATUS_SPLIT : Field := ⟨0x4002000C, 1, 1⟩
def F.STG_STATUS_GUARDING : Field := ⟨0x4002000C, 0, 0⟩
def F.STG_HEMn_HEM_NS (n : Nat) : Field := ⟨0x40020040 + n * 0x4, 12, 0⟩
def F.STG_QUAR_CFG_HOLD : Field := ⟨0x40020080, 15, 0⟩
def F.STG_QUAR_RELEASE_NODE : Field := ⟨0x40020084, 10, 0⟩
def F.STG_SEL_PORT : Field := ⟨0x40020088, 3, 0⟩
def F.STG_RING_SPLIT : Field := ⟨0x4002008C, 31, 16⟩
def F.STG_RING_HEALING : Field := ⟨0x4002008C, 15, 0⟩
def F.STG_CUTS_OFF_EDGE : Field := ⟨0x40020090, 31, 16⟩
def F.STG_CUTS_CUTS : Field := ⟨0x40020090, 15, 0⟩
def F.STG_LAST_CUT_REASON : Field := ⟨0x40020094, 31, 28⟩
def F.STG_LAST_CUT_PORT : Field := ⟨0x40020094, 27, 24⟩
def F.STG_LAST_CUT_UNATTRIBUTED : Field := ⟨0x40020094, 11, 11⟩
def F.STG_LAST_CUT_NODE : Field := ⟨0x40020094, 10, 0⟩
def F.STG_LAST_CUT_ERR_ERR_NS : Field := ⟨0x40020098, 31, 0⟩
def F.STG_UNATTRIBUTED_COUNT : Field := ⟨0x4002009C, 31, 0⟩
def F.STG_QUAR_LO_NODES : Field := ⟨0x400200A0, 31, 0⟩
def F.STG_QUAR_HI_NODES : Field := ⟨0x400200A4, 31, 0⟩
def F.STG_WORST_ERR_ERR_NS : Field := ⟨0x400200A8, 31, 16⟩
def F.STG_WORST_ERR_NODE : Field := ⟨0x400200A8, 6, 0⟩
def F.STG_HEALS_RESTORES : Field := ⟨0x400200AC, 31, 16⟩
def F.STG_HEALS_SPLITS : Field := ⟨0x400200AC, 15, 0⟩
def F.STG_PROBE_RESULT : Field := ⟨0x400200B0, 31, 28⟩
def F.STG_PROBE_PORT : Field := ⟨0x400200B0, 27, 24⟩
def F.STG_PROBE_NODE : Field := ⟨0x400200B0, 22, 16⟩
def F.STG_PROBE_ROUND_TRIP : Field := ⟨0x400200B0, 15, 0⟩
def F.STG_POLL_WEST_LO_NODES : Field := ⟨0x400200B4, 31, 0⟩
def F.STG_POLL_WEST_HI_NODES : Field := ⟨0x400200B8, 31, 0⟩

/-! ### Fields of TSU -/
def F.TSU_STATUS_STEP_ALLOWED : Field := ⟨0x4000200C, 4, 4⟩
def F.TSU_STATUS_FED_TIME_VALID : Field := ⟨0x4000200C, 3, 3⟩
def F.TSU_STATUS_HOLDOVER : Field := ⟨0x4000200C, 2, 2⟩
def F.TSU_STATUS_LANE_ALIGNED : Field := ⟨0x4000200C, 1, 1⟩
def F.TSU_STATUS_RUNNING : Field := ⟨0x4000200C, 0, 0⟩
def F.TSU_COUNT_LO_COUNT : Field := ⟨0x40002040, 31, 0⟩
def F.TSU_COUNT_HI_COUNT : Field := ⟨0x40002044, 31, 0⟩
def F.TSU_TIME_LO_TIME : Field := ⟨0x40002048, 31, 0⟩
def F.TSU_TIME_HI_TIME : Field := ⟨0x4000204C, 31, 0⟩
def F.TSU_BASE_LO_BASE : Field := ⟨0x40002050, 31, 0⟩
def F.TSU_BASE_HI_BASE : Field := ⟨0x40002054, 31, 0⟩
def F.TSU_CREF_LO_CREF : Field := ⟨0x40002058, 31, 0⟩
def F.TSU_CREF_HI_CREF : Field := ⟨0x4000205C, 31, 0⟩
def F.TSU_RATE_FRAC_FRAC : Field := ⟨0x40002060, 31, 0⟩
def F.TSU_RATE_INT_INT : Field := ⟨0x40002064, 31, 0⟩
def F.TSU_ORIGIN_LO_ORIGIN : Field := ⟨0x40002068, 31, 0⟩
def F.TSU_ORIGIN_HI_ORIGIN : Field := ⟨0x4000206C, 31, 0⟩
def F.TSU_LANE_THETA_THETA_NEXT : Field := ⟨0x40002070, 31, 16⟩
def F.TSU_LANE_THETA_THETA_PREV : Field := ⟨0x40002070, 15, 0⟩
def F.TSU_LANE_ERR_MAX_ABS : Field := ⟨0x40002074, 31, 16⟩
def F.TSU_LANE_ERR_ERR : Field := ⟨0x40002074, 15, 0⟩
def F.TSU_SERVO_CFG_KI_P : Field := ⟨0x40002078, 27, 24⟩
def F.TSU_SERVO_CFG_KP_P : Field := ⟨0x40002078, 19, 16⟩
def F.TSU_SERVO_CFG_KI_L : Field := ⟨0x40002078, 11, 8⟩
def F.TSU_SERVO_CFG_KP_L : Field := ⟨0x40002078, 3, 0⟩
def F.TSU_SLEW_CFG_SLEW_PPM : Field := ⟨0x4000207C, 7, 0⟩
def F.TSU_PTP_CFG_ENABLE : Field := ⟨0x40002080, 31, 31⟩
def F.TSU_PTP_CFG_MASTER_OK : Field := ⟨0x40002080, 30, 30⟩
def F.TSU_PTP_CFG_NETS : Field := ⟨0x40002080, 29, 28⟩
def F.TSU_PTP_CFG_DOMAIN : Field := ⟨0x40002080, 27, 20⟩
def F.TSU_PTP_CFG_RECEIPT_TIMEOUT : Field := ⟨0x40002080, 19, 12⟩
def F.TSU_PTP_CFG_DELAY_LOG : Field := ⟨0x40002080, 11, 8⟩
def F.TSU_PTP_CFG_ANNOUNCE_LOG : Field := ⟨0x40002080, 7, 4⟩
def F.TSU_PTP_CFG_SYNC_LOG : Field := ⟨0x40002080, 3, 0⟩
def F.TSU_PTP_PRIO_PRIORITY1 : Field := ⟨0x40002084, 15, 8⟩
def F.TSU_PTP_PRIO_PRIORITY2 : Field := ⟨0x40002084, 7, 0⟩
def F.TSU_HOLDOVER_CFG_MAX_S : Field := ⟨0x40002088, 8, 0⟩
def F.TSU_PTP_STATE : Field := ⟨0x4000208C, 31, 28⟩
def F.TSU_PTP_NET : Field := ⟨0x4000208C, 25, 24⟩
def F.TSU_PTP_OUTLIERS : Field := ⟨0x4000208C, 23, 16⟩
def F.TSU_PTP_IN_RANGE : Field := ⟨0x4000208C, 15, 8⟩
def F.TSU_PTP_MASTER_B : Field := ⟨0x4000208C, 1, 1⟩
def F.TSU_PTP_MASTER_A : Field := ⟨0x4000208C, 0, 0⟩
def F.TSU_PTP_OFFSET_OFFSET_NS : Field := ⟨0x40002090, 31, 0⟩
def F.TSU_PTP_DELAY_DELAY_NS : Field := ⟨0x40002094, 31, 0⟩
def F.TSU_HOLDOVER_BOUND_NS : Field := ⟨0x40002098, 31, 16⟩
def F.TSU_HOLDOVER_ELAPSED_S : Field := ⟨0x40002098, 15, 0⟩
def F.TSU_GM_ID_LO_CLOCK_ID : Field := ⟨0x4000209C, 31, 0⟩
def F.TSU_GM_ID_HI_CLOCK_ID : Field := ⟨0x400020A0, 31, 0⟩
def F.TSU_PAIR_OFFSET_OFFSET_NS : Field := ⟨0x400020A4, 31, 0⟩
def F.TSU_STEPS_COUNT : Field := ⟨0x400020A8, 15, 0⟩

/-! ### Fields of FED -/
def F.FED_STATUS_UNALIGNED : Field := ⟨0x4000C00C, 2, 2⟩
def F.FED_STATUS_SINGLE : Field := ⟨0x4000C00C, 1, 1⟩
def F.FED_STATUS_ACTIVE : Field := ⟨0x4000C00C, 0, 0⟩
def F.FED_CFG_ETHERTYPE : Field := ⟨0x4000C040, 31, 16⟩
def F.FED_CFG_MAX_AGE : Field := ⟨0x4000C040, 15, 8⟩
def F.FED_CFG_LOSS_LIMIT : Field := ⟨0x4000C040, 7, 4⟩
def F.FED_CFG_ENABLE : Field := ⟨0x4000C040, 0, 0⟩
def F.FED_WINDOW_ACCEPT_US : Field := ⟨0x4000C044, 7, 0⟩
def F.FED_START_CFG_LISTEN_S : Field := ⟨0x4000C048, 15, 8⟩
def F.FED_START_CFG_START_WAIT_S : Field := ⟨0x4000C048, 7, 0⟩
def F.FED_STATE_START : Field := ⟨0x4000C04C, 31, 28⟩
def F.FED_STATE_MODULE : Field := ⟨0x4000C04C, 27, 24⟩
def F.FED_STATE_HEARD : Field := ⟨0x4000C04C, 15, 0⟩
def F.FED_NETS_EXPIRED : Field := ⟨0x4000C050, 3, 3⟩
def F.FED_NETS_SINGLE : Field := ⟨0x4000C050, 2, 2⟩
def F.FED_NETS_B_UP : Field := ⟨0x4000C050, 1, 1⟩
def F.FED_NETS_A_UP : Field := ⟨0x4000C050, 0, 0⟩
def F.FED_SINGLE_ELAPSED_SECONDS : Field := ⟨0x4000C054, 19, 0⟩
def F.FED_SOURCES_LOST : Field := ⟨0x4000C058, 31, 16⟩
def F.FED_SOURCES_IN_COMM : Field := ⟨0x4000C058, 15, 0⟩
def F.FED_RX_ACCEPTED_COUNT : Field := ⟨0x4000C05C, 31, 0⟩
def F.FED_RX_DISCARD_CODE : Field := ⟨0x4000C060, 31, 24⟩
def F.FED_RX_DISCARD_EPOCH : Field := ⟨0x4000C060, 23, 16⟩
def F.FED_RX_DISCARD_AGE : Field := ⟨0x4000C060, 15, 8⟩
def F.FED_RX_DISCARD_OTHER : Field := ⟨0x4000C060, 7, 0⟩
def F.FED_COPY_MISMATCH_COUNT : Field := ⟨0x4000C064, 31, 0⟩
def F.FED_LAST_DISCARD_REASON : Field := ⟨0x4000C068, 31, 28⟩
def F.FED_LAST_DISCARD_SOURCE : Field := ⟨0x4000C068, 27, 24⟩
def F.FED_LAST_DISCARD_TYPE : Field := ⟨0x4000C068, 23, 16⟩
def F.FED_LAST_DISCARD_NET : Field := ⟨0x4000C068, 1, 0⟩
def F.FED_DUPLICATE_MODULES : Field := ⟨0x4000C06C, 15, 0⟩
def F.FED_SEL_SOURCE : Field := ⟨0x4000C070, 3, 0⟩
def F.FED_SOURCE_STATUS_COMM : Field := ⟨0x4000C074, 31, 28⟩
def F.FED_SOURCE_STATUS_MODE : Field := ⟨0x4000C074, 27, 24⟩
def F.FED_SOURCE_STATUS_ROLE : Field := ⟨0x4000C074, 18, 16⟩
def F.FED_SOURCE_STATUS_EPOCH : Field := ⟨0x4000C074, 15, 0⟩

/-! ### Fields of SDB -/
def F.SDB_STATUS_GATING : Field := ⟨0x4000B00C, 2, 2⟩
def F.SDB_STATUS_STALE : Field := ⟨0x4000B00C, 1, 1⟩
def F.SDB_STATUS_CURRENT : Field := ⟨0x4000B00C, 0, 0⟩
def F.SDB_ROLE_ROLE : Field := ⟨0x4000B040, 1, 0⟩
def F.SDB_CURRENT_CLUSTER : Field := ⟨0x4000B044, 31, 0⟩
def F.SDB_FULL_CLUSTER : Field := ⟨0x4000B048, 31, 0⟩
def F.SDB_LAST_INCR_BYTES : Field := ⟨0x4000B04C, 23, 0⟩
def F.SDB_ACK_HELD : Field := ⟨0x4000B050, 31, 16⟩
def F.SDB_ACK_ACK_US : Field := ⟨0x4000B050, 15, 0⟩
def F.SDB_ERRORS_SEAL : Field := ⟨0x4000B054, 31, 16⟩
def F.SDB_ERRORS_GAPS : Field := ⟨0x4000B054, 15, 0⟩

/-! ### Fields of RED -/
def F.RED_PAIR_CFG_PAIRED : Field := ⟨0x4000A100, 31, 31⟩
def F.RED_PAIR_CFG_UNIT : Field := ⟨0x4000A100, 30, 30⟩
def F.RED_PAIR_CFG_HANDBACK_HOLD : Field := ⟨0x4000A100, 29, 29⟩
def F.RED_PAIR_CFG_RETURN_HOLD : Field := ⟨0x4000A100, 15, 0⟩
def F.RED_PAIR_LIMIT_TAKEOVER_LIMIT : Field := ⟨0x4000A104, 15, 0⟩
def F.RED_PAIR_STATUS_PARTNER_MODE : Field := ⟨0x4000A108, 31, 28⟩
def F.RED_PAIR_STATUS_PARTNER_SEEN : Field := ⟨0x4000A108, 27, 27⟩
def F.RED_PAIR_STATUS_ACTIVE : Field := ⟨0x4000A108, 26, 26⟩
def F.RED_PAIR_STATUS_FIT : Field := ⟨0x4000A108, 25, 25⟩
def F.RED_PAIR_STATUS_LINK_UP : Field := ⟨0x4000A108, 24, 24⟩
def F.RED_PAIR_STATUS_UNFIT : Field := ⟨0x4000A108, 23, 16⟩
def F.RED_PAIR_STATUS_HOLD_ELAPSED : Field := ⟨0x4000A108, 15, 0⟩
def F.RED_HANDOVER_LAST : Field := ⟨0x4000A10C, 31, 28⟩
def F.RED_HANDOVER_EPOCH : Field := ⟨0x4000A10C, 15, 0⟩
def F.RED_HANDOVER_CLUSTER_CLUSTER : Field := ⟨0x4000A110, 31, 0⟩
def F.RED_PAIR_CTRL_HANDBACK_RELEASE : Field := ⟨0x4000A114, 0, 0⟩
def F.RED_STANDBY_BIST_LANE : Field := ⟨0x4000A118, 31, 30⟩
def F.RED_STANDBY_BIST_TESTING : Field := ⟨0x4000A118, 29, 29⟩
def F.RED_STANDBY_BIST_PASSES : Field := ⟨0x4000A118, 15, 0⟩

/-! ### Fields of SYS -/
def F.SYS_STATUS_HOLDUP_READY : Field := ⟨0x4000000C, 15, 15⟩
def F.SYS_STATUS_FEED_B : Field := ⟨0x4000000C, 14, 14⟩
def F.SYS_STATUS_FEED_A : Field := ⟨0x4000000C, 13, 13⟩
def F.SYS_STATUS_RESET_STUCK : Field := ⟨0x4000000C, 12, 12⟩
def F.SYS_STATUS_LIFECYCLE : Field := ⟨0x4000000C, 10, 8⟩
def F.SYS_STATUS_PREV_MODE : Field := ⟨0x4000000C, 7, 4⟩
def F.SYS_STATUS_MODE : Field := ⟨0x4000000C, 3, 0⟩
def F.SYS_MODE_REQ_REQUEST : Field := ⟨0x40000040, 31, 0⟩
def F.SYS_MODE_RESULT_TAG : Field := ⟨0x40000044, 31, 16⟩
def F.SYS_MODE_RESULT_KIND : Field := ⟨0x40000044, 15, 12⟩
def F.SYS_MODE_RESULT_RESULT : Field := ⟨0x40000044, 11, 8⟩
def F.SYS_MODE_RESULT_VALUE : Field := ⟨0x40000044, 3, 0⟩
def F.SYS_MODE_HIST_COUNT : Field := ⟨0x40000048, 31, 16⟩
def F.SYS_MODE_HIST_FROM : Field := ⟨0x40000048, 7, 4⟩
def F.SYS_MODE_HIST_TO : Field := ⟨0x40000048, 3, 0⟩
def F.SYS_HALT_MODE : Field := ⟨0x4000004C, 19, 16⟩
def F.SYS_HALT_CAUSE : Field := ⟨0x4000004C, 7, 0⟩
def F.SYS_HALT_CLUSTER_CLUSTER : Field := ⟨0x40000050, 31, 0⟩
def F.SYS_RESET_STUCK_COUNT : Field := ⟨0x40000054, 31, 24⟩
def F.SYS_RESET_COUNT : Field := ⟨0x40000054, 23, 16⟩
def F.SYS_RESET_REAR_STUCK : Field := ⟨0x40000054, 5, 5⟩
def F.SYS_RESET_FRONT_STUCK : Field := ⟨0x40000054, 4, 4⟩
def F.SYS_RESET_SOURCE : Field := ⟨0x40000054, 3, 0⟩
def F.SYS_FEEDS_FEED_B : Field := ⟨0x40000058, 31, 16⟩
def F.SYS_FEEDS_FEED_A : Field := ⟨0x40000058, 15, 0⟩
def F.SYS_HOLDUP_CAPACITY_MS : Field := ⟨0x4000005C, 31, 16⟩
def F.SYS_HOLDUP_CHARGE_PCT : Field := ⟨0x4000005C, 15, 8⟩
def F.SYS_HOLDUP_TESTING : Field := ⟨0x4000005C, 1, 1⟩
def F.SYS_HOLDUP_READY : Field := ⟨0x4000005C, 0, 0⟩
def F.SYS_VCORE_MAX_MV : Field := ⟨0x40000060, 29, 20⟩
def F.SYS_VCORE_MIN_MV : Field := ⟨0x40000060, 19, 10⟩
def F.SYS_VCORE_MV : Field := ⟨0x40000060, 9, 0⟩
def F.SYS_UPTIME_SECONDS : Field := ⟨0x40000064, 31, 0⟩
def F.SYS_SERIAL_LO_SERIAL : Field := ⟨0x40000068, 31, 0⟩
def F.SYS_SERIAL_HI_SERIAL : Field := ⟨0x4000006C, 31, 0⟩
def F.SYS_AUTH_CHALLENGEk_BYTES (n : Nat) : Field := ⟨0x40000070 + n * 0x4, 31, 0⟩

/-! ### Fields of CLK -/
def F.CLK_STATUS_MONITOR_OK : Field := ⟨0x4000100C, 2, 2⟩
def F.CLK_STATUS_BIST_CLOCK : Field := ⟨0x4000100C, 1, 1⟩
def F.CLK_STATUS_PLL_LOCKED : Field := ⟨0x4000100C, 0, 0⟩
def F.CLK_PLL_UNLOCKS : Field := ⟨0x40001040, 31, 16⟩
def F.CLK_PLL_LOCK_US : Field := ⟨0x40001040, 7, 0⟩
def F.CLK_DOMAINS_ZVL_OPEN : Field := ⟨0x40001044, 1, 1⟩
def F.CLK_DOMAINS_FAST_OPEN : Field := ⟨0x40001044, 0, 0⟩
def F.CLK_OPEN_TIME_ZVL_US : Field := ⟨0x40001048, 31, 16⟩
def F.CLK_OPEN_TIME_FAST_US : Field := ⟨0x40001048, 15, 0⟩
def F.CLK_WAKES_LATE : Field := ⟨0x4000104C, 31, 16⟩
def F.CLK_WAKES_UNSCHEDULED : Field := ⟨0x4000104C, 15, 0⟩
def F.CLK_MONITOR_TRIPS : Field := ⟨0x40001050, 31, 16⟩
def F.CLK_MONITOR_FAST_PPM : Field := ⟨0x40001050, 15, 0⟩

/-! ### Fields of BST -/
def F.BST_CTRL_DEVICE : Field := ⟨0x40009040, 7, 4⟩
def F.BST_CTRL_SCOPE : Field := ⟨0x40009040, 2, 1⟩
def F.BST_CTRL_START : Field := ⟨0x40009040, 0, 0⟩
def F.BST_STATUS_SESSION : Field := ⟨0x4000900C, 2, 2⟩
def F.BST_STATUS_ISOLATED : Field := ⟨0x4000900C, 1, 1⟩
def F.BST_STATUS_RUNNING : Field := ⟨0x4000900C, 0, 0⟩
def F.BST_RESULT_RESULT : Field := ⟨0x40009044, 31, 28⟩
def F.BST_RESULT_SOURCE : Field := ⟨0x40009044, 27, 24⟩
def F.BST_RESULT_DURATION_MS : Field := ⟨0x40009044, 15, 0⟩
def F.BST_MISR_LO_MISR : Field := ⟨0x40009048, 31, 0⟩
def F.BST_MISR_HI_MISR : Field := ⟨0x4000904C, 31, 0⟩
def F.BST_GOLDEN_LO_GOLDEN : Field := ⟨0x40009050, 31, 0⟩
def F.BST_GOLDEN_HI_GOLDEN : Field := ⟨0x40009054, 31, 0⟩
def F.BST_MEM_FAIL_COUNT : Field := ⟨0x40009058, 31, 24⟩
def F.BST_MEM_FAIL_WORD : Field := ⟨0x40009058, 19, 0⟩
def F.BST_LIMITS_V_VMAX_MV : Field := ⟨0x4000905C, 25, 16⟩
def F.BST_LIMITS_V_VMIN_MV : Field := ⟨0x4000905C, 9, 0⟩
def F.BST_LIMITS_F_FMAX : Field := ⟨0x40009060, 31, 16⟩
def F.BST_LIMITS_F_FMIN : Field := ⟨0x40009060, 15, 0⟩
def F.BST_RUNS_VOIDS : Field := ⟨0x40009064, 31, 16⟩
def F.BST_RUNS_RUNS : Field := ⟨0x40009064, 15, 0⟩

/-! ### Fields of HBR -/
def F.HBR_STATUS_KEY_SET : Field := ⟨0x5000000C, 2, 2⟩
def F.HBR_STATUS_CMD_BUSY : Field := ⟨0x5000000C, 1, 1⟩
def F.HBR_STATUS_LINK_UP : Field := ⟨0x5000000C, 0, 0⟩
def F.HBR_WIN_CFGn_ENABLE (n : Nat) : Field := ⟨0x50000040 + n * 0x10, 31, 31⟩
def F.HBR_WIN_CFGn_TARGET (n : Nat) : Field := ⟨0x50000040 + n * 0x10, 27, 24⟩
def F.HBR_WIN_CFGn_LANE (n : Nat) : Field := ⟨0x50000040 + n * 0x10, 21, 20⟩
def F.HBR_WIN_CFGn_ORDER (n : Nat) : Field := ⟨0x50000040 + n * 0x10, 18, 16⟩
def F.HBR_WIN_CFGn_WRITE_READ (n : Nat) : Field := ⟨0x50000040 + n * 0x10, 0, 0⟩
def F.HBR_WIN_BASE_LOn_BASE (n : Nat) : Field := ⟨0x50000044 + n * 0x10, 31, 25⟩
def F.HBR_WIN_BASE_HIn_BASE (n : Nat) : Field := ⟨0x50000048 + n * 0x10, 1, 0⟩
def F.HBR_WIN_DONEn_STATUS_WORD (n : Nat) : Field := ⟨0x500000C0 + n * 0x4, 31, 0⟩
def F.HBR_MODE_REQ_REQUEST : Field := ⟨0x500000E0, 31, 0⟩
def F.HBR_MODE_DONE_RESULT : Field := ⟨0x500000E4, 31, 0⟩
def F.HBR_CMD_CFG_MODE_WR : Field := ⟨0x500000E8, 8, 8⟩
def F.HBR_CMD_CFG_MBX_WR : Field := ⟨0x500000E8, 7, 0⟩
def F.HBR_AUTH_RESPk_RESPONSE (n : Nat) : Field := ⟨0x500000F0 + n * 0x4, 31, 0⟩
def F.HBR_KEYk_KEY (n : Nat) : Field := ⟨0x50000100 + n * 0x4, 31, 0⟩
def F.HBR_RD_ERR_CAUSE : Field := ⟨0x50000120, 31, 28⟩
def F.HBR_RD_ERR_BAR2 : Field := ⟨0x50000120, 27, 27⟩
def F.HBR_RD_ERR_COUNT : Field := ⟨0x50000120, 15, 0⟩
def F.HBR_WR_ERR_CAUSE : Field := ⟨0x50000128, 31, 28⟩
def F.HBR_WR_ERR_BAR2 : Field := ⟨0x50000128, 27, 27⟩
def F.HBR_WR_ERR_COUNT : Field := ⟨0x50000128, 15, 0⟩
def F.HBR_RD_ERR_ADDR_OFFSET : Field := ⟨0x50000124, 31, 0⟩
def F.HBR_WR_ERR_ADDR_OFFSET : Field := ⟨0x5000012C, 31, 0⟩
def F.HBR_PREFETCH_REFUSED_OFFSET : Field := ⟨0x50000130, 31, 16⟩
def F.HBR_PREFETCH_REFUSED_COUNT : Field := ⟨0x50000130, 15, 0⟩
def F.HBR_CMD_STATS_REFUSED : Field := ⟨0x50000134, 31, 16⟩
def F.HBR_CMD_STATS_ACCEPTED : Field := ⟨0x50000134, 15, 0⟩
def F.HBR_LINK_WIDTH : Field := ⟨0x50000138, 19, 16⟩
def F.HBR_LINK_SPEED : Field := ⟨0x50000138, 11, 8⟩
def F.HBR_LINK_DOWN_COUNT : Field := ⟨0x50000138, 7, 0⟩

/-! ### Fields of DMA -/
def F.DMA_STATUS_ACTIVE (u : Nat) : Field := ⟨u + 0xC, 0, 0⟩
def F.DMA_BUSY_DEFERRED (u : Nat) : Field := ⟨u + 0x40, 31, 16⟩
def F.DMA_BUSY_ACTIVE (u : Nat) : Field := ⟨u + 0x40, 15, 0⟩
def F.DMA_PREEMPTED_COUNT (u : Nat) : Field := ⟨u + 0x44, 31, 16⟩
def F.DMA_PREEMPTED_NOW (u : Nat) : Field := ⟨u + 0x44, 15, 0⟩
def F.DMA_KBYTES_KBYTES (u : Nat) : Field := ⟨u + 0x48, 31, 0⟩
def F.DMA_CHn_CTRL_ENABLE (u : Nat) (n : Nat) : Field := ⟨u + 0x400 + n * 0x40, 31, 31⟩
def F.DMA_CHn_CTRL_ABORT (u : Nat) (n : Nat) : Field := ⟨u + 0x400 + n * 0x40, 30, 30⟩
def F.DMA_CHn_CTRL_PRIORITY (u : Nat) (n : Nat) : Field := ⟨u + 0x400 + n * 0x40, 29, 28⟩
def F.DMA_CHn_CTRL_OP (u : Nat) (n : Nat) : Field := ⟨u + 0x400 + n * 0x40, 27, 26⟩
def F.DMA_CHn_CTRL_STOP_ON_DIFF (u : Nat) (n : Nat) : Field := ⟨u + 0x400 + n * 0x40, 25, 25⟩
def F.DMA_CHn_CTRL_EOC_INT (u : Nat) (n : Nat) : Field := ⟨u + 0x400 + n * 0x40, 24, 24⟩
def F.DMA_CHn_CTRL_SRC_SPACE (u : Nat) (n : Nat) : Field := ⟨u + 0x400 + n * 0x40, 23, 20⟩
def F.DMA_CHn_CTRL_DST_SPACE (u : Nat) (n : Nat) : Field := ⟨u + 0x400 + n * 0x40, 19, 16⟩
def F.DMA_CHn_CTRL_SNOOP (u : Nat) (n : Nat) : Field := ⟨u + 0x400 + n * 0x40, 15, 12⟩
def F.DMA_CHn_CTRL_LANES (u : Nat) (n : Nat) : Field := ⟨u + 0x400 + n * 0x40, 11, 9⟩
def F.DMA_CHn_STATUS_STATE (u : Nat) (n : Nat) : Field := ⟨u + 0x404 + n * 0x40, 31, 28⟩
def F.DMA_CHn_STATUS_DEFERRED (u : Nat) (n : Nat) : Field := ⟨u + 0x404 + n * 0x40, 27, 27⟩
def F.DMA_CHn_STATUS_DIFFER (u : Nat) (n : Nat) : Field := ⟨u + 0x404 + n * 0x40, 26, 26⟩
def F.DMA_CHn_STATUS_ERROR (u : Nat) (n : Nat) : Field := ⟨u + 0x404 + n * 0x40, 23, 16⟩
def F.DMA_CHn_STATUS_PREEMPTS (u : Nat) (n : Nat) : Field := ⟨u + 0x404 + n * 0x40, 15, 0⟩
def F.DMA_CHn_SRC_LO_SRC (u : Nat) (n : Nat) : Field := ⟨u + 0x408 + n * 0x40, 31, 0⟩
def F.DMA_CHn_SRC_HI_SRC (u : Nat) (n : Nat) : Field := ⟨u + 0x40C + n * 0x40, 31, 0⟩
def F.DMA_CHn_DST_LO_DST (u : Nat) (n : Nat) : Field := ⟨u + 0x410 + n * 0x40, 31, 0⟩
def F.DMA_CHn_DST_HI_DST (u : Nat) (n : Nat) : Field := ⟨u + 0x414 + n * 0x40, 31, 0⟩
def F.DMA_CHn_COUNT_COUNT (u : Nat) (n : Nat) : Field := ⟨u + 0x418 + n * 0x40, 31, 0⟩
def F.DMA_CHn_REMAIN_REMAIN (u : Nat) (n : Nat) : Field := ⟨u + 0x41C + n * 0x40, 31, 0⟩
def F.DMA_CHn_FILL_LO_FILL (u : Nat) (n : Nat) : Field := ⟨u + 0x420 + n * 0x40, 31, 0⟩
def F.DMA_CHn_FILL_HI_FILL (u : Nat) (n : Nat) : Field := ⟨u + 0x424 + n * 0x40, 31, 0⟩
def F.DMA_CHn_DIFF_OFFSET (u : Nat) (n : Nat) : Field := ⟨u + 0x428 + n * 0x40, 31, 0⟩
def F.DMA_CHn_DIFF_COUNT_COUNT (u : Nat) (n : Nat) : Field := ⟨u + 0x42C + n * 0x40, 31, 0⟩

/-! ### Fields of CRC -/
def F.CRC_STATUS_CHANNELS : Field := ⟨0x4000600C, 0, 0⟩
def F.CRC_SCANm_CTRL_START (n : Nat) : Field := ⟨0x40006040 + n * 0x40, 31, 31⟩
def F.CRC_SCANm_CTRL_PAUSE (n : Nat) : Field := ⟨0x40006040 + n * 0x40, 30, 30⟩
def F.CRC_SCANm_CTRL_CONTINUE (n : Nat) : Field := ⟨0x40006040 + n * 0x40, 29, 29⟩
def F.CRC_SCANm_CTRL_MODE (n : Nat) : Field := ⟨0x40006040 + n * 0x40, 27, 26⟩
def F.CRC_SCANm_STATUS_STATE (n : Nat) : Field := ⟨0x40006044 + n * 0x40, 31, 28⟩
def F.CRC_SCANm_STATUS_ERROR (n : Nat) : Field := ⟨0x40006044 + n * 0x40, 27, 24⟩
def F.CRC_SCANm_STATUS_BLOCK_FAILS (n : Nat) : Field := ⟨0x40006044 + n * 0x40, 15, 0⟩
def F.CRC_SCANm_ADDR_LO_ADDR (n : Nat) : Field := ⟨0x40006048 + n * 0x40, 31, 0⟩
def F.CRC_SCANm_ADDR_HI_ADDR (n : Nat) : Field := ⟨0x4000604C + n * 0x40, 31, 0⟩
def F.CRC_SCANm_LEN_LEN (n : Nat) : Field := ⟨0x40006050 + n * 0x40, 31, 0⟩
def F.CRC_SCANm_POS_POS (n : Nat) : Field := ⟨0x40006054 + n * 0x40, 31, 0⟩
def F.CRC_SCANm_RUNNING_LO_RUNNING (n : Nat) : Field := ⟨0x40006058 + n * 0x40, 31, 0⟩
def F.CRC_SCANm_RUNNING_HI_RUNNING (n : Nat) : Field := ⟨0x4000605C + n * 0x40, 31, 0⟩
def F.CRC_SCANm_RESULT_LO_RESULT (n : Nat) : Field := ⟨0x40006060 + n * 0x40, 31, 0⟩
def F.CRC_SCANm_RESULT_HI_RESULT (n : Nat) : Field := ⟨0x40006064 + n * 0x40, 31, 0⟩
def F.CRC_SCANm_SEAL_LO_SEAL (n : Nat) : Field := ⟨0x40006068 + n * 0x40, 31, 0⟩
def F.CRC_SCANm_SEAL_HI_SEAL (n : Nat) : Field := ⟨0x4000606C + n * 0x40, 31, 0⟩
def F.CRC_SCANm_BLOCK_FAIL_INDEX (n : Nat) : Field := ⟨0x40006070 + n * 0x40, 31, 0⟩
def F.CRC_SNOOP_CTRL_ALG : Field := ⟨0x400060C0, 27, 26⟩
def F.CRC_SNOOP_CTRL_INIT : Field := ⟨0x400060C0, 0, 0⟩
def F.CRC_SNOOP_COUNT_BYTES : Field := ⟨0x400060C4, 31, 0⟩
def F.CRC_SNOOP_RUNNING_LO_RUNNING : Field := ⟨0x400060C8, 31, 0⟩
def F.CRC_SNOOP_RUNNING_HI_RUNNING : Field := ⟨0x400060CC, 31, 0⟩
def F.CRC_SNOOP_RESULT_LO_RESULT : Field := ⟨0x400060D0, 31, 0⟩
def F.CRC_SNOOP_RESULT_HI_RESULT : Field := ⟨0x400060D4, 31, 0⟩
def F.CRC_PORT_SNOOP_PORT : Field := ⟨0x400060E0, 27, 24⟩
def F.CRC_PORT_SNOOP_FAILS : Field := ⟨0x400060E0, 23, 0⟩
def F.CRC_CHk_CTRL_ENABLE (n : Nat) : Field := ⟨0x40006200 + n * 0x20, 31, 31⟩
def F.CRC_CHk_CTRL_ALG (n : Nat) : Field := ⟨0x40006200 + n * 0x20, 27, 26⟩
def F.CRC_CHk_CTRL_CONTINUE (n : Nat) : Field := ⟨0x40006200 + n * 0x20, 25, 25⟩
def F.CRC_CHk_CTRL_SOURCE (n : Nat) : Field := ⟨0x40006200 + n * 0x20, 23, 20⟩
def F.CRC_CHk_CTRL_DONE (n : Nat) : Field := ⟨0x40006200 + n * 0x20, 0, 0⟩
def F.CRC_CHk_START_LO_START (n : Nat) : Field := ⟨0x40006204 + n * 0x20, 31, 0⟩
def F.CRC_CHk_START_HI_START (n : Nat) : Field := ⟨0x40006208 + n * 0x20, 31, 0⟩
def F.CRC_CHk_LEN_LEN (n : Nat) : Field := ⟨0x4000620C + n * 0x20, 31, 0⟩
def F.CRC_CHk_RUNNING_LO_RUNNING (n : Nat) : Field := ⟨0x40006210 + n * 0x20, 31, 0⟩
def F.CRC_CHk_RUNNING_HI_RUNNING (n : Nat) : Field := ⟨0x40006214 + n * 0x20, 31, 0⟩
def F.CRC_CHk_RESULT_LO_RESULT (n : Nat) : Field := ⟨0x40006218 + n * 0x20, 31, 0⟩
def F.CRC_CHk_RESULT_HI_RESULT (n : Nat) : Field := ⟨0x4000621C + n * 0x20, 31, 0⟩

/-! ### Fields of DIO -/
def F.DIO_STATUS_FAULT : Field := ⟨0x4000D00C, 2, 2⟩
def F.DIO_STATUS_SUPPLY : Field := ⟨0x4000D00C, 1, 1⟩
def F.DIO_STATUS_DRIVING : Field := ⟨0x4000D00C, 0, 0⟩
def F.DIO_TYPE_LO_TYPE3 : Field := ⟨0x4000D040, 31, 0⟩
def F.DIO_TYPE_HI_TYPE3 : Field := ⟨0x4000D044, 31, 0⟩
def F.DIO_IN_LO_LEVEL : Field := ⟨0x4000D048, 31, 0⟩
def F.DIO_IN_HI_LEVEL : Field := ⟨0x4000D04C, 31, 0⟩
def F.DIO_OUT_LO_WORD : Field := ⟨0x4000D050, 31, 0⟩
def F.DIO_OUT_HI_WORD : Field := ⟨0x4000D054, 31, 0⟩
def F.DIO_READBACK_LO_LEVEL : Field := ⟨0x4000D058, 31, 0⟩
def F.DIO_READBACK_HI_LEVEL : Field := ⟨0x4000D05C, 31, 0⟩
def F.DIO_DIR_LO_OUTPUT : Field := ⟨0x4000D060, 31, 0⟩
def F.DIO_DIR_HI_OUTPUT : Field := ⟨0x4000D064, 31, 0⟩
def F.DIO_DEFER_LO_DEFERRED : Field := ⟨0x4000D068, 31, 0⟩
def F.DIO_DEFER_HI_DEFERRED : Field := ⟨0x4000D06C, 31, 0⟩
def F.DIO_FAULT_LO_FORCED : Field := ⟨0x4000D070, 31, 0⟩
def F.DIO_FAULT_HI_FORCED : Field := ⟨0x4000D074, 31, 0⟩
def F.DIO_SUPPLY_L3 : Field := ⟨0x4000D078, 31, 24⟩
def F.DIO_SUPPLY_L2 : Field := ⟨0x4000D078, 23, 16⟩
def F.DIO_SUPPLY_L1 : Field := ⟨0x4000D078, 15, 8⟩
def F.DIO_SUPPLY_L0 : Field := ⟨0x4000D078, 7, 0⟩
def F.DIO_SUPPLY_STATE_STATE : Field := ⟨0x4000D07C, 7, 0⟩
def F.DIO_SEL_CHANNEL : Field := ⟨0x4000D080, 5, 0⟩
def F.DIO_CH_STATUS_ROLE : Field := ⟨0x4000D084, 31, 30⟩
def F.DIO_CH_STATUS_TYPE3 : Field := ⟨0x4000D084, 29, 29⟩
def F.DIO_CH_STATUS_DEMAG : Field := ⟨0x4000D084, 28, 28⟩
def F.DIO_CH_STATUS_DEFERRED : Field := ⟨0x4000D084, 27, 27⟩
def F.DIO_CH_STATUS_OVERLOAD : Field := ⟨0x4000D084, 26, 26⟩
def F.DIO_CH_STATUS_SWITCH_FAULT : Field := ⟨0x4000D084, 25, 25⟩
def F.DIO_CH_STATUS_STUCK_OPEN : Field := ⟨0x4000D084, 24, 24⟩
def F.DIO_CH_STATUS_READBACK : Field := ⟨0x4000D084, 23, 23⟩
def F.DIO_CH_STATUS_SWITCH_OK : Field := ⟨0x4000D084, 13, 8⟩
def F.DIO_CH_STATUS_CURRENT : Field := ⟨0x4000D084, 7, 0⟩
def F.DIO_PULSE_FAILS : Field := ⟨0x4000D088, 31, 16⟩
def F.DIO_PULSE_TESTS : Field := ⟨0x4000D088, 15, 0⟩
def F.DIO_IN_DISAGREE_LANE : Field := ⟨0x4000D08C, 31, 30⟩
def F.DIO_IN_DISAGREE_CHANNEL : Field := ⟨0x4000D08C, 29, 24⟩
def F.DIO_IN_DISAGREE_COUNT : Field := ⟨0x4000D08C, 15, 0⟩
def F.DIO_PARTICIPATION_SENSED : Field := ⟨0x4000D090, 6, 4⟩
def F.DIO_PARTICIPATION_HELD : Field := ⟨0x4000D090, 2, 0⟩
def F.DIO_REPLACE_PIN_SENSED : Field := ⟨0x4000D094, 1, 1⟩
def F.DIO_REPLACE_PIN_ENERGISED : Field := ⟨0x4000D094, 0, 0⟩

/-! ### Fields of EVR -/
def F.EVR_CTRL_FETCH : Field := ⟨0x50001008, 1, 1⟩
def F.EVR_CTRL_FLUSH : Field := ⟨0x50001008, 0, 0⟩
def F.EVR_STATUS_FETCHING : Field := ⟨0x5000100C, 4, 4⟩
def F.EVR_STATUS_CLEARING : Field := ⟨0x5000100C, 3, 3⟩
def F.EVR_STATUS_RESTORING : Field := ⟨0x5000100C, 2, 2⟩
def F.EVR_STATUS_FLUSHING : Field := ⟨0x5000100C, 1, 1⟩
def F.EVR_STATUS_RUNNING : Field := ⟨0x5000100C, 0, 0⟩
def F.EVR_HEAD_SEQUENCE : Field := ⟨0x50001040, 31, 0⟩
def F.EVR_TAIL_SEQUENCE : Field := ⟨0x50001044, 31, 0⟩
def F.EVR_FLUSHED_SEQUENCE : Field := ⟨0x50001048, 31, 0⟩
def F.EVR_FLASH_TAIL_SEQUENCE : Field := ⟨0x5000104C, 31, 0⟩
def F.EVR_CLEAR_UPTO : Field := ⟨0x50001050, 31, 0⟩
def F.EVR_CLEAR_RESULT_RESULT : Field := ⟨0x50001054, 31, 28⟩
def F.EVR_CLEAR_MARK_UPTO : Field := ⟨0x50001058, 31, 0⟩
def F.EVR_FETCH_SEQ_SEQUENCE : Field := ⟨0x5000105C, 31, 0⟩
def F.EVR_FETCH_COUNT_COUNT : Field := ⟨0x50001060, 20, 0⟩
def F.EVR_FETCH_OFFSET_OFFSET : Field := ⟨0x50001064, 28, 0⟩
def F.EVR_UNFLUSHED_RECORDS : Field := ⟨0x50001068, 31, 0⟩
def F.EVR_RATE_RECORDS : Field := ⟨0x5000106C, 31, 0⟩
def F.EVR_LOST_FLASH : Field := ⟨0x50001070, 31, 16⟩
def F.EVR_LOST_STAGING : Field := ⟨0x50001070, 15, 0⟩

/-! ### Fields of EVL -/
def F.EVL_STATUS_HOLDING : Field := ⟨0x4000800C, 1, 1⟩
def F.EVL_STATUS_RUNNING : Field := ⟨0x4000800C, 0, 0⟩
def F.EVL_STAGED_KBYTES : Field := ⟨0x40008040, 19, 0⟩
def F.EVL_PASSED_COUNT : Field := ⟨0x40008044, 31, 0⟩
def F.EVL_LOST_COUNT : Field := ⟨0x40008048, 31, 0⟩

/-! ### Fields of UPD -/
def F.UPD_STATUS_PROBATION : Field := ⟨0x5000200C, 1, 1⟩
def F.UPD_STATUS_SPROUT : Field := ⟨0x5000200C, 0, 0⟩
def F.UPD_PATCH_LEN_LENGTH : Field := ⟨0x50002040, 31, 0⟩
def F.UPD_STATE_STAGE : Field := ⟨0x50002044, 31, 28⟩
def F.UPD_STATE_FALLBACK_VALID : Field := ⟨0x50002044, 10, 8⟩
def F.UPD_STATE_ON_PROBATION : Field := ⟨0x50002044, 2, 0⟩
def F.UPD_RUN_VERSION_VERSION : Field := ⟨0x50002048, 31, 0⟩
def F.UPD_FALLBACK_VERSION_VERSION : Field := ⟨0x5000204C, 31, 0⟩
def F.UPD_PROBATION_BOOTS : Field := ⟨0x50002050, 31, 28⟩
def F.UPD_PROBATION_CONFIRM_S : Field := ⟨0x50002050, 27, 16⟩
def F.UPD_PROBATION_SERVICE_S : Field := ⟨0x50002050, 15, 0⟩
def F.UPD_SETTINGS_KEPT : Field := ⟨0x50002054, 31, 16⟩
def F.UPD_SETTINGS_RUNNING : Field := ⟨0x50002054, 15, 0⟩
def F.UPD_LAST_EVENT : Field := ⟨0x50002058, 31, 28⟩
def F.UPD_LAST_REASON : Field := ⟨0x50002058, 27, 24⟩
def F.UPD_LAST_COMPONENTS : Field := ⟨0x50002058, 2, 0⟩

/-! ### Interrupt bits -/
def I.RTE_INTAKE_DIVERGED : Nat := 5
def I.RTE_OVERRUN : Nat := 4
def I.RTE_QUEUE_FULL : Nat := 3
def I.RTE_QUEUE_HIGH : Nat := 2
def I.RTE_DEFER : Nat := 1
def I.RTE_DROP : Nat := 0
def I.ZVL_OVERRUN : Nat := 4
def I.ZVL_FAULT : Nat := 3
def I.ZVL_HELD : Nat := 2
def I.ZVL_COLLISION : Nat := 1
def I.ZVL_DISCREPANCY : Nat := 0
def I.VOT_WT_FAULT : Nat := 4
def I.VOT_LINK : Nat := 3
def I.VOT_VERDICT : Nat := 2
def I.VOT_EXCLUSION : Nat := 1
def I.VOT_MISMATCH : Nat := 0
def I.RED_LIMIT_EXPIRED : Nat := 5
def I.RED_LIMIT_WARN : Nat := 4
def I.RED_DARN_FAILED : Nat := 3
def I.RED_DARN_DONE : Nat := 2
def I.RED_REPLACE : Nat := 1
def I.RED_DEGRADED : Nat := 0
def I.PHB_MARK_DISAGREE : Nat := 4
def I.PHB_LINK_DOWN : Nat := 3
def I.PHB_LATE_PAYLOAD : Nat := 2
def I.PHB_PAYLOAD_3 : Nat := 1
def I.PHB_PAYLOAD_2 : Nat := 0
def I.TTP_LINK : Nat := 7
def I.TTP_COPY_MISMATCH : Nat := 6
def I.TTP_DISCARD : Nat := 5
def I.TTP_SCHED_ABANDONED : Nat := 4
def I.TTP_SCHED_SWITCHED : Nat := 3
def I.TTP_NODE_LEFT : Nat := 2
def I.TTP_NODE_LOST : Nat := 1
def I.TTP_NODE_JOINED : Nat := 0
def I.STG_RESTORED : Nat := 5
def I.STG_SPLIT : Nat := 4
def I.STG_HEALING : Nat := 3
def I.STG_QUARANTINE : Nat := 2
def I.STG_UNATTRIBUTED : Nat := 1
def I.STG_CUT : Nat := 0
def I.TSU_STEP : Nat := 6
def I.TSU_OUTLIER : Nat := 5
def I.TSU_MASTER_CHANGE : Nat := 4
def I.TSU_FED_TIME_FAULT : Nat := 3
def I.TSU_HOLDOVER : Nat := 2
def I.TSU_LOCKED : Nat := 1
def I.TSU_DISAGREE : Nat := 0
def I.FED_EPOCH_CHANGE : Nat := 6
def I.FED_STARTED : Nat := 5
def I.FED_DUPLICATE : Nat := 4
def I.FED_COPY_MISMATCH : Nat := 3
def I.FED_SINGLE_EXPIRED : Nat := 2
def I.FED_SINGLE_NET : Nat := 1
def I.FED_SOURCE_LOST : Nat := 0
def I.SDB_PARTNER_UNFIT : Nat := 6
def I.SDB_HANDBACK : Nat := 5
def I.SDB_TAKEOVER : Nat := 4
def I.SDB_GATE_LATE : Nat := 3
def I.SDB_SEAL_FAIL : Nat := 2
def I.SDB_FULL_DONE : Nat := 1
def I.SDB_STALE : Nat := 0
def I.SYS_AUTH_FAIL : Nat := 5
def I.SYS_HOLDUP_LOW : Nat := 4
def I.SYS_POWER_LOSS : Nat := 3
def I.SYS_RESET_STUCK : Nat := 2
def I.SYS_SAFE_HALT : Nat := 1
def I.SYS_MODE_CHANGE : Nat := 0
def I.CLK_MONITOR_TRIP : Nat := 3
def I.CLK_WAKE_LATE : Nat := 2
def I.CLK_PLL_UNLOCK : Nat := 1
def I.CLK_PLL_LOCK : Nat := 0
def I.BST_VOID : Nat := 2
def I.BST_FAIL : Nat := 1
def I.BST_DONE : Nat := 0
def I.HBR_CMD_REFUSED : Nat := 4
def I.HBR_PREFETCH : Nat := 3
def I.HBR_WR_ERR : Nat := 2
def I.HBR_RD_ERR : Nat := 1
def I.HBR_LINK : Nat := 0
def I.DMA_ERR : Nat := 16
def I.DMA_EOC : Nat := 0
def I.CRC_PORT_FAIL : Nat := 3
def I.CRC_BLOCK_FAIL : Nat := 2
def I.CRC_ERROR : Nat := 1
def I.CRC_DONE : Nat := 0
def I.DIO_STUCK_OPEN : Nat := 6
def I.DIO_IN_DISAGREE : Nat := 5
def I.DIO_READBACK : Nat := 4
def I.DIO_SWITCH_FAULT : Nat := 3
def I.DIO_OVERLOAD : Nat := 2
def I.DIO_SUPPLY_MISSING : Nat := 1
def I.DIO_SUPPLY_LOW : Nat := 0
def I.EVR_FETCH_DONE : Nat := 3
def I.EVR_CLEAR_DONE : Nat := 2
def I.EVR_LOST : Nat := 1
def I.EVR_RECORD : Nat := 0
def I.EVL_LOST : Nat := 1
def I.EVL_HOLDING : Nat := 0
def I.UPD_PROBATION_EXPIRED : Nat := 4
def I.UPD_FALLBACK : Nat := 3
def I.UPD_CONFIRMED : Nat := 2
def I.UPD_REFUSED : Nat := 1
def I.UPD_WRITTEN : Nat := 0

/-- The register table of UPD beyond the common page. -/
def rowsUPD : List RegRow :=
  [⟨0x40, 0x0, 1, .rwl, 0xFFFFFFFF⟩, ⟨0x44, 0x0, 1, .ro, 0x0⟩, ⟨0x48, 0x0, 1, .ro, 0x0⟩, ⟨0x4C, 0x0, 1, .ro, 0x0⟩,
   ⟨0x50, 0x0, 1, .ro, 0x0⟩, ⟨0x54, 0x0, 1, .ro, 0x0⟩, ⟨0x58, 0x0, 1, .ro, 0x0⟩, ⟨0x300, 0x0, 1, .ro, 0x0⟩,
   ⟨0x304, 0x0, 1, .rwl, 0x1⟩, ⟨0x308, 0x0, 1, .rwl, 0x13⟩, ⟨0x30C, 0x0, 1, .rwl, 0xFFFFFFFF⟩, ⟨0x310, 0x0, 1, .ro, 0x0⟩,
   ⟨0x314, 0x0, 1, .ro, 0x0⟩]

/-- The register table of SYS beyond the common page. -/
def rowsSYS : List RegRow :=
  [⟨0x40, 0x0, 1, .cmd, 0xFFFFFFFF⟩, ⟨0x44, 0x0, 1, .ro, 0x0⟩, ⟨0x48, 0x0, 1, .ro, 0x0⟩, ⟨0x4C, 0x0, 1, .ro, 0x0⟩,
   ⟨0x50, 0x0, 1, .ro, 0x0⟩, ⟨0x54, 0x0, 1, .ro, 0x0⟩, ⟨0x58, 0x0, 1, .ro, 0x0⟩, ⟨0x5C, 0x0, 1, .ro, 0x0⟩,
   ⟨0x60, 0x0, 1, .ro, 0x0⟩, ⟨0x64, 0x0, 1, .ro, 0x0⟩, ⟨0x68, 0x0, 1, .ro, 0x0⟩, ⟨0x6C, 0x0, 1, .ro, 0x0⟩,
   ⟨0x70, 0x4, 4, .ro, 0x0⟩, ⟨0x200, 0x0, 1, .ro, 0x0⟩, ⟨0x204, 0x0, 1, .ro, 0x0⟩, ⟨0x208, 0x0, 1, .ro, 0x0⟩] ++
  [⟨0x20C, 0x0, 1, .ro, 0x0⟩, ⟨0x210, 0x0, 1, .ro, 0x0⟩]

/-- The register table of MBX beyond the common page. -/
def rowsMBX : List RegRow :=
  [⟨0x40, 0x20, 8, .cmd, 0xFFFFFFFF⟩, ⟨0x44, 0x20, 8, .cmd, 0xFFFFFFFF⟩, ⟨0x48, 0x20, 8, .ro, 0xFFFFFFFF⟩, ⟨0x4C, 0x20, 8, .ro, 0xFFFFFFFF⟩,
   ⟨0x50, 0x20, 8, .ro, 0x0⟩, ⟨0x54, 0x20, 8, .ro, 0x0⟩, ⟨0x58, 0x20, 8, .ro, 0x0⟩, ⟨0x140, 0x8, 8, .rwl, 0xFFFFFFFF⟩,
   ⟨0x144, 0x8, 8, .rwl, 0xFFFFFFFF⟩]

/-- The register table of RTE beyond the common page. -/
def rowsRTE : List RegRow :=
  [⟨0x8, 0x0, 1, .wo, 0x1⟩, ⟨0x40, 0x0, 1, .ro, 0x0⟩, ⟨0x44, 0x0, 1, .ro, 0x0⟩, ⟨0x48, 0x0, 1, .ro, 0x0⟩,
   ⟨0x4C, 0x0, 1, .ro, 0x0⟩, ⟨0x50, 0x0, 1, .ro, 0x0⟩, ⟨0x54, 0x0, 1, .rwl, 0x1FFFF⟩, ⟨0x58, 0x0, 1, .rwl, 0xFFFF⟩,
   ⟨0x5C, 0x0, 1, .rwl, 0x3FF⟩, ⟨0x60, 0x0, 1, .ro, 0x0⟩, ⟨0x64, 0x0, 1, .ro, 0x0⟩, ⟨0x68, 0x0, 1, .ro, 0x0⟩,
   ⟨0x6C, 0x0, 1, .ro, 0x0⟩, ⟨0x70, 0x0, 1, .ro, 0x0⟩, ⟨0x74, 0x0, 1, .ro, 0x0⟩, ⟨0x78, 0x0, 1, .ro, 0x0⟩] ++
  [⟨0x7C, 0x0, 1, .ro, 0x0⟩]

/-- The register table of ZVL beyond the common page. -/
def rowsZVL : List RegRow :=
  [⟨0x40, 0x0, 1, .ro, 0x0⟩, ⟨0x44, 0x0, 1, .ro, 0x0⟩, ⟨0x48, 0x0, 1, .ro, 0x0⟩, ⟨0x4C, 0x0, 1, .ro, 0x0⟩,
   ⟨0x50, 0x0, 1, .ro, 0x0⟩, ⟨0x54, 0x0, 1, .ro, 0x0⟩, ⟨0x58, 0x0, 1, .ro, 0x0⟩, ⟨0x5C, 0x0, 1, .ro, 0x0⟩,
   ⟨0x60, 0x0, 1, .ro, 0x0⟩, ⟨0x64, 0x0, 1, .ro, 0x0⟩, ⟨0x68, 0x0, 1, .ro, 0x0⟩, ⟨0x6C, 0x0, 1, .ro, 0x0⟩]

/-- The register table of VOT beyond the common page. -/
def rowsVOT : List RegRow :=
  [⟨0x8, 0x0, 1, .wo, 0x3⟩, ⟨0x40, 0x0, 1, .ro, 0x0⟩, ⟨0x44, 0x0, 1, .ro, 0x0⟩, ⟨0x48, 0x0, 1, .ro, 0x0⟩,
   ⟨0x4C, 0x0, 1, .ro, 0x0⟩, ⟨0x50, 0x0, 1, .ro, 0x0⟩, ⟨0x54, 0x0, 1, .ro, 0x0⟩, ⟨0x58, 0x0, 1, .ro, 0x0⟩,
   ⟨0x5C, 0x0, 1, .ro, 0x0⟩, ⟨0x60, 0x0, 1, .ro, 0x0⟩, ⟨0x64, 0x0, 1, .ro, 0x0⟩, ⟨0x68, 0x0, 1, .ro, 0x0⟩,
   ⟨0x6C, 0x0, 1, .ro, 0x0⟩, ⟨0x70, 0x0, 1, .ro, 0x0⟩, ⟨0x74, 0x0, 1, .ro, 0x0⟩, ⟨0x78, 0x0, 1, .ro, 0x0⟩] ++
  [⟨0x7C, 0x0, 1, .ro, 0x0⟩, ⟨0x80, 0x0, 1, .ro, 0x0⟩]

/-- The register table of RED beyond the common page. -/
def rowsRED : List RegRow :=
  [⟨0x40, 0x0, 1, .rwl, 0xFF⟩, ⟨0x44, 0x0, 1, .ro, 0x0⟩, ⟨0x48, 0x0, 1, .ro, 0x0⟩, ⟨0x4C, 0x0, 1, .rwl, 0x80FF⟩,
   ⟨0x50, 0x0, 1, .wo, 0x3⟩, ⟨0x54, 0x0, 1, .ro, 0x0⟩, ⟨0x58, 0x0, 1, .ro, 0x0⟩, ⟨0x5C, 0x0, 1, .ro, 0x0⟩,
   ⟨0x60, 0x0, 1, .ro, 0x0⟩, ⟨0x64, 0x0, 1, .ro, 0x0⟩, ⟨0x100, 0x0, 1, .rwl, 0xE000FFFF⟩, ⟨0x104, 0x0, 1, .rwl, 0xFFFF⟩,
   ⟨0x108, 0x0, 1, .ro, 0x0⟩, ⟨0x10C, 0x0, 1, .ro, 0x0⟩, ⟨0x110, 0x0, 1, .ro, 0x0⟩, ⟨0x114, 0x0, 1, .wo, 0x1⟩] ++
  [⟨0x118, 0x0, 1, .ro, 0x0⟩]

/-- The register table of PHB beyond the common page. -/
def rowsPHB : List RegRow :=
  [⟨0x40, 0x0, 1, .ro, 0x0⟩, ⟨0x44, 0x0, 1, .ro, 0x0⟩, ⟨0x48, 0x0, 1, .ro, 0x0⟩, ⟨0x4C, 0x0, 1, .ro, 0x0⟩,
   ⟨0x50, 0x0, 1, .ro, 0x0⟩, ⟨0x54, 0x0, 1, .ro, 0x0⟩, ⟨0x58, 0x0, 1, .ro, 0x0⟩, ⟨0x5C, 0x0, 1, .ro, 0x0⟩]

/-- The register table of TTP beyond the common page. -/
def rowsTTP : List RegRow :=
  [⟨0x40, 0x0, 1, .rws, 0x1⟩, ⟨0x44, 0x0, 1, .rws, 0xFF⟩, ⟨0x48, 0x0, 1, .rws, 0xF⟩, ⟨0x4C, 0x0, 1, .ro, 0x0⟩,
   ⟨0x50, 0x0, 1, .ro, 0x0⟩, ⟨0x54, 0x0, 1, .ro, 0x0⟩, ⟨0x58, 0x0, 1, .ro, 0x0⟩, ⟨0x5C, 0x0, 1, .ro, 0x0⟩,
   ⟨0x60, 0x0, 1, .ro, 0x0⟩, ⟨0x64, 0x0, 1, .ro, 0x0⟩, ⟨0x68, 0x0, 1, .ro, 0x0⟩, ⟨0x6C, 0x0, 1, .wo, 0xFF⟩,
   ⟨0x70, 0x0, 1, .rw, 0x7F⟩, ⟨0x74, 0x0, 1, .ro, 0x0⟩, ⟨0x78, 0x0, 1, .ro, 0x0⟩, ⟨0x7C, 0x0, 1, .ro, 0x0⟩] ++
  [⟨0x80, 0x0, 1, .ro, 0x0⟩, ⟨0x84, 0x0, 1, .ro, 0x0⟩, ⟨0x88, 0x0, 1, .ro, 0x0⟩, ⟨0x8C, 0x0, 1, .ro, 0x0⟩,
   ⟨0x90, 0x0, 1, .ro, 0x0⟩, ⟨0x94, 0x0, 1, .ro, 0x0⟩, ⟨0x98, 0x0, 1, .ro, 0x0⟩]

/-- The register table of STG beyond the common page. -/
def rowsSTG : List RegRow :=
  [⟨0x40, 0x4, 16, .rws, 0x1FFF⟩, ⟨0x80, 0x0, 1, .rwl, 0xFFFF⟩, ⟨0x84, 0x0, 1, .wo, 0x7FF⟩, ⟨0x88, 0x0, 1, .rw, 0xF⟩,
   ⟨0x8C, 0x0, 1, .ro, 0x0⟩, ⟨0x90, 0x0, 1, .ro, 0x0⟩, ⟨0x94, 0x0, 1, .ro, 0x0⟩, ⟨0x98, 0x0, 1, .ro, 0x0⟩,
   ⟨0x9C, 0x0, 1, .ro, 0x0⟩, ⟨0xA0, 0x0, 1, .ro, 0x0⟩, ⟨0xA4, 0x0, 1, .ro, 0x0⟩, ⟨0xA8, 0x0, 1, .ro, 0x0⟩,
   ⟨0xAC, 0x0, 1, .ro, 0x0⟩, ⟨0xB0, 0x0, 1, .ro, 0x0⟩, ⟨0xB4, 0x0, 1, .ro, 0x0⟩, ⟨0xB8, 0x0, 1, .ro, 0x0⟩]

/-- The register table of TSU beyond the common page. -/
def rowsTSU : List RegRow :=
  [⟨0x40, 0x0, 1, .ro, 0x0⟩, ⟨0x44, 0x0, 1, .ro, 0x0⟩, ⟨0x48, 0x0, 1, .ro, 0x0⟩, ⟨0x4C, 0x0, 1, .ro, 0x0⟩,
   ⟨0x50, 0x0, 1, .ro, 0x0⟩, ⟨0x54, 0x0, 1, .ro, 0x0⟩, ⟨0x58, 0x0, 1, .ro, 0x0⟩, ⟨0x5C, 0x0, 1, .ro, 0x0⟩,
   ⟨0x60, 0x0, 1, .ro, 0x0⟩, ⟨0x64, 0x0, 1, .ro, 0x0⟩, ⟨0x68, 0x0, 1, .ro, 0x0⟩, ⟨0x6C, 0x0, 1, .ro, 0x0⟩,
   ⟨0x70, 0x0, 1, .ro, 0x0⟩, ⟨0x74, 0x0, 1, .ro, 0x0⟩, ⟨0x78, 0x0, 1, .rws, 0xF0F0F0F⟩, ⟨0x7C, 0x0, 1, .rws, 0xFF⟩] ++
  [⟨0x80, 0x0, 1, .rws, 0xFFFFFFFF⟩, ⟨0x84, 0x0, 1, .rws, 0xFFFF⟩, ⟨0x88, 0x0, 1, .rws, 0x1FF⟩, ⟨0x8C, 0x0, 1, .ro, 0x0⟩,
   ⟨0x90, 0x0, 1, .ro, 0x0⟩, ⟨0x94, 0x0, 1, .ro, 0x0⟩, ⟨0x98, 0x0, 1, .ro, 0x0⟩, ⟨0x9C, 0x0, 1, .ro, 0x0⟩,
   ⟨0xA0, 0x0, 1, .ro, 0x0⟩, ⟨0xA4, 0x0, 1, .ro, 0x0⟩, ⟨0xA8, 0x0, 1, .ro, 0x0⟩]

/-- The register table of FED beyond the common page. -/
def rowsFED : List RegRow :=
  [⟨0x40, 0x0, 1, .rwl, 0xFFFFFFF1⟩, ⟨0x44, 0x0, 1, .rwl, 0xFF⟩, ⟨0x48, 0x0, 1, .rwl, 0xFFFF⟩, ⟨0x4C, 0x0, 1, .ro, 0x0⟩,
   ⟨0x50, 0x0, 1, .ro, 0x0⟩, ⟨0x54, 0x0, 1, .ro, 0x0⟩, ⟨0x58, 0x0, 1, .ro, 0x0⟩, ⟨0x5C, 0x0, 1, .ro, 0x0⟩,
   ⟨0x60, 0x0, 1, .ro, 0x0⟩, ⟨0x64, 0x0, 1, .ro, 0x0⟩, ⟨0x68, 0x0, 1, .ro, 0x0⟩, ⟨0x6C, 0x0, 1, .ro, 0x0⟩,
   ⟨0x70, 0x0, 1, .rw, 0xF⟩, ⟨0x74, 0x0, 1, .ro, 0x0⟩]

/-- The register table of SDB beyond the common page. -/
def rowsSDB : List RegRow :=
  [⟨0x40, 0x0, 1, .ro, 0x0⟩, ⟨0x44, 0x0, 1, .ro, 0x0⟩, ⟨0x48, 0x0, 1, .ro, 0x0⟩, ⟨0x4C, 0x0, 1, .ro, 0x0⟩,
   ⟨0x50, 0x0, 1, .ro, 0x0⟩, ⟨0x54, 0x0, 1, .ro, 0x0⟩]

/-- The register table of CLK beyond the common page. -/
def rowsCLK : List RegRow :=
  [⟨0x40, 0x0, 1, .ro, 0x0⟩, ⟨0x44, 0x0, 1, .ro, 0x0⟩, ⟨0x48, 0x0, 1, .ro, 0x0⟩, ⟨0x4C, 0x0, 1, .ro, 0x0⟩,
   ⟨0x50, 0x0, 1, .ro, 0x0⟩]

/-- The register table of BST beyond the common page. -/
def rowsBST : List RegRow :=
  [⟨0x40, 0x0, 1, .rwl, 0xF7⟩, ⟨0x44, 0x0, 1, .ro, 0x0⟩, ⟨0x48, 0x0, 1, .ro, 0x0⟩, ⟨0x4C, 0x0, 1, .ro, 0x0⟩,
   ⟨0x50, 0x0, 1, .ro, 0x0⟩, ⟨0x54, 0x0, 1, .ro, 0x0⟩, ⟨0x58, 0x0, 1, .ro, 0x0⟩, ⟨0x5C, 0x0, 1, .ro, 0x0⟩,
   ⟨0x60, 0x0, 1, .ro, 0x0⟩, ⟨0x64, 0x0, 1, .ro, 0x0⟩]

/-- The register table of HBR beyond the common page. -/
def rowsHBR : List RegRow :=
  [⟨0x40, 0x10, 8, .rw, 0x8F370001⟩, ⟨0x44, 0x10, 8, .rw, 0xFE000000⟩, ⟨0x48, 0x10, 8, .rw, 0x3⟩, ⟨0xC0, 0x4, 8, .ro, 0x0⟩,
   ⟨0xE0, 0x0, 1, .cmd, 0xFFFFFFFF⟩, ⟨0xE4, 0x0, 1, .ro, 0x0⟩, ⟨0xE8, 0x0, 1, .rw, 0x1FF⟩, ⟨0xF0, 0x4, 4, .rw, 0xFFFFFFFF⟩,
   ⟨0x100, 0x4, 8, .wo, 0xFFFFFFFF⟩, ⟨0x120, 0x0, 1, .ro, 0x0⟩, ⟨0x124, 0x0, 1, .ro, 0x0⟩, ⟨0x128, 0x0, 1, .ro, 0x0⟩,
   ⟨0x12C, 0x0, 1, .ro, 0x0⟩, ⟨0x130, 0x0, 1, .ro, 0x0⟩, ⟨0x134, 0x0, 1, .ro, 0x0⟩, ⟨0x138, 0x0, 1, .ro, 0x0⟩]

/-- The register table of DMA beyond the common page. -/
def rowsDMA : List RegRow :=
  [⟨0x40, 0x0, 1, .ro, 0x0⟩, ⟨0x44, 0x0, 1, .ro, 0x0⟩, ⟨0x48, 0x0, 1, .ro, 0x0⟩, ⟨0x400, 0x40, 16, .rw, 0xFFFFFE00⟩,
   ⟨0x404, 0x40, 16, .ro, 0x0⟩, ⟨0x408, 0x40, 16, .rw, 0xFFFFFFFF⟩, ⟨0x40C, 0x40, 16, .rw, 0xFFFFFFFF⟩, ⟨0x410, 0x40, 16, .rw, 0xFFFFFFFF⟩,
   ⟨0x414, 0x40, 16, .rw, 0xFFFFFFFF⟩, ⟨0x418, 0x40, 16, .rw, 0xFFFFFFFF⟩, ⟨0x41C, 0x40, 16, .ro, 0x0⟩, ⟨0x420, 0x40, 16, .rw, 0xFFFFFFFF⟩,
   ⟨0x424, 0x40, 16, .rw, 0xFFFFFFFF⟩, ⟨0x428, 0x40, 16, .ro, 0x0⟩, ⟨0x42C, 0x40, 16, .ro, 0x0⟩]

/-- The register table of CRC beyond the common page. -/
def rowsCRC : List RegRow :=
  [⟨0x40, 0x40, 2, .rw, 0xEC000000⟩, ⟨0x44, 0x40, 2, .ro, 0x0⟩, ⟨0x48, 0x40, 2, .rw, 0xFFFFFFFF⟩, ⟨0x4C, 0x40, 2, .rw, 0xFFFFFFFF⟩,
   ⟨0x50, 0x40, 2, .rw, 0xFFFFFFFF⟩, ⟨0x54, 0x40, 2, .rw, 0xFFFFFFFF⟩, ⟨0x58, 0x40, 2, .rw, 0xFFFFFFFF⟩, ⟨0x5C, 0x40, 2, .rw, 0xFFFFFFFF⟩,
   ⟨0x60, 0x40, 2, .ro, 0x0⟩, ⟨0x64, 0x40, 2, .ro, 0x0⟩, ⟨0x68, 0x40, 2, .rw, 0xFFFFFFFF⟩, ⟨0x6C, 0x40, 2, .rw, 0xFFFFFFFF⟩,
   ⟨0x70, 0x40, 2, .ro, 0x0⟩, ⟨0xC0, 0x0, 1, .rw, 0xC000001⟩, ⟨0xC4, 0x0, 1, .ro, 0x0⟩, ⟨0xC8, 0x0, 1, .rw, 0xFFFFFFFF⟩] ++
  [⟨0xCC, 0x0, 1, .rw, 0xFFFFFFFF⟩, ⟨0xD0, 0x0, 1, .ro, 0x0⟩, ⟨0xD4, 0x0, 1, .ro, 0x0⟩, ⟨0xE0, 0x0, 1, .ro, 0x0⟩,
   ⟨0x200, 0x20, 8, .rw, 0x8EF00000⟩, ⟨0x204, 0x20, 8, .rw, 0xFFFFFFFF⟩, ⟨0x208, 0x20, 8, .rw, 0xFFFFFFFF⟩, ⟨0x20C, 0x20, 8, .rw, 0xFFFFFFFF⟩,
   ⟨0x210, 0x20, 8, .rw, 0xFFFFFFFF⟩, ⟨0x214, 0x20, 8, .rw, 0xFFFFFFFF⟩, ⟨0x218, 0x20, 8, .ro, 0x0⟩, ⟨0x21C, 0x20, 8, .ro, 0x0⟩]

/-- The register table of DIO beyond the common page. -/
def rowsDIO : List RegRow :=
  [⟨0x40, 0x0, 1, .rws, 0xFFFFFFFF⟩, ⟨0x44, 0x0, 1, .rws, 0xFFFFFFFF⟩, ⟨0x48, 0x0, 1, .ro, 0x0⟩, ⟨0x4C, 0x0, 1, .ro, 0x0⟩,
   ⟨0x50, 0x0, 1, .ro, 0x0⟩, ⟨0x54, 0x0, 1, .ro, 0x0⟩, ⟨0x58, 0x0, 1, .ro, 0x0⟩, ⟨0x5C, 0x0, 1, .ro, 0x0⟩,
   ⟨0x60, 0x0, 1, .ro, 0x0⟩, ⟨0x64, 0x0, 1, .ro, 0x0⟩, ⟨0x68, 0x0, 1, .ro, 0x0⟩, ⟨0x6C, 0x0, 1, .ro, 0x0⟩,
   ⟨0x70, 0x0, 1, .ro, 0x0⟩, ⟨0x74, 0x0, 1, .ro, 0x0⟩, ⟨0x78, 0x0, 1, .ro, 0x0⟩, ⟨0x7C, 0x0, 1, .ro, 0x0⟩] ++
  [⟨0x80, 0x0, 1, .rw, 0x3F⟩, ⟨0x84, 0x0, 1, .ro, 0x0⟩, ⟨0x88, 0x0, 1, .ro, 0x0⟩, ⟨0x8C, 0x0, 1, .ro, 0x0⟩,
   ⟨0x90, 0x0, 1, .ro, 0x0⟩, ⟨0x94, 0x0, 1, .ro, 0x0⟩]

/-- The register table of EVR beyond the common page. -/
def rowsEVR : List RegRow :=
  [⟨0x8, 0x0, 1, .wo, 0x3⟩, ⟨0x40, 0x0, 1, .ro, 0x0⟩, ⟨0x44, 0x0, 1, .ro, 0x0⟩, ⟨0x48, 0x0, 1, .ro, 0x0⟩,
   ⟨0x4C, 0x0, 1, .ro, 0x0⟩, ⟨0x50, 0x0, 1, .wo, 0xFFFFFFFF⟩, ⟨0x54, 0x0, 1, .ro, 0x0⟩, ⟨0x58, 0x0, 1, .ro, 0x0⟩,
   ⟨0x5C, 0x0, 1, .rw, 0xFFFFFFFF⟩, ⟨0x60, 0x0, 1, .rw, 0x1FFFFF⟩, ⟨0x64, 0x0, 1, .rw, 0x1FFFFFFF⟩, ⟨0x68, 0x0, 1, .ro, 0x0⟩,
   ⟨0x6C, 0x0, 1, .ro, 0x0⟩, ⟨0x70, 0x0, 1, .ro, 0x0⟩]

/-- The register table of EVL beyond the common page. -/
def rowsEVL : List RegRow :=
  [⟨0x40, 0x0, 1, .ro, 0x0⟩, ⟨0x44, 0x0, 1, .ro, 0x0⟩, ⟨0x48, 0x0, 1, .ro, 0x0⟩]

/-- The common page of every block (R414, R415); CTRL stands in the block's own table where it has fields. -/
def rowsCommon : List RegRow :=
  [⟨0x0, 0, 1, .ro, 0⟩, ⟨0x4, 0, 1, .ro, 0⟩, ⟨0xC, 0, 1, .ro, 0⟩, ⟨0x10, 0, 1, .ro, 0⟩,
   ⟨0x14, 0, 1, .own, 0xFFFFFFFF⟩, ⟨0x18, 0, 1, .own, 0xFFFFFFFF⟩, ⟨0x1C, 0, 1, .own, 0xFFFFFFFF⟩,
   ⟨0x20, 0, 1, .ro, 0⟩, ⟨0x24, 0, 1, .ro, 0⟩, ⟨0x28, 0, 1, .own, 0xFFFF⟩, ⟨0x2C, 0, 1, .own, 1⟩]

/-- The SC DMA block has channels 0 to 7 only, and neither LANES nor SNOOP (R363). -/
def RegRow.half (r : RegRow) : RegRow :=
  if 0x400 ≤ r.off then { r with count := min r.count 8, mask := if r.off = 0x400 then 0xFFFF0000 else r.mask } else r

/-- Every register row of a block. -/
def blkRows : Blk → List RegRow
  | .sys => rowsCommon ++ rowsSYS | .clk => rowsCommon ++ rowsCLK | .tsu => rowsCommon ++ rowsTSU
  | .rte => rowsCommon ++ rowsRTE | .zvl => rowsCommon ++ rowsZVL | .vot => rowsCommon ++ rowsVOT
  | .crc => rowsCommon ++ rowsCRC | .dma => rowsCommon ++ rowsDMA | .evl => rowsCommon ++ rowsEVL
  | .bst => rowsCommon ++ rowsBST | .red => rowsCommon ++ rowsRED | .sdb => rowsCommon ++ rowsSDB
  | .fed => rowsCommon ++ rowsFED | .dio => rowsCommon ++ rowsDIO | .phb => rowsCommon ++ rowsPHB
  | .ttp _ => rowsCommon ++ rowsTTP | .stg => rowsCommon ++ rowsSTG | .hbr => rowsCommon ++ rowsHBR
  | .evr => rowsCommon ++ rowsEVR | .upd => rowsCommon ++ rowsUPD
  | .scdma => rowsCommon ++ rowsDMA.map RegRow.half | .mbx => rowsCommon ++ rowsMBX

/-- A row holds the offset. -/
def RegRow.covers (r : RegRow) (off : Nat) : Bool :=
  if r.stride = 0 then off = r.off
  else r.off ≤ off && (off - r.off) % r.stride = 0 && (off - r.off) / r.stride < r.count

/-- The row of a register at an offset of a block's page; none at a reserved offset (R10). -/
def findRow (b : Blk) (off : Nat) : Option RegRow := (blkRows b).find? (fun r => r.covers off)

/-- Which registers have the shadow at +0x800 (R422). -/
def shadowed (b : Blk) (off : Nat) : Bool :=
  match findRow b off with
  | some r => r.acc == .rws
  | none => false

/-- The pages a register window of the host can name (R425), by the page number of a lane-local address. -/
def pageOf (a : Nat) : Option Blk :=
  match a / 0x1000 with
  | 0x40000 => some .sys | 0x40001 => some .clk | 0x40002 => some .tsu | 0x40003 => some .rte
  | 0x40004 => some .zvl | 0x40005 => some .vot | 0x40006 => some .crc | 0x40007 => some .dma
  | 0x40008 => some .evl | 0x40009 => some .bst | 0x4000A => some .red | 0x4000B => some .sdb
  | 0x4000C => some .fed | 0x4000D => some .dio | 0x40010 => some .phb
  | 0x40020 => some .stg | 0x40021 => some (.ttp 15)
  | 0x50000 => some .hbr | 0x50001 => some .evr | 0x50002 => some .upd | 0x50003 => some .scdma
  | 0x50004 => some .mbx
  | k => if h : 0x40011 ≤ k ∧ k ≤ 0x4001F then some (.ttp ⟨k - 0x40011, by omega⟩) else none

/-- ID of a block's page (R415, R427): DEVICE, INSTANCE, BLOCK; `inst` is the lane's position for a lane block. -/
def blkId (b : Blk) (inst : Nat) : Nat :=
  (match b with
    | .ttp p => 0x02000000 + p.val * 0x10000
    | .phb | .stg => 0x02000000
    | .hbr | .evr | .upd | .scdma | .mbx => 0x03000000
    | _ => 0x01000000 + inst * 0x10000) + blkCode b

/-- The event bits a block's interrupt registers have; the bits above them are reserved (R10). -/
def intMask : Blk → Nat
  | .dma => 0xFFFFFFFF
  | .scdma => 0x00FF00FF
  | .ttp _ => 0xFF
  | .tsu | .sdb | .fed | .dio => 0x7F
  | .sys | .rte | .red | .stg => 0x3F
  | .zvl | .vot | .phb | .hbr | .upd => 0x1F
  | .clk | .crc | .evr => 0xF
  | .bst => 0x7
  | .evl => 0x3
  | .mbx => 0

/-- The reset values that are not zero (R428). -/
def resetTable : List (Nat × Nat) :=
  [(0x4000000C, 0x2), (0x40002064, 0x14), (0x40002078, 0x04010702), (0x4000207C, 0xA), (0x40002080, 0xF0003010),
   (0x40002084, 0x8080), (0x40002088, 0x3C), (0x40003054, 0xC000), (0x40003058, 0x9C4), (0x4000305C, 0x32)] ++
  [(0x4000A040, 0x48), (0x4000A04C, 0x800A), (0x4000A100, 0x3C), (0x4000A104, 0x400), (0x4000C040, 0x88B5F041),
   (0x4000C044, 0x64), (0x4000C048, 0x30A), (0x40020080, 0x100)]

/-- The reset value of the register at an address (R428): zero but for the table and the register groups with a common
reset value (ID, VERSION, TTP.PORT_CFG, TTP.ARB_CFG, STG.HEMn, MBX.AREA, DMA.CHn_DIFF, CRC.SCANm_BLOCK_FAIL). -/
def resetValue (a : Nat) : W32 :=
  match resetTable.lookup a with
  | some v => BitVec.ofNat 32 v
  | none =>
    if 0x40020040 ≤ a ∧ a < 0x40020080 then 0x3E8
    else if 0x50004140 ≤ a ∧ a < 0x50004180 then 0xFFFFFFFF
    else if (a / 0x1000 = 0x40007 ∧ a % 0x1000 < 0x800 ∨ a / 0x1000 = 0x50003 ∧ a % 0x1000 < 0x600) ∧ 0x400 ≤ a % 0x1000 ∧
      a % 0x40 = 0x28 then 0xFFFFFFFF
    else if a = 0x40006070 ∨ a = 0x400060B0 then 0xFFFFFFFF
    else match pageOf a with
      | some b =>
        if a % 0x1000 = 0 then BitVec.ofNat 32 (blkId b 0)
        else if a % 0x1000 = 4 then 0x03000000
        else match b with
          | .ttp _ => if a % 0x1000 = 0x40 then 1 else if a % 0x1000 = 0x44 then 0x32 else 0
          | _ => 0
      | none => 0

end Sys2Proof.Machine
end

