-- ==== Sys2Proof/Machine/State.lean ====
section
/-!
DEFINITION. Machine/State.lean: everything the manual gives the module, as plain data. The three lanes hold separate
copies of the State Image, the memories, the registers, the queues, the ZVL region and the timebase (R12); what the Port
Hub and the Service Controller hold stands once. `State` is the module and the queue of the commands that wait.
-/
namespace Sys2Proof.Machine

/-- A register file by lane-local address; an unlisted register reads its reset value (R428). -/
abbrev Regs := Store W32

/-- A timer slot of a State Image record (R52): STATE 0 idle, 1 running, 2 expired. -/
structure Timer where
  state : Nat
  owner : Nat
  remaining : Nat
  deriving DecidableEq, Repr

/-- A State Image record (R41). `ov0`, `ov1` are OVERLAP_LOCK, `fl0` to `fl3` FLANK_LOCK; `release` is RELEASE_STATE. -/
structure ObjRec where
  object : Nat
  cls : Nat
  area : Nat
  commanded : W32
  detected : W32
  inputs : Byte
  outputs : Byte
  proving : Byte
  restrict : Byte
  routeLock : Nat
  lockKind : Nat
  holds : Byte
  ov0 : Nat
  ov1 : Nat
  fl0 : Nat
  fl1 : Nat
  fl2 : Nat
  fl3 : Nat
  timer0 : Timer
  timer1 : Timer
  release : Byte
  comm : W32
  lastChange : W32
  app : BitVec 512
  /-- the reserved bytes 0x24, 0x2C, 0x21, 0x29, 0x31 to 0x33 and 0x3C to 0x3F (R52, R142) -/
  rsv : BitVec 88
  deriving DecidableEq, Repr

/-- A record of zeros (R41). -/
def ObjRec.zero : Nat → ObjRec := fun _ =>
  ⟨0, 0, 0, 0, 0, 0, 0, 0, 0, 0, 0, 0, 0, 0, 0, 0, 0, 0, ⟨0, 0, 0⟩, ⟨0, 0, 0⟩, 0, 0, 0, 0, 0⟩

/-- The last accepted inputs of an object: INPUTS and DETECTED[23:0] (R186). -/
structure InObj where
  inputs : Byte
  det : Nat
  deriving DecidableEq, Repr

/-- The communication state a lane keeps per node (R195): STATE 0 IN_COMM, 1 LOST, 2 ABSENT, 3 JOINING, 4 QUARANTINED;
`since` is the cluster LEAVE_LIMIT counts from; `nodeState` is NODE_STATE of the last INPUT frame. -/
structure NodeComm where
  state : Nat
  lost : Nat
  restore : Nat
  since : Nat
  nodeState : Nat
  deriving DecidableEq, Repr

def NodeComm.absent : Nat → NodeComm := fun _ => ⟨2, 0, 0, 0, 0⟩

/-- The input image (live, latched or frozen): last accepted inputs per object, node states, agreed DIO values
(R373), and for class 9 objects the source states and values (R270, R271). -/
structure InputSet where
  obj : Store (Option InObj)
  node : Store NodeComm
  dioIn : W64
  dioRb : W64
  supply : BitVec 8
  srcIn : BitVec 16
  fed : Store (Option InObj)
  /-- class 9 objects whose value is not that of a confirmed entry (R69, R269) -/
  early : List Nat
  deriving DecidableEq, Repr

def noIn : Nat → Option InObj := fun _ => none

def InputSet.empty : InputSet := ⟨[], [], 0, 0, 0, 0, [], []⟩

/-- A queued request (R79, R80). -/
structure Req where
  word : W64
  seq : Nat
  mbx : Nat
  dropped : Bool
  drops : Nat
  follower : Bool
  clusters : Nat
  gathered : Bool
  reason : Nat
  deriving DecidableEq, Repr

/-- One piece of evaluation work (R87): the supervision of a route or the working of a request. -/
inductive Work where
  | sup (route : Nat)
  | req (seq : Nat)
  deriving DecidableEq, Repr

/-- A write entry of R145: object, byte offset in the record, the bytes. -/
structure WriteEntry where
  object : Nat
  off : Nat
  bytes : List Byte
  /-- written by the timer step of R90: the Seedbank increment leaves these out (R283) -/
  isTimer : Bool
  deriving DecidableEq, Repr

/-- A result as a lane reports it (R81). -/
structure Result where
  mbx : Nat
  word : W64
  seq : Nat
  deriving DecidableEq, Repr

/-- Progress of a point's throw demand (R70): 0 none, 1 detected in `pos`, 2 the other position commanded. -/
structure ThrowSeq where
  step : Nat
  pos : Nat
  deriving DecidableEq, Repr

/-- LAUNCH as last carried for a node, and whether its frame carried only NOW entries (R93). -/
structure LaunchState where
  value : Nat
  allNow : Bool
  deriving DecidableEq, Repr

/-- The outcome of a Press built and not yet committed (R90). -/
structure PressOut where
  si : Store ObjRec
  log : List WriteEntry
  results : List Result
  queue : List Req
  deferred : List Nat
  converted : List Nat
  throws : Store ThrowSeq
  seen : Store Bool
  written : List Nat
  changed : List Nat
  /-- objects changed otherwise than in STEADY, LOST_COUNT and RESTORE alone (R100) -/
  moved : List Nat
  permissive : List Nat
  nowLow : List Nat
  /-- restrictions and lifts committed, in REQ_SEQ order (R129) -/
  lifts : List Req
  rearmed : Bool
  committed : Nat
  deriving DecidableEq, Repr

/-- The permissive changes of a committed Press whose SEED_ACK is not in (R285): COMMANDED and APP as they were before it, by
object, and the exported objects of which it ended a restriction. -/
structure Unacked where
  cluster : Nat
  cmds : Store (Option W32)
  apps : Store (Option (BitVec 512))
  freed : List Nat
  /-- proving bits that the Press cleared -/
  proved : Store Byte
  deriving DecidableEq, Repr

/-- The route evaluation engine of a lane. -/
structure Rte where
  queue : List Req
  cut : Nat
  frozen : InputSet
  gathered : Bool
  due : List Nat
  order : List Work
  contexts : Store (Option Work)
  done : List Work
  deferred : List Nat
  converted : List Nat
  throws : Store ThrowSeq
  seen : Store Bool
  press : Option PressOut
  /-- objects that the last Press changed otherwise than in STEADY, LOST_COUNT and RESTORE alone (R100) -/
  moved : List Nat
  /-- supervisions completed, demanded weights of the last sixteen cycles -/
  demands : List Nat
  /-- results waiting for Emit -/
  report : List Result
  /-- objects whose aspect is permissive and lower than before (R185) -/
  nowLow : List Nat
  /-- objects changed permissively by the last Press (R93) -/
  permissive : List Nat
  /-- COMMANDED of the Press before for permissive changes held under R285 -/
  heldBack : Store (Option W32)
  /-- APP of the Press before for exported objects whose permissive change is held under R285 -/
  heldApp : Store (Option (BitVec 512))
  /-- exported objects whose restriction a held Press has ended (R285) -/
  heldRestr : List Nat
  /-- proving bits that a held Press has cleared (R285, R69) -/
  heldProv : Store Byte
  /-- what is held from the next Emit on, oldest Press first -/
  unacked : List Unacked
  launch : Store (Option LaunchState)
  /-- the shared launch time of the last Press (R93) -/
  shared : Nat
  deriving DecidableEq, Repr

/-- A snapshot of R159 step 6: the State Image after the commit of a Press, and the request state that goes with it. -/
structure Snap where
  si : Store ObjRec
  rte : Rte
  deriving DecidableEq, Repr

/-- A slot of ZVL's locked-route table with its route state (R116); the 64 check words are kept sparse. -/
structure Slot where
  route : Nat
  words : Store W32
  mismatch : Bool
  collided : Bool
  cleared : Bool
  entered : Bool
  held : Bool
  timer0 : Bool
  timer1 : Bool
  seen : W64
  ended : W64
  /-- kind 4 words whose object has held the route's overlap lock (R121) -/
  had : W64
  /-- claims up for ending and not yet ended (R121) -/
  up : W64
  removal : Bool
  clears : Nat
  partners : List Nat
  /-- a sixteenth shared claim was made at the admission (R123), and the words whose claims are therefore not in the claim map -/
  shared16 : Bool
  skipped : W64
  passes : Bool
  deriving DecidableEq, Repr

/-- ZVL of a lane: its region as R116 divides it, and its gate (R130, R133). -/
structure Zvl where
  slots : Store (Option Slot)
  claims : Store (BitVec 16)
  forbid : Store Nat
  /-- the route that R135 names for an object with a forbid code, as the slots stood at the pass -/
  why : Store Nat
  rObj : Store Bool
  rArea : W64
  rAll : Bool
  /-- restriction requests committed and not yet in a restriction cut (R117) -/
  wait : List (Nat × W64)
  /-- the gate substitutes every command (R133) -/
  gating : Bool
  /-- objects whose command left the gate permissive in this basic cycle -/
  open_ : List Nat
  /-- objects whose command left the gate permissive in the last basic cycle (R127) -/
  openLast : List Nat
  /-- locked routes that found no free slot (R122) -/
  slotless : List Nat
  /-- objects overridden in basic cycle 15 of the last cluster (R135) -/
  over15 : List Nat
  deriving DecidableEq, Repr

/-- The timebase of a lane (R238 to R249). The servo terms are exact rationals. -/
structure Time where
  count : Nat
  base : Nat
  cref : Nat
  rate : Nat
  origin : Nat
  fLane : Rat
  pLane : Rat
  fPtp : Rat
  pPtp : Rat
  thetaNext : Option Rat
  thetaPrev : Option Rat
  deltaNext : Option Rat
  deltaPrev : Option Rat
  err : Option Rat
  overCnt : Nat
  phOver : Nat
  good : Nat
  stepped : Bool
  deriving DecidableEq, Repr

/-- What a lane is for the vote (R152, R159). -/
inductive Role where
  | serving | excluded | joining
  deriving DecidableEq, Repr

/-- An event record's body: code, time, four parameters, and DELAYED (R386). -/
structure Event where
  code : Nat
  time : Nat
  p0 : Nat
  p1 : Nat
  p2 : Nat
  p3 : Nat
  delayed : Bool
  /-- federation time was valid at TIME (R387) -/
  fed : Bool
  deriving DecidableEq, Repr

/-- A command payload a lane has handed to the Port Hub for a node (R144): the coded part, LAUNCH and the lane code. -/
structure Payload where
  node : Nat
  launch : Nat
  part : List Byte
  deriving DecidableEq, Repr

/-- A source module as a lane hears it (R270): the lane's communication state of it, latches since the last confirmed message, consecutive
latches with one, and whether this span has one. -/
structure SrcComm where
  inComm : Bool
  silent : Nat
  run : Nat
  confirmed : Bool
  deriving DecidableEq, Repr

def SrcComm.init : Nat → SrcComm := fun _ => ⟨false, 255, 0, false⟩

/-- The Seedbank of a lane in STANDBY (R284): State Image, queue, deferred supervisions, header values, and what it is current to; streams
being received, at most one of each KIND (KIND, cluster, data so far), and increments whole and not applied, kept for the full
snapshot being received (cluster, stream). -/
structure Seedbank where
  si : Store ObjRec
  queue : List Req
  deferred : List Nat
  epoch : Nat
  origin : Nat
  seq : Nat
  cluster : Option Nat
  full : Bool
  ptp : Nat
  hold : Nat
  mode : Nat
  rx : List (Nat × Nat × List Byte)
  incs : List (Nat × List Byte)
  deriving DecidableEq, Repr

def Seedbank.empty : Seedbank := ⟨[], [], [], 0, 0, 0, none, false, 0, 0, 0, [], []⟩

/-- What a DMA unit holds beside its registers, by channel: bytes a pre-empted channel has read and not yet written (R360), and the
destination address at which an aborted one stopped (R362). -/
structure DmaHold where
  kept : Store (List Byte)
  stop : Store Nat
  deriving DecidableEq, Repr

/-- One lane. -/
structure Lane where
  role : Role
  /-- probation: step 9 of R159 -/
  probation : Bool
  /-- the host link to the Service Controller is up (R31) -/
  hostLink : Bool
  regs : Regs
  /-- pending shadow values (R422) and values held to after the next copy (R423) -/
  shadow : Store (Option W32)
  held : List (Nat × W32)
  dram : Mem
  sram : Mem
  /-- bytes that DMA or a scan has written where the lane's own units keep their data (R28, R29): DRAM addresses, and on-die
  addresses above 2^40 -/
  own : Store (Option Byte)
  /-- the parts of on-die SRAM and of DRAM whose layout is open have been zeroed, and no unit has written there since (R302, R159) -/
  zeroDie : Bool
  zeroDram : Bool
  /-- the active image lies in the upper of the two image regions of R29 (step 6 of R62 swaps the roles) -/
  activeHi : Bool
  loaded : Bool
  wtSeal : W64
  /-- outcome of LOAD steps 3 and 4: fault code, seal (R63) -/
  outcome : Option (Nat × W64)
  si : Store ObjRec
  rte : Rte
  zvl : Zvl
  time : Time
  live : InputSet
  latched : InputSet
  /-- the lane's values of class 9 objects between latches, BLOCKED, RESTRICTED, LEVEL as DETECTED[5:0] (R269, R271), and those that
  are not of a confirmed entry (R69) -/
  imports : Store (Option InObj)
  early : List Nat
  /-- the lane's communication state of each source module (R270) -/
  src : Store SrcComm
  /-- the lane's own Seedbank (R284) -/
  sb : Seedbank
  payloads : List Payload
  /-- payloads handed over in the present basic cycle, for the next one -/
  staged : List Payload
  dioWord : W64
  dioNext : W64
  /-- federation and pair messages built for the next basic cycle: destination, type, payload -/
  fedOut : List (Nat × Nat × List Byte)
  selfFaults : List Nat
  inject : Nat
  /-- µs into the running second of the lane's own timing of the degraded limit (R156) -/
  degUs : Nat
  /-- the snapshot a serving lane has taken for the joining lane (R159) -/
  snap : Option Snap
  /-- image signature computed by the scan of R147 -/
  scanned : Bool
  events : List Event
  /-- records discarded since the last RECORDS_LOST record (R391) -/
  evLost : Nat
  lifecycle : Nat
  serial : W64
  golden : W64
  dma : DmaHold
  deriving DecidableEq, Repr

/-- A grant placed in a port basic cycle (R183). -/
structure Grant where
  node : Nat
  cls : Nat
  start : Nat
  len : Nat
  deriving DecidableEq, Repr

/-- A Thawen port (chapters 6 and 7). -/
structure Port where
  running : Bool
  commanding : Bool
  bc : Nat
  sched : Nat
  announcing : Bool
  next : Nat
  target : Nat
  decided : Option Bool
  split : Bool
  healing : Bool
  missed : Nat
  good : Nat
  started : Nat
  maxL : Nat
  measured : Nat
  sinceChange : Nat
  joinPtr : Nat
  joinIndex : Nat
  joinStart : Nat
  /-- the node last served, by class × 8 + priority (R183) -/
  arbPtr : Store Nat
  grants : List Grant
  /-- frames of the module waiting for a class 4, 1, 2 or 3 grant: class, destination, type, payload -/
  own : List (Nat × Nat × Nat × List Byte)
  refused : Bool
  eastUp : Bool
  westUp : Bool
  returned : Bool
  /-- module frames go out on both links: from the port basic cycle after a split (R226) -/
  both : Bool
  /-- the ring latency has passed R166, and joins are offered (R211) -/
  checked : Bool
  /-- port basic cycles of a taken-over port that are still to carry the LEAVE of R287 -/
  leaves : Nat
  /-- cause of a split declared in the present port basic cycle, whose interrupt and record follow in the next one (R226); 0 none -/
  splitDue : Nat
  deriving DecidableEq, Repr

def Port.init : Nat → Port := fun _ =>
  ⟨false, false, 0, 0, false, 0, 0, none, false, false, 0, 0, 0, 0, 0, 17, 0, 0, 0, [], [], [], false, true, true, false,
   false, false, 0, 0⟩

/-- A copy of a node frame that the guardian and the checks of R172 accepted in the present port basic cycle. -/
structure Copy where
  /-- START of the window it came in -/
  win : Nat
  type : Nat
  seq : Nat
  last : Int
  east : Bool
  payload : List Byte
  deriving DecidableEq, Repr

/-- What the Port Hub keeps per node (R171, R183, R195, R199, R202, R217, R223, R236). -/
structure Node where
  seq : Option Nat
  entry : Option Nat
  result : Nat
  ack : Bool
  ackSched : Nat
  ackAt : Nat
  event : Nat
  diag : Nat
  maint : Nat
  leaving : Bool
  /-- charged cuts: cluster and reason, newest first (R223) -/
  cuts : List (Nat × Nat)
  quars : Nat
  quarAt : Nat
  quarantined : Bool
  held : Bool
  pollWest : Bool
  silent : Nat
  /-- copies accepted in the present port basic cycle -/
  copies : List Copy
  /-- START of the windows of this port basic cycle that a cut has been charged to (R221) -/
  charged : List Nat
  /-- START of the window whose cut quarantined the node in this port basic cycle: the windows after it are cut (R223) -/
  quarWin : Option Nat
  /-- the start errors measured in the last two port basic cycles that had one, newest first, each with its port basic cycle counted from
  cluster 0 (R217) -/
  correction : List (Int × Nat)
  request : Option (List Byte)
  deriving DecidableEq, Repr

def Node.init : Nat → Node := fun _ =>
  ⟨none, none, 0, false, 0, 0, 0, 0, 0, false, [], 0, 0, false, false, false, 0, [], [], none, [], none⟩

/-- The Port Hub. -/
structure Ph where
  regs : Regs
  shadow : Store (Option W32)
  held : List (Nat × W32)
  ports : Store Port
  nodes : Store Node
  /-- frames assembled, by node address + 2048 × (lane basic cycle mod 2): coded part, launch, and the three codes for
  each port basic cycle that starts in that lane basic cycle -/
  frames : Store (Option (List Byte × Nat × List W32))
  /-- frames for which no two lanes gave the same payload: their codes stand as formed (R14, R155) -/
  split : List Nat
  /-- start error of largest magnitude among the copies accepted in this cluster, and its node index -/
  worst : Option (Int × Nat)
  /-- the golden MISR value in the Port Hub's own fuses (R302) -/
  golden : W64
  /-- ns by which the marks have moved the schedule clock (R21) -/
  sched : Int
  deriving DecidableEq, Repr

/-- A flash slot for a Station Image (R59 to R61): STATE 0 EMPTY, 1 WRITING, 2 VALID, 3 FAILED, 4 ERASING. -/
structure FlashSlot where
  state : Nat
  bytes : Mem
  written : Store Bool
  len : Nat
  /-- CLOSE has been taken and its check runs (R60) -/
  closing : Bool
  deriving DecidableEq, Repr

/-- A firmware store of a component (R400): the Patch that wrote it, its version, and whether it is whole. -/
structure FwStore where
  part : List Byte
  version : Nat
  format : Nat
  partSeal : W64
  signed : Bool
  whole : Bool
  complete : Bool
  /-- header and signature of the Patch that wrote it -/
  header : List Byte
  signature : List Byte
  deriving DecidableEq, Repr

def FwStore.factory : Nat → FwStore := fun _ => ⟨[], 0, 0, 0, true, true, false, [], []⟩

/-- A report waiting for others to merge with (R390): the lanes that gave it. -/
structure Waiting where
  ev : Event
  lanes : BitVec 3
  deriving DecidableEq, Repr

/-- The Service Controller. -/
structure Sc where
  regs : Regs
  /-- result queues of the eight mailboxes (R73, R81), oldest first -/
  results : Store (List W64)
  /-- reports of results by lanes, not yet placed -/
  reported : List (LaneId × Result)
  /-- completion slots (R350): answered value, by slot number (0 to 7 MBX, 8 MODE, 9 to 16 WIN) -/
  done : Store W64
  dram : Mem
  host : Mem
  slotA : FlashSlot
  slotB : FlashSlot
  /-- event store in flash by sequence, and reports waiting to be merged -/
  store : Store (List Byte)
  waiting : List Waiting
  /-- records stored and not yet in flash -/
  unflushed : List Nat
  /-- the fetch that runs: first sequence, count, destination (R397) -/
  fetching : Option (Nat × Nat × Nat)
  clearing : Bool
  flushing : Bool
  /-- records stored in the running second (EVR.RATE shows those of the last one) -/
  rate : Nat
  /-- settings in flash, the working copy of a probation and the snapshot (R406, R429) -/
  settings : Store (Option W32)
  /-- changed settings not yet in flash (R429) -/
  unstored : Store (Option W32)
  snapshot : Option (Store (Option W32))
  running : Store FwStore
  fallback : Store FwStore
  patchKey : List Byte
  /-- COMPONENTS of the Patch that is PENDING, and of the one on probation (R403, R405) -/
  pending : Option Nat
  probation : Option Nat
  serviceS : Nat
  /-- the service time is exhausted: the next BOOT falls back (R407) -/
  falling : Bool
  /-- a SAFE_HALT or a watchdog has occurred in this boot (R407) -/
  watchdogSeen : Bool
  /-- the conditions of R407 have not all held through the second that runs -/
  broke : Bool
  /-- VERSION and COMPONENTS of a Patch abandoned before PENDING was set (R404) -/
  abandoned : Option (Nat × Nat)
  /-- runs of records lost at power loss, first sequence and number (R396) -/
  lostRuns : List (Nat × Nat)
  linkUp : Bool
  /-- while PERST# is asserted: the lanes whose host link was up (R440) -/
  perst : Option Nat
  keys : Store (Option W32)
  dma : DmaHold
  /-- sequences whose records BOOT has still to copy back into the buffer, newest first (R397) -/
  restoring : List Nat
  deriving DecidableEq, Repr

/-- A partner, source or peer of the federation as last heard (R264, R269, R275). -/
structure Source where
  epoch : Option Nat
  /-- last SEQUENCE accepted, by TYPE × 4 + network -/
  seqs : Store (Option Nat)
  /-- first copies waiting for their second: SEQUENCE, network, arrival, payload -/
  copies : List (Nat × Nat × Nat × List Byte)
  mode : Nat
  role : Nat
  /-- SERIAL values heard: cluster, role, epoch, serial -/
  heard : List (Nat × Nat × Nat × Nat)
  dupAt : Nat
  deriving DecidableEq, Repr

def Source.init : Nat → Source := fun _ => ⟨none, [], [], 0, 0, [], 0⟩

/-- A PTP clock on one network (R250 to R252). -/
structure Ptp where
  master : Option PtpDataset
  isMaster : Bool
  /-- twice the path delays measured, in ns, newest first, at most eight -/
  delays : List Int
  /-- the last offsets measured, newest first, at most eight -/
  offsets : List Rat
  deriving DecidableEq, Repr

/-- The federation and the pair (chapter 9). -/
structure Fed where
  sources : Store Source
  /-- consecutive basic cycles in which networks A and B delivered, and silence -/
  runA : Nat
  runB : Nat
  silA : Nat
  silB : Nat
  gotA : Bool
  gotB : Bool
  linkLostA : Bool
  linkLostB : Bool
  startState : Nat
  startSeq : Nat
  ownDup : Bool
  unaligned : Bool
  /-- pair link: basic cycles since the last PAIR_BEAT, consecutive ones with neither it nor a beacon while a port link held
  sync (R286), and the cluster of the last PAIR_BEAT and HEALTH -/
  beatSilence : Nat
  quiet : Nat
  beatCluster : Nat
  beatMode : Nat
  healthAt : Option Nat
  /-- the cluster of the last partner message accepted (R291) -/
  seenAt : Option Nat
  partnerFit : Bool
  partnerUnfit : Nat
  decided : Option (Nat × Nat)
  takeoverAt : Nat
  listenPartner : Bool
  linkUp : Bool
  partnerImage : Option Nat
  /-- active unit: the queue as last sent (R283), the cluster of the last Press sent and whether its SEED_ACK is in -/
  sentQueue : List Req
  sentCluster : Nat
  acked : Bool
  /-- the Emit of the Press last sent has run -/
  emitted : Bool
  handback : Option Nat
  final : Bool
  finalApplied : Bool
  released : Bool
  ready : Bool
  testLane : Option LaneId
  /-- seconds, plus 1, at which a lane last passed since STANDBY was entered -/
  testedAt : Store Nat
  /-- the lane that comes next in turn; void runs of the test in progress -/
  testTurn : Nat
  voids : Nat
  takeComm : List Nat
  ptpA : Ptp
  ptpB : Ptp
  /-- the network whose announce receipt timeout was started last (R250) -/
  ptpLast : Option Net
  /-- µs since the servo last accepted an offset (R253) -/
  holdUs : Nat
  /-- consecutive outliers (R253); the step by −o is due at the first offset measured (R253); a step that waits for the lane mark (R241) -/
  outRun : Nat
  stepDue : Bool
  stepNs : Option Int
  /-- in STANDBY, the offset to the active unit in ns (R257) -/
  pairOffset : Rat
  ptpValid : Bool
  deriving DecidableEq, Repr

/-- 24 V digital I/O (chapter 13): what the channels' own hardware holds. -/
structure Dio where
  demag : W64
  deferred : W64
  overload : W64
  /-- overloaded channels whose word bit has been 0 at a latch (R380) -/
  overZero : W64
  switchFault : W64
  stuckOpen : W64
  readback : W64
  /-- within 1 ms after DEMAG cleared (R379) -/
  settling : W64
  testIdx : Nat
  /-- channels dark and light tested since the last latch (R381) -/
  dark : W16
  light : W16
  /-- failing tests in a row, by channel × 6 + switch, dark ones and from key 96 light ones; read-back mismatches in a row, by channel -/
  fails : Store Nat
  rbCount : Store Nat
  disagree : Store Nat
  /-- latches in a row at which a reading lane × 6 + participation sense was wrong (R376) -/
  senseBad : Store Nat
  ok : Store Nat
  current : Store Nat
  /-- the word in force, and the bits in which it differs from the one before (R382) -/
  prevWord : W64
  changed : W64
  /-- the state of each group supply by the thresholds of R378, two bits a group; the lanes sample it and act on what they agree -/
  group : BitVec 8
  deriving DecidableEq, Repr

/-- A reset input (R307, R308). -/
structure InputState where
  released : Bool
  stuck : Bool
  deriving DecidableEq, Repr

/-- GX3-RTM16 as its EEPROM describes it (R439): its identity, and the delay of each of its 32 cages from X2 to its optical plane in units of
0.1 ns, east and west of port 0 first. -/
structure Rtm where
  identity : List Byte
  delays : List Nat
  deriving DecidableEq, Repr

/-- The module as a whole: mode, power, reset, lifecycle, authorisation, self-test (chapters 10 and 16), and time. -/
structure Sys where
  mode : Nat
  originAgreed : Bool
  cluster : Nat
  bc : Nat
  feedA : Bool
  feedB : Bool
  powerLoss : Bool
  rideOver : Bool
  holdupReady : Bool
  holdupWait : Bool
  front : InputState
  rear : InputState
  /-- an honoured edge: source, while steps 1 and 2 of R309 run -/
  rst : Option Nat
  /-- running time in µs at which that edge came (R309) -/
  rstAt : Nat
  /-- an accepted request waiting for the next boundary: the request word -/
  pendingReq : Option W32
  /-- a return to service that waits for its lane tests or the holdup (R306, R318) -/
  returning : Bool
  /-- SAFE_HALT due at the enactment time: cause -/
  pendingHalt : Option Nat
  pendingExcl : List (LaneId × Nat × Nat)
  darnDue : Bool
  fuse : Option Nat
  key : List Byte
  keySet : Bool
  challenge : Option (List Byte)
  refusals : Nat
  lockout : Bool
  /-- BIST: devices running, those of them that software started (R305), results of this start-up, lanes tested or excluded since -/
  bistRun : List Device
  bistHost : List Device
  bistBad : Nat
  bistDone : List Device
  session : Bool
  retest : List LaneId
  /-- the table of the RTM read at BOOT; none where it is absent or fails its check (R439) -/
  rtm : Option Rtm
  /-- SCOPE of the BIST run of the Port Hub that software started last (R324) -/
  hubScope : Nat
  step6 : Nat
  /-- microseconds into the running second -/
  us : Nat
  /-- Darn: tracking matches, probation clusters, clusters since the snapshot, exclusion times in s -/
  track : Nat
  probRun : Nat
  sinceSnap : Nat
  exclTimes : List (LaneId × Nat)
  /-- µs of running time at which the delay of an automatic Darn start began (R158); none once it has been asked for -/
  darnFrom : Option Nat
  /-- the write lists since the snapshot, which the joining lane applies after it: cluster, cut, what the Press committed -/
  snapLog : List (Nat × Nat × PressOut)
  seconds : Nat
  slot : Nat
  retried : Bool
  /-- this unit is active, or stopped being so in the present cluster (R278) -/
  active : Bool
  /-- a cluster boundary has passed and its express pass has not yet run -/
  boundary : Bool
  /-- the cluster origin is agreed and its first boundary, that of cluster 0, has not come (R242) -/
  preOrigin : Bool
  /-- TAG of the mode request that the next BOOT answers, 0 for none (R389) -/
  bootTag : Nat
  free : Nat
  deriving DecidableEq, Repr

/-- What leaves the module: a trace newest first, the model's own field (assumption 7). -/
inductive Output where
  | frame (port : Nat) (east west : Bool) (bytes : List Byte)
  | message (net : Net) (bytes : List Byte)
  | msix (vector : Nat)
  | completion (value : Nat)
  /-- the bytes a read of the host returns, lowest address first -/
  | readData (bytes : List Byte)
  /-- a completion as Unsupported Request (R349) -/
  | unsupported
  | forwarded (port : Nat) (bytes : List Byte)
  | ptp (net : Net) (what : Nat)
  deriving DecidableEq, Repr

/-- What one lane counts of its clock domains in the running cluster (R323). -/
structure LaneClk where
  wakes : Nat
  fastUs : Nat
  zvlUs : Nat
  deriving DecidableEq, Repr

/-- The clock domains (R18, R19): the Rinse-to-Press span holds the fast domains open, and each lane's counts. -/
structure Clks where
  span : Bool
  a : LaneClk
  b : LaneClk
  c : LaneClk
  deriving DecidableEq, Repr

/-- The MSI-X structures of BAR0 (R344, R426): the 32 entries of the table as dwords, four an entry (address low and high, data, vector
control), and the pending bits, as PCI Express lays them out (PRESUMED, assumption 103). -/
structure Msix where
  table : Store W32
  pend : W32
  deriving DecidableEq, Repr

/-- The module. -/
structure Mach where
  sys : Sys
  a : Lane
  b : Lane
  c : Lane
  ph : Ph
  sc : Sc
  fed : Fed
  dio : Dio
  /-- next REQ_SEQ to be assigned (R79) -/
  nextSeq : Nat
  /-- the last REQ_SEQ assigned, 0 before the first (R283) -/
  lastSeq : Nat
  out : List Output
  clk : Clks
  msi : Msix
  deriving DecidableEq, Repr

/-- The state: the module and the commands that wait, first in, first out. -/
structure State where
  m : Mach
  pending : List Instr
  deriving DecidableEq, Repr

/-- Why the block stops with a fault. The manual gives every command of the table an effect in every state, so no meaning
raises one; the constructor stands for an operand that no command of the row can carry (safe: nothing is concluded of
such a step). -/
inductive Fault where
  /-- Raised by nothing. -/
  | impossible
  deriving DecidableEq, Repr

/-- Why a command has no meaning here. -/
inductive Refusal where
  /-- Raised by a dispatch arm that has no meaning yet (safe: the step stops). -/
  | notModelled (mnemonic : String)
  deriving DecidableEq, Repr

/-! ### Reset -/

def Rte.reset : Rte :=
  ⟨[], 0, InputSet.empty, false, [], [], [], [], [], [], [], [], none, [], [], [], [], [], [], [], [], [], [], [], 0⟩

def Zvl.reset : Zvl := ⟨[], [], [], [], [], 0, false, [], false, [], [], [], []⟩

/-- RATE resets to 20 ns per tick (R428); the counter to zero (R238). -/
def Time.reset : Time :=
  ⟨0, 0, 0, 0x1400000000, 0, 0, 0, 0, 0, none, none, none, none, none, 0, 0, 0, false⟩

def DmaHold.reset : DmaHold := ⟨[], []⟩

def Lane.reset : Lane :=
  ⟨.serving, false, true, [], [], [], [], [], [], false, false, false, false, 0, none, [], Rte.reset, Zvl.reset, Time.reset,
   InputSet.empty, InputSet.empty, [], [], [], Seedbank.empty, [], [], 0, 0, [], [], 0, 0, none, false, [], 0, 3, 0, 0, DmaHold.reset⟩

def Ph.reset : Ph := ⟨[], [], [], [], [], [], [], none, 0, 0⟩

def FlashSlot.empty : FlashSlot := ⟨0, [], [], 0, false⟩

def Sc.reset : Sc :=
  ⟨[], [], [], [], [], [], FlashSlot.empty, FlashSlot.empty, [], [], [], none, false, false, 0, [], [], none, [], [], [],
   none, none, 0, false, false, false, none, [], false, none, [], DmaHold.reset, []⟩

def Ptp.reset : Ptp := ⟨none, false, [], []⟩

def Fed.reset : Fed :=
  ⟨[], 0, 0, 255, 255, false, false, false, false, 0, 0, false, false, 255, 0, 0, 0, none, none, false, 0, none, 0, false, true,
   none, [], 0, true, false, none, false, false, false, false, none, [], 0, 0, [],
   Ptp.reset, Ptp.reset, none, 0, 0, false, none, 0, false⟩

def Dio.reset : Dio := ⟨0, 0, 0, 0, 0, 0, 0, 0, 0, 0, 0, [], [], [], [], [], [], 0, 0, 0⟩

/-- Right after reset the module is in BOOT (R428: SYS.STATUS resets to 0x0000_0002); the values the manual gives no reset
for are those of the assumption log (assumptions 1 to 5). -/
def Sys.reset : Sys :=
  ⟨2, false, 0, 0, false, false, false, false, false, false, ⟨false, false⟩, ⟨false, false⟩, none, 0, none, false, none, [], false,
   none, [], false, none, 0, false, [], [], 0, [], false, [], none, 0, 0, 0, 0, 0, 0, [], none, [], 0, 0, false, false, false, false, 0, 0⟩

/-- ID of every page of the lane at a position: INSTANCE from its strap (R415, R428). -/
def strapIds (inst : Nat) : List (Nat × W32) :=
  (List.range 14).map (fun k => (0x40000000 + 0x1000 * k, BitVec.ofNat 32 (0x0100A001 + inst * 0x10000 + k)))

def LaneClk.reset : LaneClk := ⟨0, 0, 0⟩

def Clks.reset : Clks := ⟨false, LaneClk.reset, LaneClk.reset, LaneClk.reset⟩

/-- A dword of the table after a reset of the endpoint: every vector masked, the rest zero (assumption 103). -/
def msixDword (k : Nat) : W32 := if k % 4 = 3 then 1 else 0

def Msix.reset : Msix := ⟨[], 0⟩

def Mach.reset : Mach :=
  ⟨Sys.reset, Lane.reset, { Lane.reset with regs := strapIds 1 }, { Lane.reset with regs := strapIds 2 }, Ph.reset, Sc.reset,
   Fed.reset, Dio.reset, 1, 0, [], Clks.reset, Msix.reset⟩

/-- The machine right after reset: nothing waits. -/
def State.reset : State := ⟨Mach.reset, []⟩

end Sys2Proof.Machine
end

