-- ==== Sys2Proof/Machine/Ops.lean ====
section
/-!
DEFINITION. Machine/Ops.lean: the named operations over the module's registers, lanes, interrupts, event records and
modes, on which every meaning rests. A change of mode, the entry into SAFE_HALT, an interrupt and an event record are each
ONE operation here.
-/
namespace Sys2Proof.Machine

/-! ### Register files -/

/-- The register at an address of a file (R428 gives what an unlisted one reads). -/
def Regs.get (r : Regs) (a : Nat) : W32 := Store.get resetValue r a

/-- Write a whole register. -/
def Regs.set (r : Regs) (a : Nat) (v : W32) : Regs := Store.set resetValue r a v

/-- A field of a register file. -/
def Regs.fld (r : Regs) (f : Field) : Nat := bitsOf (Regs.get r f.addr).toNat f.hi f.lo

/-- Write a field; the register's other bits stay. -/
def Regs.put (r : Regs) (f : Field) (v : Nat) : Regs :=
  Regs.set r f.addr (BitVec.ofNat 32 (setBits (Regs.get r f.addr).toNat f.hi f.lo v))

/-- Add one, saturating at the field's width (`saturating` in a register table). -/
def Regs.inc (r : Regs) (f : Field) : Regs := Regs.put r f (satAt (f.hi + 1 - f.lo) (Regs.fld r f + 1))

/-- Add `n`, wrapping at the field's width (`wrapping` in a register table). -/
def Regs.addWrap (r : Regs) (f : Field) (n : Nat) : Regs := Regs.put r f (Regs.fld r f + n)

/-- Set bit `i` of the register at an address. -/
def Regs.setBit (r : Regs) (a i : Nat) (b : Bool) : Regs :=
  Regs.set r a (BitVec.ofNat 32 (putBit (Regs.get r a).toNat i b))

/-- Add one to a whole register, saturating (ERR_COUNT, R415). -/
def Regs.incReg (r : Regs) (a : Nat) : Regs := Regs.set r a (BitVec.ofNat 32 (satAt 32 ((Regs.get r a).toNat + 1)))

/-! ### Lanes -/

def Mach.lane (m : Mach) : LaneId → Lane
  | .a => m.a
  | .b => m.b
  | .c => m.c

def Mach.setLane (m : Mach) (l : LaneId) (x : Lane) : Mach :=
  match l with
  | .a => { m with a := x }
  | .b => { m with b := x }
  | .c => { m with c := x }

def Mach.updLane (m : Mach) (l : LaneId) (f : Lane → Lane) : Mach := m.setLane l (f (m.lane l))

/-- The same change in every lane. -/
def Mach.mapLanes (m : Mach) (f : Lane → Lane) : Mach := { m with a := f m.a, b := f m.b, c := f m.c }

/-- A change in every lane for which `p` holds. -/
def Mach.mapIf (m : Mach) (p : Lane → Bool) (f : Lane → Lane) : Mach :=
  m.mapLanes (fun x => if p x then f x else x)

def laneIds : List LaneId := [.a, .b, .c]

def laneIx : LaneId → Nat
  | .a => 0
  | .b => 1
  | .c => 2

def laneOf (n : Nat) : LaneId := if n = 0 then .a else if n = 1 then .b else .c

def Lane.isServing (x : Lane) : Bool := x.role == .serving

/-- A lane that follows the cycle: serving, or joining from cut-over on (step 8 of R159). -/
def Lane.follows (x : Lane) : Bool := x.role == .serving || x.probation

def Mach.serving (m : Mach) : List LaneId := laneIds.filter (fun l => (m.lane l).isServing)

/-- Lanes as a 3-bit set, bit 0 lane A. -/
def laneSet (p : LaneId → Bool) : Nat := b2n (p .a) + 2 * b2n (p .b) + 4 * b2n (p .c)

def Mach.servingSet (m : Mach) : Nat := laneSet (fun l => (m.lane l).isServing)

/-- A test of the lane runs: it is isolated, and its links carry nothing (R304). -/
def Mach.laneTested (m : Mach) (l : LaneId) : Bool := m.sys.bistRun.contains (.lane l) || decide (m.fed.testLane = some l)

/-- A test of the Port Hub runs: its ports are dark and its links carry nothing (R304). -/
def Mach.hubTested (m : Mach) : Bool := m.sys.bistRun.contains .portHub

/-- The serving lanes that are not isolated: they alone compare, deliver and sample (R304). -/
def Mach.voters (m : Mach) : List LaneId := m.serving.filter (fun l => !m.laneTested l)

/-- The lane whose copy stands for what the lanes hold alike: the first, in the order A, B, C, that serves, is not isolated and has its
image, else the first that is not isolated, else the first that serves (lane A when none does). -/
def Mach.lead (m : Mach) : LaneId :=
  (m.voters.filter (fun l => (m.lane l).loaded) ++ m.voters ++ m.serving).headD .a

def Mach.leadLane (m : Mach) : Lane := m.lane m.lead

/-- A module-wide register field, as the first serving lane holds it. -/
def Mach.fld (m : Mach) (f : Field) : Nat := m.leadLane.regs.fld f

/-- Write a module-wide register field in every lane. -/
def Mach.putAll (m : Mach) (f : Field) (v : Nat) : Mach := m.mapLanes (fun x => { x with regs := x.regs.put f v })

def Mach.incAll (m : Mach) (f : Field) : Mach := m.mapLanes (fun x => { x with regs := x.regs.inc f })

def Mach.setAllReg (m : Mach) (a : Nat) (v : W32) : Mach := m.mapLanes (fun x => { x with regs := x.regs.set a v })

def Mach.incAllReg (m : Mach) (a : Nat) : Mach := m.mapLanes (fun x => { x with regs := x.regs.incReg a })

def Mach.putPh (m : Mach) (f : Field) (v : Nat) : Mach := { m with ph := { m.ph with regs := m.ph.regs.put f v } }
def Mach.incPh (m : Mach) (f : Field) : Mach := { m with ph := { m.ph with regs := m.ph.regs.inc f } }
def Mach.incPhReg (m : Mach) (a : Nat) : Mach := { m with ph := { m.ph with regs := m.ph.regs.incReg a } }
def Mach.putSc (m : Mach) (f : Field) (v : Nat) : Mach := { m with sc := { m.sc with regs := m.sc.regs.put f v } }
def Mach.incSc (m : Mach) (f : Field) : Mach := { m with sc := { m.sc with regs := m.sc.regs.inc f } }
def Mach.incScReg (m : Mach) (a : Nat) : Mach := { m with sc := { m.sc with regs := m.sc.regs.incReg a } }
def Mach.updSys (m : Mach) (f : Sys → Sys) : Mach := { m with sys := f m.sys }
/-- What a unit of a lane or of the Service Controller does: nothing in OFF and DORMANT, where it has no power (R20, R320). -/
def Mach.whenOn (m : Mach) (f : Mach → Mach) : Mach := if m.sys.mode < 2 then m else f m

def Mach.emit (m : Mach) (o : Output) : Mach := { m with out := o :: m.out }

/-! ### Blocks and interrupts (R416, R356) -/

/-- Which device holds a block's page (R425). -/
inductive Home where
  | lane | hub | ctl
  deriving DecidableEq, Repr

def blkHome : Blk → Home
  | .phb | .ttp _ | .stg => .hub
  | .hbr | .evr | .upd | .scdma | .mbx => .ctl
  | _ => .lane

/-- INT_RAW AND INT_ENABLE of a block's page (R416). -/
def Regs.pendingOf (r : Regs) (b : Blk) : W32 := Regs.get r (blkBase b + 0x10) &&& Regs.get r (blkBase b + 0x14)

/-- The pending set of a block as the host sees it: for a lane block, of every lane whose host link is up (R356). -/
def Mach.pendingSet (m : Mach) (b : Blk) : W32 :=
  match blkHome b with
  | .hub => m.ph.regs.pendingOf b
  | .ctl => m.sc.regs.pendingOf b
  | .lane =>
    let p := fun (x : Lane) => if x.hostLink then x.regs.pendingOf b else 0
    p m.a ||| p m.b ||| p m.c

/-- The MSI-X vector of a block (R427); the lane DMA blocks have one per lane. -/
def blkVector : Blk → Option Nat
  | .sys => some 9 | .clk => some 17 | .tsu => some 14 | .rte => some 13 | .zvl => some 12 | .vot => some 11
  | .crc => some 25 | .dma => none | .evl => none | .bst => some 17 | .red => some 10 | .sdb => some 15
  | .fed => some 15 | .dio => some 18 | .phb => some 16 | .ttp _ => some 16 | .stg => some 16
  | .hbr => some 0 | .evr => some 19 | .upd => some 20 | .scdma => some 24 | .mbx => none

/-- The mask bit of a vector in the MSI-X table. -/
def Msix.masked (x : Msix) (v : Nat) : Bool := bitOf (Store.get msixDword x.table (4 * v + 3)).toNat 0

/-- A vector is sent, or, masked in the MSI-X table, kept in the pending-bit array (R356). -/
def Mach.sendVector (m : Mach) (v : Nat) : Mach :=
  if m.msi.masked v then { m with msi := { m.msi with pend := BitVec.ofNat 32 (putBit m.msi.pend.toNat v true) } }
  else m.emit (.msix v)

/-- Send a block's vector when its pending set has become non-zero (R356). -/
def Mach.vectorIf (m m' : Mach) (b : Blk) : Mach :=
  match blkVector b with
  | some v => if m.pendingSet b = 0 ∧ m'.pendingSet b ≠ 0 then m'.sendVector v else m'
  | none => m'

/-- The vectors of the lane blocks in which a change has set bits of INT_RAW (R356). -/
def Mach.vectored (m : Mach) (bs : List Blk) (m' : Mach) : Mach := bs.foldl (fun k b => m.vectorIf k b) m'

/-- The vectors of the lane DMA blocks: 21, 22, 23 (R427). -/
def Mach.dmaVectorIf (m m' : Mach) (l : LaneId) : Mach :=
  if (m.lane l).regs.pendingOf .dma = 0 ∧ (m'.lane l).regs.pendingOf .dma ≠ 0 ∧ (m'.lane l).hostLink
  then m'.sendVector (21 + laneIx l) else m'

/-- An event sets its bit of INT_RAW in every lane (R416). -/
def Mach.raiseAll (m : Mach) (b : Blk) (i : Nat) : Mach :=
  m.vectorIf (m.mapLanes (fun x => { x with regs := x.regs.setBit (blkBase b + 0x10) i true })) b

/-- An event of one lane. -/
def Mach.raiseLane (m : Mach) (l : LaneId) (b : Blk) (i : Nat) : Mach :=
  let m' := m.updLane l (fun x => { x with regs := x.regs.setBit (blkBase b + 0x10) i true })
  if b = .dma then m.dmaVectorIf m' l else m.vectorIf m' b

/-- An event of a Port Hub block. -/
def Mach.raisePh (m : Mach) (b : Blk) (i : Nat) : Mach :=
  m.vectorIf { m with ph := { m.ph with regs := m.ph.regs.setBit (blkBase b + 0x10) i true } } b

/-- An event of a Service Controller block. -/
def Mach.raiseSc (m : Mach) (b : Blk) (i : Nat) : Mach :=
  m.vectorIf { m with sc := { m.sc with regs := m.sc.regs.setBit (blkBase b + 0x10) i true } } b

/-- Count in a block's ERR_COUNT and keep ERR_ADDR (R415), in the device that holds it. -/
def Mach.errAt (m : Mach) (b : Blk) (addr : Nat) : Mach :=
  let f := fun (r : Regs) => (r.incReg (blkBase b + 0x20)).set (blkBase b + 0x24) (BitVec.ofNat 32 addr)
  match blkHome b with
  | .hub => { m with ph := { m.ph with regs := f m.ph.regs } }
  | .ctl => { m with sc := { m.sc with regs := f m.sc.regs } }
  | .lane => m.mapLanes (fun x => { x with regs := f x.regs })

/-- Count in a block's ERR_COUNT. -/
def Mach.err (m : Mach) (b : Blk) : Mach :=
  match blkHome b with
  | .hub => m.incPhReg (blkBase b + 0x20)
  | .ctl => m.incScReg (blkBase b + 0x20)
  | .lane => m.incAllReg (blkBase b + 0x20)

/-! ### Time -/


/-- The cluster number as lanes and Port Hub hold and show it (R114, R206, R242). -/
def Mach.setCluster (m : Mach) (c : Nat) : Mach :=
  (((m.updSys (fun s => { s with cluster := c })).putAll F.RTE_CLUSTER_LO_CLUSTER_LO c).putAll F.RTE_CLUSTER_HI_CLUSTER_HI
    (c / 2 ^ 32)).putPh F.PHB_CLUSTER_LO_CLUSTER c

/-- Clusters since the last accepted HEALTH (R282); 2 while none has come. -/
def Mach.healthAge (m : Mach) : Nat := match m.fed.healthAt with | some c => m.sys.cluster - c | none => 2

/-- Module time of the boundary of a cluster (R242). -/
def Mach.boundaryNs (m : Mach) (c : Nat) : Nat := m.leadLane.time.origin + c * 4000000

/-- The ns a lane reads at a counter value (R239): BASE + ⌊(C − CREF) × RATE ÷ 2³²⌋. -/
def Time.at (t : Time) (c : Nat) : Nat := t.base + (c - t.cref) * t.rate / 2 ^ 32

/-- Module time of the present lane mark: of the cluster number and basic cycle once marks exist (R138, R242), before that
what the first serving lane reads (R239). -/
def Mach.nowNs (m : Mach) : Nat :=
  let t := m.leadLane.time
  if m.sys.originAgreed && !m.sys.preOrigin then t.origin + (m.sys.cluster * 16 + m.sys.bc) * 250000 else t.at t.count

/-- Take the next value of the free-value counter. -/
def Mach.fresh (m : Mach) : Nat × Mach := (m.sys.free, m.updSys (fun s => { s with free := s.free + 1 }))

/-- The modes in which a unit is active (R277). The codes of R7: 1 DORMANT, 2 BOOT, 3 SELF_TEST, 4 LOAD, 5 PROVING, 6 SERVICE_3,
7 SERVICE_2, 8 STANDBY, 9 TAKEOVER, 10 DARN, 11 HANDBACK, 12 MAINTENANCE, 13 UPDATE, 14 SAFE_HALT; 0 stands for OFF. -/
def modeActive (k : Nat) : Bool := k == 5 || k == 6 || k == 7 || k == 9 || k == 10 || k == 11

/-- The modes with steps allowed (R241): BOOT, SELF_TEST, LOAD, STANDBY, MAINTENANCE, UPDATE. -/
def modeSteps (k : Nat) : Bool := k == 2 || k == 3 || k == 4 || k == 8 || k == 12 || k == 13

/-! ### Event records (R386 to R393) -/

/-- Codes marked Flush in R389; MODE_CHANGE only when the new mode is 14. -/
def flushCode (e : Event) : Bool :=
  (e.code = 0x0001 && e.p1 = 14) ||
  [0x0002, 0x0003, 0x0004, 0x0010, 0x0011, 0x1001, 0x1003, 0x3002, 0x7002, 0x7003, 0x7004, 0x7005, 0x7006, 0x7007].contains
    e.code

/-- The event staging region of R29 holds 512 MB: 16,777,216 records of 32 B (R391). -/
def stagingMax : Nat := 16777216

/-- Federation time is valid, as the lane shows it (R253). -/
def Lane.fedTime (x : Lane) : Bool := decide (x.regs.fld F.TSU_STATUS_FED_TIME_VALID = 1)

/-- One record into the event staging of a lane, with FED_TIME and DELAYED as they are now; with the region full it is lost and
counted (R387, R391). -/
def Lane.stage (x : Lane) (e : Event) : Lane :=
  if x.events.length < stagingMax then
    { x with events := x.events ++ [{ e with delayed := !x.hostLink, fed := x.fedTime }],
             regs := x.regs.put F.EVL_STAGED_KBYTES ((x.events.length + 1) * 32 / 1024) }
  else { x with evLost := x.evLost + 1,
                regs := (x.regs.inc F.EVL_LOST_COUNT).setBit (blkBase .evl + 0x10) I.EVL_LOST true }

/-- A lane writes a record (R390) at an instant of its own; after some were lost the next one, once there is room, is RECORDS_LOST with
their number and that instant (R388, R391). -/
def Lane.addEventAt (x : Lane) (now : Nat) (e : Event) : Lane :=
  (if x.evLost ≠ 0 ∧ x.events.length < stagingMax then
    ({ x with evLost := 0 } : Lane).stage ⟨0x7002, now, 1, x.evLost, x.regs.fld F.VOT_LANE_LANE, 0, false, false⟩
  else x).stage e

/-- A lane writes a record whose TIME is that instant. -/
def Lane.addEvent (x : Lane) (e : Event) : Lane := x.addEventAt e.time e

/-- An event record of the lanes: every serving lane stages it with the same TIME (R388). -/
def Mach.record (m : Mach) (code p0 p1 p2 p3 : Nat) : Mach :=
  m.mapIf (fun x => x.role != .excluded) (fun x => x.addEvent ⟨code, m.nowNs, p0, p1, p2, p3, false, false⟩)

/-- An event record of one lane about itself. -/
def Mach.recordLane (m : Mach) (l : LaneId) (code p0 p1 p2 p3 : Nat) : Mach :=
  m.updLane l (fun x => x.addEvent ⟨code, m.nowNs, p0, p1, p2, p3, false, false⟩)

/-- The next storage sequence: modulo 2^32, skipping 0xFFFF_FFFF (R392). -/
def nextSequence (s : Nat) : Nat := if s + 1 ≥ 0xFFFFFFFF then 0 else s + 1

/-- The slot of a sequence in the buffer (R392). -/
def bufferSlot (s : Nat) : Nat := 0x40000000 + s % 2 ^ 25 * 32

/-- FLAGS of R387. -/
def eventFlags (lanes : Nat) (merged : Bool) (origin : Nat) (delayed scTime fed : Bool) : Nat :=
  lanes * 2 ^ 13 + b2n merged * 2 ^ 12 + origin * 2 ^ 8 + b2n delayed * 2 ^ 7 + b2n scTime * 2 ^ 6 + b2n fed * 2 ^ 5

/-- A flush of the waiting records falls due (R395). -/
def Mach.startFlush (m : Mach) : Mach :=
  { m with sc := { m.sc with flushing := true, regs := m.sc.regs.put F.EVR_STATUS_FLUSHING 1 } }

/-- The 32 bytes of a record (R386). -/
def recordBytes (e : Event) (flags seq : Nat) : List Byte :=
  be 2 e.code ++ be 2 flags ++ be 4 seq ++ be 8 e.time ++ be 4 e.p0 ++ be 4 e.p1 ++ be 4 e.p2 ++ be 4 e.p3

/-- The oldest sequence still held in a ring of `n` slots when the record of `seq` takes its slot: past the slot's old record (R393), which is
the one `n` sequences earlier; the slot that a wrap of the sequence passes over holds no record of this pass (R392). -/
def pastSlot (n seq tail : Nat) : Nat :=
  let old := (seq + 2 ^ 32 - n) % 2 ^ 32
  if old = tail ∨ newer 32 old tail then nextSequence old else tail

/-- The Service Controller stores a record (R392, R393): sequence, buffer slot, EVR registers, and a flush for the codes
marked Flush (R389, R395) or when 2 MB of records wait. -/
def Mach.storeRecord (m : Mach) (e : Event) (lanes : Nat) (merged : Bool) (origin : Nat) : Mach :=
  let seq := m.sc.regs.fld F.EVR_HEAD_SEQUENCE
  let tail := m.sc.regs.fld F.EVR_TAIL_SEQUENCE
  let flags := eventFlags lanes merged origin e.delayed (origin != 1 && origin != 2) e.fed
  let tail' := pastSlot (2 ^ 25) seq tail
  let un := m.sc.unflushed ++ [seq]
  let r := ((m.sc.regs.put F.EVR_HEAD_SEQUENCE (nextSequence seq)).put F.EVR_TAIL_SEQUENCE tail').put
    F.EVR_UNFLUSHED_RECORDS un.length
  let m := { m with sc := ({ m.sc with
    regs := r
    dram := m.sc.dram.write (bufferSlot seq) (recordBytes e flags seq)
    rate := m.sc.rate + 1
    unflushed := un }) }
  let m := if flushCode e || decide (un.length * 32 ≥ 2 * 1024 * 1024) then m.startFlush else m
  m.raiseSc .evr I.EVR_RECORD

/-- An event record of the Service Controller, TIME from its copy of module time (R388). -/
def Mach.scRecord (m : Mach) (code p0 p1 p2 p3 : Nat) : Mach :=
  m.storeRecord ⟨code, m.nowNs, p0, p1, p2, p3, false, m.fed.ptpValid⟩ 0 false 3

/-- An event record of Sprout. -/
def Mach.sproutRecord (m : Mach) (code p0 p1 p2 p3 : Nat) : Mach :=
  m.storeRecord ⟨code, m.nowNs, p0, p1, p2, p3, false, m.fed.ptpValid⟩ 0 false 4

/-! ### Clock domains (R18 to R20, R295, R323) -/

/-- Both domains run without gating: BOOT, SELF_TEST and LOAD (R295). -/
def modeOpen (k : Nat) : Bool := k == 2 || k == 3 || k == 4

/-- The modes with express-pass slots (R295): those with scheduled slots, MAINTENANCE and SAFE_HALT. -/
def modePasses (k : Nat) : Bool := k == 5 || k == 6 || k == 7 || k == 9 || k == 10 || k == 11 || k == 12 || k == 14

def Clks.of (c : Clks) : LaneId → LaneClk
  | .a => c.a
  | .b => c.b
  | .c => c.c

def Clks.upd (c : Clks) (l : LaneId) (f : LaneClk → LaneClk) : Clks :=
  match l with
  | .a => { c with a := f c.a }
  | .b => { c with b := f c.b }
  | .c => { c with c := f c.c }

def Mach.updClk (m : Mach) (l : LaneId) (f : LaneClk → LaneClk) : Mach := { m with clk := m.clk.upd l f }

/-- Seedbank work of a standby is under way (R295). -/
def Mach.seedWork (m : Mach) : Bool := decide (m.sys.mode = 8) && !m.leadLane.sb.rx.isEmpty

/-- Work of an unscheduled slot is under way in the lane: a transfer, a scan, a test, Seedbank work of a standby. -/
def Mach.laneWorks (m : Mach) (l : LaneId) : Bool :=
  decide ((m.lane l).regs.fld (F.DMA_BUSY_ACTIVE laneDma) ≠ 0) ||
  (List.range 2).any (fun e => decide ((m.lane l).regs.fld (F.CRC_SCANm_STATUS_STATE e) = 1)) || (m.lane l).scanned || m.laneTested l ||
  m.seedWork

/-- The fast domain is open: while the mode gates nothing, in the Rinse-to-Press span, and until the work of every slot is done
(R18, R19); never in OFF and DORMANT (R20). -/
def Mach.fastOpen (m : Mach) (l : LaneId) : Bool := decide (2 ≤ m.sys.mode) && (modeOpen m.sys.mode || m.clk.span || m.laneWorks l)

/-- The ZVL domain is open between commands: while the mode gates nothing, during a lane's test and in a standby's Seedbank work; a
pass opens and closes it. -/
def Mach.zvlOpen (m : Mach) (l : LaneId) : Bool := decide (2 ≤ m.sys.mode) && (modeOpen m.sys.mode || m.laneTested l || m.seedWork)

/-- CLK.DOMAINS of a lane (R323). -/
def Mach.domains (m : Mach) (l : LaneId) : Nat := 2 * b2n (m.zvlOpen l) + b2n (m.fastOpen l)

/-- An unscheduled slot (R18): it opens a closed fast domain and counts, and an open one serves it as it is (R19). How long its work
takes is left open (assumption 63). -/
def Mach.wakeLane (m : Mach) (l : LaneId) : Mach :=
  if m.sys.mode < 2 ∨ m.fastOpen l then m
  else m.updClk l (fun c => { c with
    wakes := c.wakes + 1, fastUs := c.fastUs + Config.wakeUs (laneIx l) m.sys.cluster c.wakes })

def Mach.wakeLanes (m : Mach) (ls : List LaneId) : Mach := ls.foldl Mach.wakeLane m

/-- A frame that the lanes take in while their fast domain is gated: an unscheduled slot of every lane not excluded (R18). -/
def Mach.wakeForFrame (m : Mach) : Mach := m.wakeLanes (laneIds.filter (fun l => decide ((m.lane l).role ≠ .excluded)))

/-- The State Image scan holds engine 0 from basic cycle 14 to the image window of the next basic cycle 0 (R147). -/
def Mach.scanReserved (m : Mach) (l : LaneId) (e : Nat) : Bool :=
  decide (e = 0) && (m.lane l).scanned && (decide (14 ≤ m.sys.bc) || decide (m.sys.bc = 0))

/-- The scheduled slot of an express pass of `us` µs, opened 20 µs before it (R18); with the fast domain open anyway, that is
shared (R19). -/
def Mach.passSlot (m : Mach) (us : Nat) : Mach :=
  laneIds.foldl (fun (m : Mach) l =>
    if (m.lane l).role = .excluded then m
    else m.updClk l (fun c => { c with
      zvlUs := if m.zvlOpen l then c.zvlUs else c.zvlUs + 20 + us
      fastUs := if m.fastOpen l then c.fastUs else c.fastUs + 20 + us })) m

/-- `us` µs pass: a domain that work of an unscheduled slot holds open counts them; the span counts its own at its end. -/
def Mach.openTime (m : Mach) (us : Nat) : Mach :=
  laneIds.foldl (fun (m : Mach) l => m.updClk l (fun c => { c with
    zvlUs := if m.zvlOpen l then c.zvlUs + us else c.zvlUs
    fastUs := if m.fastOpen l && !m.clk.span then c.fastUs + us else c.fastUs })) m

/-- The Rinse-to-Press span ends `us` µs after its boundary. -/
def Mach.closeSpan (m : Mach) (us : Nat) : Mach :=
  if !m.clk.span then m
  else laneIds.foldl (fun (m : Mach) l =>
    if (m.lane l).role = .excluded then m else m.updClk l (fun c => { c with fastUs := c.fastUs + 20 + us }))
    { m with clk := { m.clk with span := false } }

/-- A cluster boundary: CLK.OPEN_TIME and CLK.WAKES show the cluster that ends, and the next one counts afresh; `span`: the
interlocking cycle runs in it. -/
def Mach.clkBoundary (m : Mach) (span : Bool) : Mach :=
  let m := m.closeSpan 4000
  let all := modeOpen m.sys.mode
  let m := laneIds.foldl (fun (m : Mach) l =>
    let c := m.clk.of l
    m.updLane l (fun x => { x with regs := (((x.regs.put F.CLK_OPEN_TIME_FAST_US (if all then 4000 else min c.fastUs 65535)).put
      F.CLK_OPEN_TIME_ZVL_US (if all then 4000 else min c.zvlUs 65535)).put F.CLK_WAKES_UNSCHEDULED (min c.wakes 65535)) })) m
  { m with clk := { Clks.reset with span := span } }

/-! ### Locks (R419, R420) -/

def laneBlks : List Blk := [.sys, .clk, .tsu, .rte, .zvl, .vot, .crc, .dma, .evl, .bst, .red, .sdb, .fed, .dio]

def hubBlks : List Blk :=
  [.phb, .stg] ++ (List.finRange 16).map Blk.ttp

/-- The modes in which no lock of a lane or Port Hub block can be open (R420). -/
def modeLocks (k : Nat) : Bool := k == 5 || k == 6 || k == 7 || k == 9 || k == 10 || k == 11

/-- Close the locks of a set of blocks and clear ARMED. -/
def Regs.closeLocks (r : Regs) (bs : List Blk) : Regs := bs.foldl (fun r b => r.set (blkBase b + 0x28) 0) r

/-- R420: at the entry into one of those modes every open lock of the lanes and the Port Hub closes. -/
def Mach.closeLocks (m : Mach) : Mach :=
  let m := m.mapLanes (fun x => { x with regs := x.regs.closeLocks laneBlks })
  { m with ph := { m.ph with regs := m.ph.regs.closeLocks hubBlks } }

/-! ### Roles -/

def Mach.roleSet (m : Mach) (r : Role) : Nat := laneSet (fun l => (m.lane l).role == r)

/-- VOT.SERVING and VOT.STATUS as the roles stand. -/
def Mach.refreshServing (m : Mach) : Mach :=
  let s := m.roleSet .serving
  let e := m.roleSet .excluded
  let j := m.roleSet .joining
  m.mapLanes (fun x => { x with regs :=
    (((((((x.regs.put F.VOT_SERVING_SERVING s).put F.VOT_SERVING_EXCLUDED e).put F.VOT_SERVING_JOINING j).put
      F.VOT_STATUS_SERVING (b2n (x.role == .serving))).put F.VOT_STATUS_EXCLUDED (b2n (x.role == .excluded))).put
      F.VOT_STATUS_JOINING (b2n (x.role == .joining))).put F.VOT_STATUS_PROBATION (b2n x.probation)) })

/-- Running time, µs. -/
def Mach.upUs (m : Mach) : Nat := m.sys.seconds * 1000000 + m.sys.us

/-- The serving lanes have taken the snapshot of R159 step 6. -/
def Mach.snapTaken (m : Mach) : Bool := m.a.snap.isSome || m.b.snap.isSome || m.c.snap.isSome

/-- No snapshot, and no write list that follows one. -/
def Mach.dropSnap (m : Mach) : Mach :=
  (m.mapLanes (fun x => { x with snap := none })).updSys (fun s => { s with snapLog := [], sinceSnap := 0 })

/-- A Darn in progress ends when the module leaves DARN by another way than R159 and R160 (R156): the joining lane is an
excluded lane again. -/
def Mach.dropJoiner (m : Mach) : Mach :=
  let m := m.mapLanes (fun x => { x with role := if x.role == .joining then .excluded else x.role, probation := false,
                                         regs := (x.regs.put F.RED_STATUS_DARN_ACTIVE 0).put F.RED_DARN_STATUS_STEP 0 })
  (m.dropSnap.updSys (fun s => { s with track := 0, probRun := 0 })).refreshServing

/-! ### Modes (R292, R316) -/

/-- A request that a transition overtakes ends SUPERSEDED and is never carried out later (R294). -/
def Mach.supersede (m : Mach) : Mach :=
  match m.sys.pendingReq with
  | none => m
  | some _ => (m.putAll F.SYS_MODE_RESULT_RESULT 6).updSys (fun s => { s with pendingReq := none })

/-- A return to service that waits for its tests or the holdup is overtaken by another cause (R294). -/
def Mach.overtaken (m : Mach) : Mach :=
  if m.sys.returning then (m.putAll F.SYS_MODE_RESULT_RESULT 6).updSys (fun s => { s with returning := false, holdupWait := false })
  else m

/-- Every transition (R292): SYS.STATUS, MODE_HIST, the interrupt, the event record, the locks of R420, the session of
R305, and the flush of R395; a request that waited in the mode left is overtaken (R294). `p2` is the SAFE_HALT cause or the TAG of the request. -/
def Mach.setMode (m : Mach) (k p2 : Nat) : Mach :=
  let old := m.sys.mode
  let m := (m.supersede).overtaken
  let m := if modeActive k then m else m.closeSpan (m.sys.bc * 250)
  let m := m.mapLanes (fun x => { x with regs :=
    (((((x.regs.put F.SYS_STATUS_PREV_MODE old).put F.SYS_STATUS_MODE k).put F.SYS_MODE_HIST_FROM old).put
      F.SYS_MODE_HIST_TO k).inc F.SYS_MODE_HIST_COUNT) })
  let m := m.updSys (fun s => { s with mode := k, session := if old = 12 then false else s.session })
  let m := if old = 12 then m.putAll F.BST_STATUS_SESSION 0 else m
  let m := if modeActive k || k == 8 then m else m.putAll F.SDB_ROLE_ROLE 0
  let m := if k == 8 then m else (m.putAll F.SDB_STATUS_CURRENT 0).putAll F.SDB_STATUS_STALE 0
  let m := if modeActive k then m else m.putAll F.SDB_STATUS_GATING 0
  let m := if old = 8 then ({ m with fed := { m.fed with pairOffset := 0 } }).putAll F.TSU_PAIR_OFFSET_OFFSET_NS 0 else m
  let m := if modeLocks k then m.closeLocks else m
  let m := if old = 10 then m.dropJoiner else m
  let m := if modePasses k then m else m.putAll F.ZVL_STATUS_ACTIVE 0
  let m := (m.putAll F.TSU_STATUS_STEP_ALLOWED (b2n (modeSteps k))).putAll F.CRC_STATUS_CHANNELS (b2n (modeSteps k))
  let m := (m.putAll F.RED_PAIR_STATUS_ACTIVE (b2n (modeActive k))).mapLanes
    (fun x => { x with regs := x.regs.put F.RTE_STATUS_RUNNING (b2n (modeActive k && x.follows)) })
  let m := m.raiseAll .sys I.SYS_MODE_CHANGE
  let m := m.record 0x0001 old k p2 (m.sys.cluster % 2 ^ 32)
  if k = 14 ∨ k = 12 ∨ k = 13 ∨ k = 1 then m.startFlush else m

/-- An honoured reset falls due: 1 ms has passed since its edge, at a cluster boundary or, while no origin is agreed, at once (R309). -/
def Mach.resetDue (m : Mach) : Bool :=
  m.sys.rst.isSome && (m.sys.boundary || !m.sys.originAgreed) && decide (m.sys.rstAt + 1000 ≤ m.upUs)

/-- SAFE_HALT_ENTRY (R316): latched, with its cause. SAFE_HALT is not entered from OFF, DORMANT or UPDATE (R293), nor again
from SAFE_HALT, nor where a reset is due (R294). -/
def Mach.safeHalt (m : Mach) (cause : Nat) : Mach :=
  let old := m.sys.mode
  if old = 0 ∨ old = 1 ∨ old = 13 ∨ old = 14 ∨ m.resetDue then m
  else
    let m := ((m.putAll F.SYS_HALT_MODE old).putAll F.SYS_HALT_CAUSE cause).putAll F.SYS_HALT_CLUSTER_CLUSTER m.sys.cluster
    let m := m.raiseAll .sys I.SYS_SAFE_HALT
    let m := m.updSys (fun s => { s with pendingHalt := none, holdupWait := false, darnDue := false })
    let m := { m with sc := { m.sc with watchdogSeen := true } }
    m.setMode 14 cause

/-- A module whose LOAD fails, or that staff takes out of service, enters MAINTENANCE (R62, R318): the interlocking cycle
stops; locks, queues and the State Image are never used again, and commands are restrictive with NOW. -/
def Mach.toMaintenance (m : Mach) (tag : Nat) : Mach := (m.setMode 12 tag)

/-- A record's settings and module identity as R429 lists them: the addresses of the lane settings. -/
def laneSettings : List Nat :=
  [0x40003054, 0x40003058, 0x4000305C, 0x4000A040, 0x4000A04C, 0x4000A100, 0x4000A104, 0x4000C040, 0x4000C044, 0x4000C048] ++
  [0x40002078, 0x4000207C, 0x40002080, 0x40002084, 0x40002088, 0x4000D040, 0x4000D044]

/-- The settings the Port Hub holds: HEM0 to HEM15, QUAR_CFG, PORT_CFG and ARB_CFG of every port. -/
def hubSettings : List Nat :=
  (List.range 16).map (fun n => 0x40020040 + 4 * n) ++ [0x40020080] ++
  (List.range 16).flatMap (fun p => [ttpBase p + 0x40, ttpBase p + 0x44])

/-- The settings of the Service Controller: the area registers and IMG_SELECT. -/
def ctlSettings : List Nat :=
  (List.range 16).map (fun n => 0x50004140 + 4 * n) ++ [0x50002304]

def noSetting : Nat → Option W32 := fun _ => none

/-- A change of a setting waits for its store in flash, within 1 s of taking effect (R429). -/
def Mach.storeSetting (m : Mach) (a : Nat) (v : W32) : Mach :=
  if laneSettings.contains a || hubSettings.contains a || ctlSettings.contains a then
    { m with sc := { m.sc with unstored := Store.set noSetting m.sc.unstored a (some v) } }
  else m

/-- The settings with the changes that wait: the Service Controller's copy. -/
def Sc.settingsNow (c : Sc) : Store (Option W32) :=
  c.unstored.foldl (fun s e => Store.set noSetting s e.1 e.2) c.settings

/-- The store: the changes that wait are in flash (R429); during probation that is the working copy, the snapshot keeping the old values
(R406). When it happens within the 1 s is the model's choice: as a second of running time ends, and at a reset (assumption 117). -/
def Mach.storeSettings (m : Mach) : Mach := { m with sc := { m.sc with settings := m.sc.settingsNow, unstored := [] } }

/-- Fill a register file with the settings held in flash (R429). -/
def fillSettings (s : Store (Option W32)) (addrs : List Nat) (r : Regs) : Regs :=
  addrs.foldl (fun r a => match Store.get noSetting s a with | some v => r.set a v | none => r) r

end Sys2Proof.Machine
end

