-- ==== Sys2Proof/Machine/Image.lean ====
section
/-!
DEFINITION. Machine/Image.lean: the Station Image as a lane reads it (chapter 2): the header, the section table and one
accessor for every field of every table, over the bytes of the image. An entry outside its section reads as zero.
-/
namespace Sys2Proof.Machine

/-- An image: a memory and the address of the image's first byte. -/
structure Img where
  mem : Mem
  base : Nat
  deriving DecidableEq, Repr

/-- The active image of a lane (R29; step 6 of R62 swaps the two regions of 2 GB). -/
def Lane.img (x : Lane) : Img := ⟨x.dram, if x.activeHi then 0x80000000 else 0⟩

/-- The staging region of a lane. -/
def Lane.stagingImg (x : Lane) : Img := ⟨x.dram, if x.activeHi then 0 else 0x80000000⟩

/-- `w` bytes at an offset of the image as a number. -/
def Img.num (i : Img) (off w : Nat) : Nat := ofBe (i.mem.read (i.base + off) w)

/-- Bytes of the image. -/
def Img.bytes (i : Img) (off n : Nat) : List Byte := i.mem.read (i.base + off) n

/-! ### Identity block and section table (R33, R34) -/

def Img.magic (i : Img) : Nat := i.num 0 4
def Img.format (i : Img) : Nat := i.num 4 2
def Img.flags (i : Img) : Nat := i.num 6 2
def Img.imageId (i : Img) : Nat := i.num 8 4
def Img.federationId (i : Img) : Nat := i.num 0xC 2
def Img.moduleNumber (i : Img) : Nat := i.num 0xE 1 % 16
def Img.length (i : Img) : Nat := i.num 0x10 8
def Img.maxLocked (i : Img) : Nat := i.num 0x18 2
def Img.sectionCount (i : Img) : Nat := i.num 0x1A 1
def Img.zvlSeal (i : Img) : Nat := i.num 0x38 8
/-- FLAGS bit 0, REARM_ON_LOSS (R72). -/
def Img.rearm (i : Img) : Bool := bitOf i.flags 0
def Img.storedSeal (i : Img) : Nat := i.num (i.length - 8) 8

/-- A section table entry. -/
structure Sec where
  kind : Nat
  count : Nat
  off : Nat
  len : Nat
  crc : Nat
  deriving DecidableEq, Repr

def Img.secAt (i : Img) (k : Nat) : Sec :=
  let b := 0x100 + 32 * k
  ⟨i.num b 2, i.num (b + 4) 4, i.num (b + 8) 8, i.num (b + 0x10) 8, i.num (b + 0x1C) 4⟩

/-- The valid section-table entries, in order. -/
def Img.secs (i : Img) : List Sec := (List.range (min i.sectionCount 24)).map i.secAt

def Img.sec (i : Img) (t : Nat) : Option Sec := i.secs.find? (fun s => s.kind = t)

def Img.countOf (i : Img) (t : Nat) : Nat := match i.sec t with | some s => s.count | none => 0
def Img.lenOf (i : Img) (t : Nat) : Nat := match i.sec t with | some s => s.len | none => 0

/-- `w` bytes at `off` of entry `n` of section `t`, entries of `sz` bytes; 0 outside the section. -/
def Img.ent (i : Img) (t n sz off w : Nat) : Nat :=
  match i.sec t with
  | some s => if n < s.count then i.num (s.off + n * sz + off) w else 0
  | none => 0

/-- `w` bytes at an offset of section `t`; 0 outside it. -/
def Img.raw (i : Img) (t off w : Nat) : Nat :=
  match i.sec t with
  | some s => if off + w ≤ s.len then i.num (s.off + off) w else 0
  | none => 0

/-! ### Objects (R39, R40) -/

def Img.objCount (i : Img) : Nat := i.countOf 1
def Img.cls (i : Img) (o : Nat) : Nat := i.ent 1 o 64 2 1
def Img.area (i : Img) (o : Nat) : Nat := i.ent 1 o 64 3 1 % 64
def Img.node (i : Img) (o : Nat) : Nat := i.ent 1 o 64 4 2
def Img.objFlags (i : Img) (o : Nat) : Nat := i.ent 1 o 64 6 2
def Img.point (i : Img) (o n : Nat) : Nat := i.ent 1 o 64 (8 + n) 1
def Img.aspectSet (i : Img) (o : Nat) : Nat := i.ent 1 o 64 0x12 2
def Img.param0 (i : Img) (o : Nat) : Nat := i.ent 1 o 64 0x14 2

def Img.used (i : Img) (o : Nat) : Bool := decide (o < i.objCount) && decide (i.cls o ≠ 0)
def Img.objects (i : Img) : List Nat := (List.range i.objCount).filter i.used
def Img.boundary (i : Img) (o : Nat) : Bool := bitOf (i.objFlags o) 0

/-- Port of an object's node, bits [10:7] (R6). -/
def nodePort (a : Nat) : Nat := bitsOf a 10 7
/-- Node index, bits [6:0] (R6). -/
def nodeIndex (a : Nat) : Nat := a % 128
def nodeAddr (port index : Nat) : Nat := port * 128 + index

/-- The object is attached to a node of a ring. -/
def Img.onNode (i : Img) (o : Nat) : Bool := decide (1 ≤ nodeIndex (i.node o)) && decide (nodeIndex (i.node o) ≤ 64)
/-- The object is attached to the DIO (R370); a class 9 object is attached nowhere (R266). -/
def Img.onDio (i : Img) (o : Nat) : Bool :=
  decide (nodeIndex (i.node o) = 0) && decide (1 ≤ nodePort (i.node o)) && decide (nodePort (i.node o) ≤ 8) &&
  decide (i.cls o ≠ 9)
/-- DIO channel of point n (R370). -/
def Img.channel (i : Img) (o n : Nat) : Nat := 8 * (nodePort (i.node o) - 1) + n

def Img.pointUsed (i : Img) (o n : Nat) : Bool := decide (i.point o n % 64 ≠ 0)
def Img.isInput (i : Img) (o n : Nat) : Bool := i.pointUsed o n && !bitOf (i.point o n) 7
def Img.isOutput (i : Img) (o n : Nat) : Bool := i.pointUsed o n && bitOf (i.point o n) 7
/-- RESTRICTIVE_LEVEL of point n. -/
def Img.restrLevel (i : Img) (o n : Nat) : Bool := bitOf (i.point o n) 6
/-- The input points of an object and their restrictive levels, as bytes. -/
def Img.inputMask (i : Img) (o : Nat) : Nat := bitmap 8 (i.isInput o)
def Img.outputMask (i : Img) (o : Nat) : Nat := bitmap 8 (i.isOutput o)
def Img.restrInputs (i : Img) (o : Nat) : Nat := bitmap 8 (fun n => i.isInput o n && i.restrLevel o n)

/-- The class defaults entry of a class (R40). -/
def Img.classDefault (i : Img) (c : Nat) : Nat × Nat :=
  match (List.range (i.countOf 11)).find? (fun k => i.ent 11 k 16 0 1 = c) with
  | some k => (i.ent 11 k 16 1 1, i.ent 11 k 16 2 1)
  | none => (0, 0)

/-- The applicable PROVING_MASK and PROVING_THROW (R39, R40). -/
def Img.proving (i : Img) (o : Nat) : Nat × Nat :=
  if bitOf (i.objFlags o) 1 then (i.ent 1 o 64 0x10 1, i.ent 1 o 64 0x11 1) else i.classDefault (i.cls o)

/-- Objects of a node in ascending object ID. -/
def Img.nodeObjects (i : Img) (addr : Nat) : List Nat := i.objects.filter (fun o => i.onNode o && i.node o = addr)

/-- Classes that take commands (R185). -/
def takesCommands (c : Nat) : Bool := c == 2 || c == 3 || c == 4 || c == 5 || c == 6 || c == 8

/-! ### Aspect sets (R53, R54) -/

structure AspectEnt where
  cond : Nat
  level : Nat
  command : Nat
  param : Nat
  deriving DecidableEq, Repr

def Img.aspCount (i : Img) (s : Nat) : Nat := i.ent 10 s 136 0 1
def Img.aspect (i : Img) (s k : Nat) : AspectEnt :=
  let b := 8 + 8 * k
  ⟨i.ent 10 s 136 b 1, i.ent 10 s 136 (b + 1) 1, i.ent 10 s 136 (b + 2) 2, i.ent 10 s 136 (b + 4) 4⟩

def Img.aspects (i : Img) (s : Nat) : List AspectEnt := (List.range (min (i.aspCount s) 16)).map (i.aspect s)

/-- LEVEL of the first entry of a set with a COMMAND (R451). -/
def Img.levelOf (i : Img) (s command : Nat) : Option Nat :=
  ((i.aspects s).find? (fun e => e.command = command)).map (·.level)

/-- The restrictive value of an object's command, COMMAND[15:0] (R185). -/
def Img.restrictive (i : Img) (o : Nat) : Nat := if i.cls o = 3 then (i.aspect (i.aspectSet o) 0).command else 0

/-- COMMAND[31:16] of an object's command entry (R185): CLASS_PARAMS bytes 0 and 1 of classes 2, 4, 5 and 6. -/
def Img.commandHigh (i : Img) (o : Nat) : Nat :=
  if i.cls o = 2 ∨ i.cls o = 4 ∨ i.cls o = 5 ∨ i.cls o = 6 then i.param0 o else 0

/-! ### Routes (R43 to R47) -/

structure Elem where
  obj : Nat
  role : Nat
  pos : Nat
  group : Nat
  deriving DecidableEq, Repr

def Img.elem (i : Img) (k : Nat) : Elem :=
  ⟨i.ent 3 k 8 0 2 % 2 ^ 14, i.ent 3 k 8 2 1, i.ent 3 k 8 3 1, i.ent 3 k 8 4 1⟩

structure Flank where
  obj : Nat
  kind : Nat
  pos : Nat
  deriving DecidableEq, Repr

def Img.routeCount (i : Img) : Nat := i.countOf 2
def Img.rArea (i : Img) (r : Nat) : Nat := i.ent 2 r 64 2 1
def Img.rKind (i : Img) (r : Nat) : Nat := i.ent 2 r 64 3 1
def Img.rEntry (i : Img) (r : Nat) : Nat := i.ent 2 r 64 4 2
def Img.rExit (i : Img) (r : Nat) : Nat := i.ent 2 r 64 6 2
def Img.rConflictBase (i : Img) (r : Nat) : Nat := i.ent 2 r 64 8 2
def Img.rElemCount (i : Img) (r : Nat) : Nat := i.ent 2 r 64 0xA 1
def Img.rFlankCount (i : Img) (r : Nat) : Nat := i.ent 2 r 64 0xB 1
def Img.rElemOff (i : Img) (r : Nat) : Nat := i.ent 2 r 64 0xC 4
def Img.rFlankOff (i : Img) (r : Nat) : Nat := i.ent 2 r 64 0x10 4
def Img.rApprOff (i : Img) (r : Nat) : Nat := i.ent 2 r 64 0x1C 4
def Img.rApprCount (i : Img) (r : Nat) : Nat := i.ent 2 r 64 0x20 1
def Img.rRule (i : Img) (r : Nat) : Nat := i.ent 2 r 64 0x22 2
def Img.rAspectSet (i : Img) (r : Nat) : Nat := i.ent 2 r 64 0x24 2

def Img.rUsed (i : Img) (r : Nat) : Bool := decide (r < i.routeCount) && decide (i.rKind r ≠ 0)
def Img.routes (i : Img) : List Nat := (List.range i.routeCount).filter i.rUsed

def Img.elems (i : Img) (r : Nat) : List Elem := (List.range (i.rElemCount r)).map (fun k => i.elem (i.rElemOff r + k))
def Img.flanks (i : Img) (r : Nat) : List Flank :=
  (List.range (i.rFlankCount r)).map (fun k =>
    let e := i.rFlankOff r + k
    ⟨i.ent 5 e 8 0 2, i.ent 5 e 8 2 1, i.ent 5 e 8 3 1⟩)
/-- The four overlap indices; 0xFFFF none. -/
def Img.overlaps (i : Img) (r : Nat) : List Nat := (List.range 4).map (fun k => i.ent 2 r 64 (0x14 + 2 * k) 2)
def Img.approach (i : Img) (r : Nat) : List Nat :=
  (List.range (i.rApprCount r)).map (fun k => i.ent 7 (i.rApprOff r + k) 2 0 2)

/-- A release rule (R47). -/
structure Rule where
  sectional : Nat
  cancel : Nat
  dwell : Nat
  deriving DecidableEq, Repr

def Img.rule (i : Img) (r : Nat) : Rule :=
  let k := i.rRule r
  ⟨i.ent 8 k 16 0 1, i.ent 8 k 16 1 1, i.ent 8 k 16 2 1⟩

/-- Overlaps (R46). -/
def Img.ovElems (i : Img) (v : Nat) : List Elem :=
  (List.range (i.ent 6 v 32 2 1)).map (fun k => i.elem (i.ent 6 v 32 4 4 + k))
def Img.ovTrigger (i : Img) (v : Nat) : Nat := i.ent 6 v 32 8 2
def Img.ovTimerObj (i : Img) (v : Nat) : Nat := i.ent 6 v 32 0xA 2

/-- Bit i of the conflict row of route r (R48). -/
def Img.conflictBit (i : Img) (r k : Nat) : Bool := bitOf (i.ent 4 r 64 (k / 8) 1) (k % 8)
/-- The row of `a` marks `b`. -/
def Img.marks (i : Img) (a b : Nat) : Bool :=
  let base := i.rConflictBase a
  decide (base ≤ b) && decide (b < base + 512) && i.conflictBit a (b - base)
/-- Two routes conflict: by the bitset, or by a common ENTRY_SIGNAL (R99). -/
def Img.conflict (i : Img) (a b : Nat) : Bool := decide (a ≠ b) && (i.marks a b || decide (i.rEntry a = i.rEntry b))

/-- Timer definition of slot s of object o (R50), and its length in clusters rounded up (R51). -/
def Img.timerKind (i : Img) (o s : Nat) : Nat := i.ent 9 (o * 2 + s) 8 0 1
def Img.timerMs (i : Img) (o s : Nat) : Nat := i.ent 9 (o * 2 + s) 8 4 4
def Img.timerClusters (i : Img) (o s : Nat) : Nat := ceilDiv (i.timerMs o s) 4

/-- Objects that overlap or element lists name as sections, points. -/
def Elem.isSection (e : Elem) : Bool := e.role = 1
def Elem.isPoint (e : Elem) : Bool := e.role = 2

/-! ### ZVL parameters (R56, R57) -/

def Img.zvlObject (i : Img) (k : Nat) : Nat := i.ent 15 k 8 0 2
def Img.guardCommand (i : Img) (o : Nat) : Nat := i.ent 15 o 8 4 2

/-- Check word k of route r, as the DRAM list holds it. -/
def Img.checkWord (i : Img) (r k : Nat) : Nat := i.ent 16 r 256 (4 * k) 4
def cwKind (w : Nat) : Nat := bitsOf w 31 28
def cwObj (w : Nat) : Nat := bitsOf w 27 14
def cwPos (w : Nat) : Nat := w % 4
def cwShared (w : Nat) : Bool := bitOf w 2
def cwSlot (w : Nat) : Nat := bitsOf w 3 3
def cwClaimOnly (w : Nat) : Bool := bitOf w 4
/-- Words of kinds 1, 3 and 4 claim their object. -/
def cwClaims (w : Nat) : Bool := cwKind w = 1 || cwKind w = 3 || cwKind w = 4
def Img.checkWords (i : Img) (r : Nat) : List Nat := (List.range 64).map (i.checkWord r)

/-! ### Port schedules (R178 to R181) -/

def Img.sched12 (i : Img) (off w : Nat) : Nat := i.raw 12 off w
def Img.portNum (i : Img) (p off w : Nat) : Nat := i.sched12 (p * 0x10000 + off) w
def Img.portMode (i : Img) (p : Nat) : Nat := i.portNum p 0 1
def Img.portCycle (i : Img) (p : Nat) : Nat := i.portNum p 1 1
def Img.portNodes (i : Img) (p : Nat) : Nat := i.portNum p 2 1
def Img.schedCount (i : Img) (p : Nat) : Nat := i.portNum p 3 1
def Img.defaultSched (i : Img) (p : Nat) : Nat := i.portNum p 4 1
def Img.lossLimit (i : Img) (p : Nat) : Nat := i.portNum p 5 1
def Img.restoreCount (i : Img) (p : Nat) : Nat := i.portNum p 6 1
def Img.leaveLimit (i : Img) (p : Nat) : Nat := i.portNum p 8 2
def Img.ringMax (i : Img) (p : Nat) : Nat := i.portNum p 0xA 1
def Img.gap (i : Img) (p : Nat) : Nat := i.portNum p 0xC 2
/-- Port basic cycles a cluster (R174). -/
def Img.perCluster (i : Img) (p : Nat) : Nat := if i.portCycle p = 0 then 32 else if i.portCycle p = 1 then 16 else 8
/-- Length of a port basic cycle, ns. -/
def Img.cycleNs (i : Img) (p : Nat) : Nat := 4000000 / i.perCluster p

/-- The used entries of a port's node table: index, priority, type. -/
def Img.nodeTable (i : Img) (p : Nat) : List (Nat × Nat × Nat) :=
  ((List.range 64).map (fun k =>
    (i.portNum p (0x40 + 8 * k) 1, i.portNum p (0x41 + 8 * k) 1, i.portNum p (0x42 + 8 * k) 2))).filter
    (fun e => decide (e.1 ≠ 0))
def Img.nodeIdxs (i : Img) (p : Nat) : List Nat := (i.nodeTable p).map (·.1)
def Img.hasNode (i : Img) (p k : Nat) : Bool := (i.nodeIdxs p).contains k
def Img.priority (i : Img) (p k : Nat) : Nat :=
  match (i.nodeTable p).find? (fun e => e.1 = k) with | some e => e.2.1 | none => 0
def Img.nodeType (i : Img) (p k : Nat) : Nat :=
  match (i.nodeTable p).find? (fun e => e.1 = k) with | some e => e.2.2 | none => 0

/-- A window of a schedule; `reply` is REPLY_LENGTH of a poll entry (R232). -/
structure Win where
  kind : Nat
  node : Nat
  start : Nat
  len : Nat
  reply : Nat
  mask : Nat
  deriving DecidableEq, Repr

def Img.windows (i : Img) (p s : Nat) : List Win :=
  let b := 0x1000 + s * 0x1000
  (List.range (i.portNum p (b + 1) 1)).map (fun k =>
    let e := b + 16 + 16 * k
    ⟨i.portNum p e 1, i.portNum p (e + 1) 1, i.portNum p (e + 2) 2, i.portNum p (e + 4) 2, i.portNum p (e + 6) 2,
     i.portNum p (e + 8) 4⟩)
def Img.windowsIn (i : Img) (p s bc : Nat) : List Win := (i.windows p s).filter (fun w => bitOf w.mask bc)
/-- The window of a kind for a node in a schedule. -/
def Img.winOf (i : Img) (p s kind node : Nat) : Option Win :=
  (i.windows p s).find? (fun w => w.kind = kind && w.node = node)

/-! ### Boundary map (R265) -/

structure Export where
  obj : Nat
  peer : Nat
  kind : Nat
  remote : Nat
  param : Nat
  deriving DecidableEq, Repr

structure Import where
  obj : Nat
  peer : Nat
  remote : Nat
  deriving DecidableEq, Repr

def Img.exportCount (i : Img) : Nat := i.raw 13 0 2
def Img.importCount (i : Img) : Nat := i.raw 13 2 2

/-- The image has boundary objects. -/
def Img.federates (i : Img) : Bool := decide (i.exportCount + i.importCount ≠ 0)
def Img.exportId (i : Img) (peer : Nat) : Nat := i.raw 13 (0x10 + 16 * peer) 4
def Img.importId (i : Img) (peer : Nat) : Nat := i.raw 13 (0x14 + 16 * peer) 4
def Img.peerExports (i : Img) (peer : Nat) : Nat := i.raw 13 (0x18 + 16 * peer) 2
def Img.peerImports (i : Img) (peer : Nat) : Nat := i.raw 13 (0x1A + 16 * peer) 2
def Img.exports (i : Img) : List Export :=
  (List.range i.exportCount).map (fun k =>
    let b := 0x110 + 8 * k
    ⟨i.raw 13 b 2, i.raw 13 (b + 2) 1, i.raw 13 (b + 3) 1, i.raw 13 (b + 4) 2, i.raw 13 (b + 6) 2⟩)
def Img.imports (i : Img) : List Import :=
  (List.range i.importCount).map (fun k =>
    let b := 0x110 + 8 * i.exportCount + 8 * k
    ⟨i.raw 13 b 2, i.raw 13 (b + 2) 1, i.raw 13 (b + 4) 2⟩)
/-- The modules a module imports from (its sources) and exports to. -/
def Img.importsFrom (i : Img) (peer : Nat) : List Import := i.imports.filter (fun e => e.peer = peer)
def Img.exportsTo (i : Img) (peer : Nat) : List Export := i.exports.filter (fun e => e.peer = peer)
def Img.isSource (i : Img) (peer : Nat) : Bool := !(i.importsFrom peer).isEmpty
/-- The peer a class 9 object comes from. -/
def Img.sourceOf (i : Img) (o : Nat) : Nat := match i.imports.find? (fun e => e.obj = o) with | some e => e.peer | none => 16

/-! ### The State Image records a lane holds -/

def Lane.objRec (x : Lane) (o : Nat) : ObjRec := Store.get ObjRec.zero x.si o

end Sys2Proof.Machine
end

