-- ==== Sys2Proof/Machine/LoadCheck.lean ====
section
/-!
DEFINITION. Machine/LoadCheck.lean: the checks of LOAD (R62, R63): step 1 of the Service Controller, and steps 3 and 4 of
each lane, as one list of (fault code, holds) pairs in the order in which R62 names the rules; a lane's outcome is the
first that fails (assumption 10: the order within step 4 is the order in which R62 lists the rules).
-/
namespace Sys2Proof.Machine

/-- The first fault of a list of checks. -/
def firstFault (l : List (Nat × Bool)) : Option Nat := (l.find? (fun e => !e.2)).map (·.1)

/-- R33: at most 2 GB, a multiple of 8, and room for the identity block, the section table and the seal (assumption 75). -/
def Img.lengthOk (i : Img) : Bool := decide (i.length ≤ 2147483648) && decide (i.length % 8 = 0) && decide (0x408 ≤ i.length)

/-- Step 1 of R62: MAGIC, FORMAT, IMAGE_LENGTH, SECTION_COUNT; the length with which the slot was written. -/
def Img.step1 (i : Img) (written : Nat) : Option Nat :=
  firstFault
    [(1, decide (i.magic = 0x414B5349)), (8, decide (i.format / 256 = 3)),
     (2, i.lengthOk && decide (i.length = written)),
     (1, decide (1 ≤ i.sectionCount) && decide (i.sectionCount ≤ 24))]

/-- The seal of R36, the CRC of a section (R34) and ZVL_SEAL (R55), as a lane computes them. -/
def Img.computedSeal (i : Img) : W64 := crc64 (i.bytes 0 (i.length - 8))
def Img.secBytes (i : Img) (t : Nat) : List Byte := match i.sec t with | some s => i.bytes s.off s.len | none => []
def Img.computedZvlSeal (i : Img) : W64 := crc64 (i.secBytes 15 ++ i.secBytes 16 ++ i.secBytes 17)
def Img.secCrcOk (i : Img) (s : Sec) : Bool := decide ((crc32c (i.bytes s.off s.len)).toNat = s.crc)

/-- Section table entries beyond SECTION_COUNT are all zero (R34; FAULT 1, assumption 74). -/
def Img.spareSecsZero (i : Img) : Bool :=
  (List.range 24).all (fun k => decide (k < i.sectionCount) || decide (i.num (0x100 + 32 * k) 32 = 0))

/-- Step 3 of R62. -/
def Img.step3 (i : Img) : List (Nat × Bool) :=
  [(6, i.secs.all (fun s => decide (s.off % 4096 = 0) && decide (s.off + s.len ≤ i.length - 8))),
   (3, decide (i.computedSeal.toNat = i.storedSeal)),
   (4, i.secs.all i.secCrcOk),
   (5, decide (i.computedZvlSeal.toNat = i.zvlSeal))]

/-! ### Sections (R33, R35 to R38) -/

/-- Entry size (0 none), most entries, most bytes of a section type (R37). -/
def secLimit (t : Nat) : Option (Nat × Nat × Nat) :=
  match t with
  | 1 => some (64, 16384, 0x100000) | 2 => some (64, 65536, 0x400000) | 3 => some (8, 8388608, 0x4000000)
  | 4 => some (64, 65536, 0x400000) | 5 => some (8, 2097152, 0x1000000) | 6 => some (32, 65536, 0x200000)
  | 7 => some (2, 1048576, 0x200000) | 8 => some (16, 4096, 0x10000) | 9 => some (8, 32768, 0x40000)
  | 10 => some (136, 4096, 557056) | 11 => some (16, 16, 256) | 12 => some (0, 0, 0x100000)
  | 13 => some (0, 0, 0x100000) | 14 => some (0, 0, 0x60000000) | 15 => some (8, 16384, 0x20000)
  | 16 => some (256, 65536, 0x1000000) | 17 => some (0, 0, 4096) | 18 => some (0, 0, 0x10000000)
  | _ => none

def secOk (s : Sec) : Bool :=
  match secLimit s.kind with
  | none => false
  | some (sz, n, b) =>
    decide (s.len ≤ b) && (decide (sz = 0) || (decide (s.count ≤ n) && decide (s.len = s.count * sz)))

/-- Consecutive sections ascend and do not overlap (R35). -/
def secsAscend : List Sec → Bool
  | a :: b :: t => decide (a.off + a.len ≤ b.off) && decide (a.off < b.off) && secsAscend (b :: t)
  | _ => true

def mandatory : List Nat := [1, 2, 3, 4, 8, 9, 10, 11, 12, 14, 15, 16, 17]

/-- Every byte from 0x400 to the seal that lies in no section is zero (R36). -/
def Img.gapsZero (i : Img) : Bool :=
  i.mem.all (fun e =>
    decide (e.1 < i.base + 0x400) || decide (i.base + i.length - 8 ≤ e.1) ||
    i.secs.any (fun s => decide (i.base + s.off ≤ e.1) && decide (e.1 < i.base + s.off + s.len)) || decide (e.2 = 0))

/-- An index range lies in a section. -/
def Img.inSec (i : Img) (t off n : Nat) : Bool := decide (n = 0) || decide (off + n ≤ i.countOf t)

/-- The overlap table entries (R46). -/
def Img.overlapIdxs (i : Img) : List Nat := List.range (i.countOf 6)

/-- Objects a route names: entry, exit, elements, flanks, approach and overlaps. -/
def Img.routeRefs (i : Img) (r : Nat) : List Nat :=
  [i.rEntry r, i.rExit r] ++ (i.elems r).map (·.obj) ++ (i.flanks r).map (·.obj) ++ i.approach r

def Img.ovRefs (i : Img) (v : Nat) : List Nat := [i.ovTrigger v, i.ovTimerObj v] ++ (i.ovElems v).map (·.obj)

/-- R38: every reference names a used object or route, and every index lies in its table. A timer definition, ZVL object
parameters and a check list refer to what their index names; an entry of the element, flank or approach pool that belongs to no used
route and no overlap is no reference (DEDUCED, assumption 53). -/
def Img.refsOk (i : Img) : Bool :=
  (List.range (i.countOf 9)).all (fun k => decide (i.ent 9 k 8 0 1 = 0) || i.used (k / 2)) &&
  (List.range (i.countOf 15)).all (fun k => decide (i.ent 15 k 8 0 8 = 0) || i.used (i.zvlObject k)) &&
  (List.range (i.countOf 16)).all (fun r => i.rUsed r || decide (i.ent 16 r 256 0 256 = 0)) &&
  i.routes.all (fun r =>
    i.inSec 3 (i.rElemOff r) (i.rElemCount r) && i.inSec 5 (i.rFlankOff r) (i.rFlankCount r) &&
    i.inSec 7 (i.rApprOff r) (i.rApprCount r) && decide (i.rRule r < i.countOf 8) &&
    decide (i.rAspectSet r < i.countOf 10) &&
    (i.overlaps r).all (fun v => decide (v = 0xFFFF) || decide (v < i.countOf 6)) &&
    (i.routeRefs r).all i.used &&
    (i.checkWords r).all (fun w => decide (cwKind w = 0) || i.used (cwObj w)) &&
    (List.range 512).all (fun k => !i.conflictBit r k || decide (i.routeCount ≤ i.rConflictBase r + k) ||
      i.rUsed (i.rConflictBase r + k))) &&
  i.overlapIdxs.all (fun v => i.inSec 3 (i.ent 6 v 32 4 4) (i.ent 6 v 32 2 1) && (i.ovRefs v).all i.used) &&
  (List.range (i.countOf 10)).all (fun s =>
    (i.aspects s).all (fun e => decide (e.cond ≠ 2) || i.used (bitsOf e.param 29 16))) &&
  i.objects.all (fun o => decide (i.cls o ≠ 3) || decide (i.aspectSet o < i.countOf 10)) &&
  i.exports.all (fun e => i.used e.obj) && i.imports.all (fun e => i.used e.obj)

/-! ### Objects, routes and pools (R39, R43 to R50) -/

/-- The CRC-32C in the last four bytes of an entry (R39, R43, R46), used or not. -/
def Img.entryCrc (i : Img) (t n sz : Nat) : Bool :=
  match i.sec t with
  | some s => decide ((crc32c (i.bytes (s.off + n * sz) (sz - 4))).toNat = i.num (s.off + n * sz + sz - 4) 4)
  | none => true

def Img.objEntryOk (i : Img) (o : Nat) : Bool :=
  decide (i.cls o = 0) || (decide (i.ent 1 o 64 0 2 = o) && decide (i.cls o ≤ 9) &&
    (decide (i.cls o = 3) || decide (i.aspectSet o = 0xFFFF)))

def roleOk (e : Elem) : Bool :=
  decide (1 ≤ e.role) && decide (e.role ≤ 6) &&
  (if e.role = 2 then decide (e.pos = 1) || decide (e.pos = 2) else decide (e.pos = 0))

/-- Release groups ascend along the route, 0 to 127; 255 releases with the whole route (R44). -/
def groupsAscend : Nat → List Elem → Bool
  | _, [] => true
  | g, e :: t => if e.group = 255 then groupsAscend g t
                 else decide (e.group ≤ 127) && decide (g ≤ e.group) && groupsAscend e.group t

def Img.routeEntryOk (i : Img) (r : Nat) : Bool :=
  decide (i.rKind r = 0) ||
  (decide (i.ent 2 r 64 0 2 = r) && decide (i.rKind r ≤ 4) && decide (1 ≤ i.rElemCount r) &&
   decide (i.rElemCount r ≤ 128) && decide (i.rFlankCount r ≤ 32) && decide (i.rApprCount r ≤ 16) &&
   (i.elems r).all roleOk && groupsAscend 0 (i.elems r) &&
   (i.flanks r).all (fun f => decide (1 ≤ f.kind) && decide (f.kind ≤ 3) &&
     (decide (f.kind ≠ 1) || decide (f.pos = 1) || decide (f.pos = 2))))

def Img.overlapOk (i : Img) (v : Nat) : Bool :=
  decide (i.ent 6 v 32 0 2 = v) && decide (1 ≤ i.ent 6 v 32 2 1) && decide (i.ent 6 v 32 2 1 ≤ 16) &&
  (i.ovElems v).all (fun e => roleOk e && decide (e.group = 255))

def Img.ruleOk (i : Img) (k : Nat) : Bool :=
  decide (i.ent 8 k 16 0 1 ≤ 2) && decide (i.ent 8 k 16 1 1 ≤ 1) && decide (1 ≤ i.ent 8 k 16 2 1)

def Img.timerOk (i : Img) (k : Nat) : Bool :=
  let kind := i.ent 9 k 8 0 1
  let ms := i.ent 9 k 8 4 4
  decide (kind = 0) || (decide (kind ≤ 5) && decide (1 ≤ ms) && decide (ms ≤ 86400000))

/-- R49: the window rule and the symmetry. -/
def Img.conflictOk (i : Img) : Bool :=
  (List.range i.routeCount).all (fun r =>
    (if i.rUsed r then decide (i.rConflictBase r % 64 = 0) && decide (i.rConflictBase r ≤ i.routeCount - 1)
     else true) &&
    (List.range 512).all (fun k =>
      !i.conflictBit r k ||
      (i.rUsed r && decide (i.rConflictBase r + k < i.routeCount) && decide (i.rConflictBase r + k ≠ r) &&
       i.marks (i.rConflictBase r + k) r)))

/-- Bits that name an unused route have no mirror to find; R49 gives them to FAULT 6, checked before (R38). -/
def Img.r99 (i : Img) : Bool :=
  i.routes.all (fun r =>
    let k := i.timerKind (i.rEntry r) 0
    (decide (k = 1) || decide (k = 3)) && (decide (i.rApprCount r ≠ 0) || decide (k = 3)))

/-! ### Aspect sets (R53, R54) -/

def aspectsAscend : List AspectEnt → Bool
  | a :: b :: t => decide (a.level ≤ b.level) && aspectsAscend (b :: t)
  | _ => true

/-- R53 and R54: a set that breaks them is FAULT 12, its COUNT and its levels too (assumption 108). -/
def Img.aspectSetOk (i : Img) (s : Nat) : Bool :=
  let n := i.aspCount s
  let es := i.aspects s
  decide (1 ≤ n) && decide (n ≤ 16) && decide (i.ent 10 s 136 1 7 = 0) &&
  (match es with
   | [] => false
   | e :: t => decide (e.cond = 0) && decide (e.level = 0) && t.all (fun x => decide (1 ≤ x.level))) &&
  es.all (fun e => decide (e.cond ≤ 3) && decide (e.level ≤ 15)) && aspectsAscend es &&
  decide (i.ent 10 s 136 (8 + 8 * n) (8 * (16 - n)) = 0)

/-- Entry 0 of the set of a route commands the restrictive aspect of its entry signal (R54, R8), which is entry 0 of the signal's own
set (R185; assumption 108). -/
def Img.restrictiveFirst (i : Img) (r : Nat) : Bool :=
  decide ((i.aspect (i.rAspectSet r) 0).command = i.restrictive (i.rEntry r))

/-! ### ZVL sections (R57, R58, R128, R99, R450) -/

/-- The check-list form of R57. -/
def cwOk (w : Nat) : Bool :=
  let k := cwKind w
  if k = 0 then decide (w = 0)
  else decide (k ≤ 7) && decide (bitsOf w 13 5 = 0) && (!cwClaimOnly w || decide (k = 3)) &&
    (if k = 1 ∨ k = 2 then decide (cwPos w = 1) || decide (cwPos w = 2) else true)

/-- R128: every kind 1 word has a kind 3 word after it. -/
def pointsFollowed : List Nat → Bool
  | [] => true
  | w :: t => (decide (cwKind w ≠ 1) || t.any (fun v => cwKind v = 3)) && pointsFollowed t

/-- R99, R58: CLAIM_ONLY stands on the kind 3 words of the section elements after the first of a call-on route, and on no other
word; the first kind 3 word does not have it. -/
def claimOnlyOk (callOn : Bool) (sections ws : List Nat) : Bool :=
  let three := ws.filter (fun w => cwKind w = 3)
  ws.all (fun w => decide (cwKind w = 3) || !cwClaimOnly w) && (three.take 1).all (fun w => !cwClaimOnly w) &&
  three.all (fun w => cwClaimOnly w == (callOn && sections.contains (cwObj w) && !(sections.take 1).contains (cwObj w)))

def Img.checkListOk (i : Img) (r : Nat) : Bool :=
  let ws := i.checkWords r
  let six := ws.filter (fun w => cwKind w = 6)
  ws.all cwOk && decide (six.map cwObj = [i.rEntry r]) && pointsFollowed ws &&
  claimOnlyOk (i.rKind r = 3) ((i.elems r).filter (·.isSection) |>.map (·.obj)) ws &&
  (i.elems r).all (fun e =>
    (!e.isPoint || ws.any (fun w => cwKind w = 1 && cwObj w = e.obj && cwPos w = e.pos)) &&
    (!e.isSection || ws.any (fun w => cwKind w = 3 && cwObj w = e.obj))) &&
  (i.flanks r).all (fun f =>
    decide (f.kind ≠ 1) || ws.any (fun w => cwKind w = 2 && cwObj w = f.obj && cwPos w = f.pos))

/-- The claims of two lists collide: one object, and at least one claim exclusive (R58). -/
def claimsCollide (a b : List Nat) : Bool :=
  a.any (fun v => cwClaims v && b.any (fun w => cwClaims w && cwObj v = cwObj w && (!cwShared v || !cwShared w)))

/-- The cross-check of R58. An entry of the ZVL object table is that of the object of its index (R56). -/
def Img.zvlOk (i : Img) : Bool :=
  i.objects.all (fun o => decide (i.zvlObject o = o) && decide (i.ent 15 o 8 2 1 = i.cls o) &&
    decide (i.ent 15 o 8 3 1 = i.area o) && decide (i.guardCommand o = i.restrictive o)) &&
  (List.range (i.countOf 15)).all (fun k => decide (i.ent 15 k 8 0 8 = 0) || decide (i.zvlObject k = k)) &&
  i.routes.all i.checkListOk &&
  i.routes.all (fun a => i.routes.all (fun b =>
    decide (a = b) || !claimsCollide (i.checkWords a) (i.checkWords b) || i.marks a b))

def Img.globalsOk (i : Img) : Bool :=
  decide (i.lenOf 17 = 4096) && decide (i.raw 17 0 4 = i.imageId) && decide (i.raw 17 4 2 = i.maxLocked) &&
  decide (i.raw 17 6 2 = 4000) && decide (i.raw 17 8 4088 = 0)

/-- R449: the header of the rule program, with the interface numbers the running microcode accepts. -/
def Img.ruleHeaderOk (i : Img) (lo hi : Nat) : Bool :=
  decide (64 ≤ i.lenOf 14) && decide (i.raw 14 0 4 = 0x414B5250) && decide (lo ≤ i.raw 14 4 2) &&
  decide (i.raw 14 4 2 ≤ hi) && decide (i.raw 14 6 2 = 0) && decide (64 + i.raw 14 8 8 = i.lenOf 14) &&
  decide (i.raw 14 0x10 48 = 0)

/-! ### Port schedules (R176, R179 to R182, R219, R232) -/

def Win.moduleSide (w : Win) : Bool := w.kind = 1 || w.kind = 2 || w.kind = 4 || w.kind = 5
def Win.nodeSide (w : Win) : Bool := w.kind = 3 || w.kind = 4 || w.kind = 5

/-- The distance R176 asks between the end of one window and the start of the next, in ns. -/
def Img.windowGap (i : Img) (p : Nat) (a b : Win) : Nat :=
  let g := i.gap p
  let mn := if a.moduleSide && b.nodeSide then i.ringMax p * 1000 + g else 0
  let other := if a.nodeSide then g else 0
  max mn other

/-- Windows in ascending START keep the distances of R176 in a port basic cycle. -/
def Img.spaced (i : Img) (p : Nat) : List Win → Bool
  | [] => true
  | a :: t => t.all (fun b => decide (8 * (a.start + a.len) + i.windowGap p a b ≤ 8 * b.start)) && i.spaced p t

def winsAscend : List Win → Bool
  | a :: b :: t => decide (a.start ≤ b.start) && winsAscend (b :: t)
  | _ => true

/-- Every mask bit of the port's basic cycles is set. -/
def Img.fullMask (i : Img) (p : Nat) (w : Win) : Bool := (List.range (i.perCluster p)).all (fun k => bitOf w.mask k)

def Img.schedOk (i : Img) (p s : Nat) : Bool :=
  let ws := i.windows p s
  let idx := i.nodeIdxs p
  let beacon := ws.filter (fun w => w.kind = 1)
  decide (i.portNum p (0x1000 + s * 0x1000) 1 = s) && decide (1 ≤ ws.length) && winsAscend ws &&
  ws.all (fun w => decide (1 ≤ w.kind) && decide (w.kind ≤ 5)) &&
  decide (beacon.map (·.start) = [0]) && beacon.all (i.fullMask p) &&
  idx.all (fun k =>
    let c := ws.filter (fun w => w.kind = 2 && w.node = k)
    let n := ws.filter (fun w => w.kind = 3 && w.node = k)
    let objs := i.nodeObjects (nodeAddr p k)
    let cmd := (objs.filter (fun o => takesCommands (i.cls o))).length
    decide (c.length = 1) && decide (n.length = 1) && c.all (i.fullMask p) && n.all (i.fullMask p) &&
    c.all (fun w => decide (43 + 24 + 6 * cmd ≤ w.len)) && n.all (fun w => decide (43 + 8 + 6 * objs.length ≤ w.len))) &&
  ws.all (fun w => if w.kind = 2 ∨ w.kind = 3 then idx.contains w.node else decide (w.node = 0)) &&
  (List.range (i.perCluster p)).all (fun bc =>
    let l := i.windowsIn p s bc
    i.spaced p l && l.all (fun w => decide (8 * (w.start + w.len) + 10000 ≤ i.cycleNs p))) &&
  ws.all (fun w => !w.nodeSide ||
    beacon.all (fun b => decide (2000 * i.ringMax p + 8 * b.len + i.gap p ≤ 8 * w.start)))

def Img.pollOk (i : Img) (p : Nat) : Bool :=
  let ws := i.windows p 0
  let idx := i.nodeIdxs p
  let endNs := fun (w : Win) => 8 * w.start + 8 * w.len + 2100 + 2000 * i.ringMax p + 8 * w.reply
  decide (ws.length = i.portNodes p) && winsAscend ws &&
  ws.all (fun w =>
    let objs := i.nodeObjects (nodeAddr p w.node)
    let cmd := (objs.filter (fun o => takesCommands (i.cls o))).length
    decide (w.kind = 6) && idx.contains w.node && i.fullMask p w && decide (67 + 6 * cmd ≤ w.len) &&
    decide (51 + 6 * objs.length ≤ w.reply) && decide (endNs w + 10000 ≤ i.cycleNs p)) &&
  idx.all (fun k => decide ((ws.filter (fun w => w.node = k)).length = 1)) &&
  (List.range (ws.length - 1)).all (fun k =>
    match ws[k]?, ws[k + 1]? with
    | some a, some b => decide (endNs a + i.gap p ≤ 8 * b.start)
    | _, _ => true)

/-- A port's descriptor, node table and schedules (R179 to R182, R219, R232). Whatever of R179 to R181 does not hold is FAULT 6
(assumption 109). -/
def Img.portOk (i : Img) (p : Nat) : Bool :=
  let mode := i.portMode p
  let idx := i.nodeIdxs p
  if mode = 0 then true
  else
    decide (mode ≤ 2) && decide (i.portCycle p ≤ 2) && decide (1 ≤ i.portNodes p) && decide (i.portNodes p ≤ 64) &&
    decide (1 ≤ i.schedCount p) && decide (i.schedCount p ≤ 8) && decide (i.defaultSched p < i.schedCount p) &&
    decide (1 ≤ i.lossLimit p) && decide (i.lossLimit p ≤ 8) && decide (1 ≤ i.restoreCount p) &&
    decide (1 ≤ i.portNum p 7 1) && decide (i.portNum p 7 1 ≤ 16) && decide (1 ≤ i.leaveLimit p) &&
    decide (1 ≤ i.ringMax p) && decide (i.ringMax p ≤ 40) && decide (400 ≤ i.gap p) && decide (i.gap p ≤ 4200) &&
    decide (idx.length = i.portNodes p) && decide idx.Nodup && idx.all (fun k => decide (k ≤ 64)) &&
    (i.nodeTable p).all (fun e => decide (e.2.1 ≤ 7)) &&
    idx.all (fun k =>
      let n := (i.nodeObjects (nodeAddr p k)).length
      decide (1 ≤ n) && decide (n ≤ 255)) &&
    (if mode = 1 then (List.range (i.schedCount p)).all (i.schedOk p)
      else decide (i.schedCount p = 1) && decide (i.defaultSched p = 0) && i.pollOk p)

/-- Every object's NODE: a node of its port's table, or the DIO, or, for class 9, 0x0000 (R182, R266, R372). -/
def Img.nodesOk (i : Img) : Bool :=
  i.objects.all (fun o =>
    let k := nodeIndex (i.node o)
    let p := nodePort (i.node o)
    if i.cls o = 9 then decide (i.node o = 0)
    else if k = 0 then decide (1 ≤ p) && decide (p ≤ 8)
    else decide (i.portMode p ≠ 0) && i.hasNode p k)

/-! ### Boundary map and DIO (R266, R372) -/

def pairsAscend : List (Nat × Nat) → Bool
  | a :: b :: t => (decide (a.1 < b.1) || (decide (a.1 = b.1) && decide (a.2 < b.2))) && pairsAscend (b :: t)
  | _ => true

def Img.boundaryOk (i : Img) : Bool :=
  let ex := i.exports
  let im := i.imports
  decide (i.exportCount ≤ 4096) && decide (i.importCount ≤ 4096) &&
  pairsAscend (ex.map (fun e => (e.peer, e.remote))) && pairsAscend (im.map (fun e => (e.peer, e.obj))) &&
  (List.range 16).all (fun p => decide ((i.exportsTo p).length ≤ 256) &&
    decide (i.peerExports p = (i.exportsTo p).length) && decide (i.peerImports p = (i.importsFrom p).length)) &&
  ex.all (fun e => decide (e.peer < 16) && decide (e.peer ≠ i.moduleNumber) && decide (1 ≤ e.kind) &&
    decide (e.kind ≤ 3) && (decide (e.kind ≠ 3) || decide (e.param ≤ 511))) &&
  im.all (fun e => decide (e.peer < 16) && decide (e.peer ≠ i.moduleNumber) && decide (i.cls e.obj = 9) &&
    i.boundary e.obj) &&
  i.objects.all (fun o => decide (i.cls o ≠ 9) || decide ((im.filter (fun e => e.obj = o)).length = 1))

/-- R371 and R372 for one object of the DIO. -/
def Img.dioObjOk (i : Img) (o : Nat) : Bool :=
  let c := i.cls o
  let pts := (List.range 8).filter (i.pointUsed o)
  let ins := pts.filter (i.isInput o)
  let outs := pts.filter (i.isOutput o)
  (if c = 1 ∨ c = 7 then !ins.isEmpty && outs.isEmpty
   else if c = 4 ∨ c = 5 ∨ c = 6 then !ins.isEmpty && outs.all (fun n => decide (i.channel o n < 16))
   else if c = 8 then ins.isEmpty && !outs.isEmpty
   else false)

def Img.dioOk (i : Img) : Bool :=
  let os := i.objects.filter i.onDio
  let chans := os.flatMap (fun o => ((List.range 8).filter (i.pointUsed o)).map (i.channel o))
  os.all i.dioObjOk && decide chans.Nodup

/-- Step 4 of R62. -/
def Img.step4 (i : Img) (ruleLo ruleHi : Nat) : List (Nat × Bool) :=
  let rs := List.range i.routeCount
  [(1, decide (i.magic = 0x414B5349)), (8, decide (i.format / 256 = 3)), (2, i.lengthOk),
   (1, decide (1 ≤ i.sectionCount) && decide (i.sectionCount ≤ 24) && i.spareSecsZero),
   (1, decide (i.num 0xE 1 < 16)), (7, decide (i.maxLocked ≤ 2048)),
   (6, secsAscend i.secs && decide ((i.secs.map (·.kind)).Nodup) && mandatory.all (fun t => (i.sec t).isSome)),
   (6, i.gapsZero),
   (6, i.secs.all secOk && decide (i.countOf 4 = i.routeCount) && decide (i.lenOf 12 = 0x100000)),
   (6, i.refsOk),
   (4, (List.range i.objCount).all (fun o => i.entryCrc 1 o 64)),
   (6, (List.range i.objCount).all i.objEntryOk),
   (4, rs.all (fun r => i.entryCrc 2 r 64)),
   (6, rs.all i.routeEntryOk),
   (4, i.overlapIdxs.all (fun v => i.entryCrc 6 v 32)),
   (6, i.overlapIdxs.all i.overlapOk),
   (6, (List.range (i.countOf 8)).all i.ruleOk),
   (11, i.conflictOk),
   (6, (List.range (i.countOf 9)).all i.timerOk),
   (12, (List.range (i.countOf 10)).all i.aspectSetOk && i.routes.all i.restrictiveFirst),
   (10, i.zvlOk), (6, i.r99), (6, (List.range 16).all i.portOk && i.nodesOk),
   (6, i.boundaryOk), (6, i.dioOk), (14, i.ruleHeaderOk ruleLo ruleHi), (10, i.globalsOk)]

/-- A lane's outcome of steps 3 and 4 (R63): the first fault code, or 0 with IMAGE_ID and the computed seal. -/
def Img.outcome (i : Img) (ruleLo ruleHi : Nat) : Nat × Nat × W64 :=
  match firstFault (i.step3) with
  | some f => (f, 0, 0)
  | none =>
    match firstFault (i.step4 ruleLo ruleHi) with
    | some f => (f, 0, 0)
    | none => (0, i.imageId, i.computedSeal)

end Sys2Proof.Machine
end

