-- ==== Sys2Proof/Machine/Operands.lean ====
section
/-!
DEFINITION. Machine/Operands.lean: the words that cross the module's boundary: request words (R74), acceptance words (R76),
result words (R81), mode request words (R296), and the byte form of a State Image record (R41).
-/
namespace Sys2Proof.Machine

/-! ### Request words (R74) -/

def rqType (w : W64) : Nat := bitsOf w.toNat 63 60
def rqStore (w : W64) : Bool := bitOf w.toNat 59
def rqOption (w : W64) : Nat := bitsOf w.toNat 58 56
def rqTag (w : W64) : Nat := bitsOf w.toNat 47 32
def rqArea (w : W64) : Nat := bitsOf w.toNat 21 16
def rqTarget (w : W64) : Nat := bitsOf w.toNat 15 0

/-- The types of R75. -/
def rqKnown (t : Nat) : Bool := t == 1 || t == 2 || t == 3 || t == 4 || t == 8 || t == 9 || t == 10 || t == 12 || t == 13 || t == 14
def isRestriction (t : Nat) : Bool := t == 8 || t == 9 || t == 10
def isLift (t : Nat) : Bool := t == 12 || t == 13 || t == 14
/-- WITHDRAW removes requests of TYPE 1 to 4 and 12 to 14 (R111). -/
def isRouteWork (t : Nat) : Bool := rqKnown t && !isRestriction t

/-- R74 and R75: the request is malformed for the image. An AREA lies outside the Station Image when no used object has it
(assumption 21). -/
def rqMalformed (i : Img) (w : W64) : Bool :=
  let t := rqType w
  let tgt := rqTarget w
  let n := w.toNat
  !rqKnown t || decide (bitsOf n 55 48 ≠ 0) || decide (bitsOf n 31 22 ≠ 0) ||
  (rqStore w && decide (t ≠ 1)) ||
  (if t = 1 then decide (rqOption w > 4) else if t = 3 then decide (rqOption w ≠ 1) && decide (rqOption w ≠ 2)
   else decide (rqOption w ≠ 0)) ||
  (if t = 9 ∨ t = 13 then i.objects.all (fun o => decide (i.area o ≠ rqArea w)) else decide (rqArea w ≠ 0)) ||
  (if t = 1 ∨ t = 2 then !i.rUsed tgt
   else if t = 3 then !i.used tgt || decide (i.cls tgt ≠ 2)
   else if t = 8 ∨ t = 12 then !i.used tgt
   else if t = 4 then false
   else decide (tgt ≠ 0)) ||
  (decide (t = 1) && decide (rqOption w ≠ 0) &&
    (decide (i.rKind tgt = 2) || decide (i.rKind tgt = 3) ||
     decide ((i.overlaps tgt).getD (rqOption w - 1) 0xFFFF = 0xFFFF)))

/-- The area whose authority a request needs (R77): none for requests never refused for authority. -/
def rqAuthority (i : Img) (w : W64) (areas : Nat) : Bool :=
  let t := rqType w
  if t = 1 ∨ t = 2 then bitOf areas (i.rArea (rqTarget w))
  else if t = 3 ∨ t = 12 then bitOf areas (i.area (rqTarget w))
  else if t = 13 then bitOf areas (rqArea w)
  else if t = 14 then decide (areas = 2 ^ 64 - 1)
  else true

/-- The acceptance word (R76). -/
def acceptWord (seq status lanes tag : Nat) : W64 :=
  BitVec.ofNat 64 (seq * 2 ^ 32 + status * 2 ^ 28 + lanes * 2 ^ 16 + tag)

/-- A result word (R81). -/
def resultWord (t outcome reason tag cluster : Nat) : W64 :=
  BitVec.ofNat 64 (t * 2 ^ 60 + outcome * 2 ^ 56 + reason % 256 * 2 ^ 48 + tag * 2 ^ 32 + cluster % 2 ^ 32)

def resOutcome (w : W64) : Nat := bitsOf w.toNat 59 56

/-- The final outcomes of R82. -/
def outcomeFinal (o : Nat) : Bool := o == 2 || o == 3 || o == 5 || o == 6 || o == 7 || o == 8

/-! ### Mode request words (R296) -/

def mqTag (w : W32) : Nat := bitsOf w.toNat 31 16
def mqKind (w : W32) : Nat := bitsOf w.toNat 15 12
def mqValue (w : W32) : Nat := bitsOf w.toNat 3 0

/-! ### State Image records (R41, R52) -/

/-- The 8 bytes of a timer slot, with its reserved bytes 0x1 and 0x4. -/
def Timer.bytes (t : Timer) (rsv top : Nat) : List Byte :=
  be 1 t.state ++ be 1 rsv ++ be 2 t.owner ++ be 1 top ++ be 3 (t.remaining % 2 ^ 24)

/-- The 128 bytes of a record. -/
def ObjRec.bytes (r : ObjRec) : List Byte :=
  be 2 r.object ++ be 1 r.cls ++ be 1 r.area ++ be 4 r.commanded.toNat ++ be 4 r.detected.toNat ++
  [r.inputs, r.outputs, r.proving, r.restrict] ++ be 2 r.routeLock ++ be 1 r.lockKind ++ [r.holds] ++
  be 2 r.ov0 ++ be 2 r.ov1 ++ be 2 r.fl0 ++ be 2 r.fl1 ++ be 2 r.fl2 ++ be 2 r.fl3 ++
  r.timer0.bytes (bitsOf r.rsv.toNat 71 64) (bitsOf r.rsv.toNat 87 80) ++
  r.timer1.bytes (bitsOf r.rsv.toNat 63 56) (bitsOf r.rsv.toNat 79 72) ++ [r.release] ++
  be 3 (bitsOf r.rsv.toNat 55 32) ++ be 4 r.comm.toNat ++ be 4 r.lastChange.toNat ++ be 4 (bitsOf r.rsv.toNat 31 0) ++
  be 64 r.app.toNat

def timerOf (l : List Byte) : Timer :=
  ⟨ofBe (l.take 1), ofBe ((l.drop 2).take 2), ofBe ((l.drop 5).take 3)⟩

/-- The record that 128 bytes spell. -/
def ObjRec.ofBytes (l : List Byte) : ObjRec :=
  let n := fun (o w : Nat) => ofBe ((l.drop o).take w)
  { object := n 0 2, cls := n 2 1, area := n 3 1, commanded := BitVec.ofNat 32 (n 4 4),
    detected := BitVec.ofNat 32 (n 8 4), inputs := BitVec.ofNat 8 (n 12 1), outputs := BitVec.ofNat 8 (n 13 1),
    proving := BitVec.ofNat 8 (n 14 1), restrict := BitVec.ofNat 8 (n 15 1), routeLock := n 16 2, lockKind := n 18 1,
    holds := BitVec.ofNat 8 (n 19 1), ov0 := n 20 2, ov1 := n 22 2, fl0 := n 24 2, fl1 := n 26 2, fl2 := n 28 2,
    fl3 := n 30 2, timer0 := timerOf (l.drop 32), timer1 := timerOf (l.drop 40), release := BitVec.ofNat 8 (n 48 1),
    comm := BitVec.ofNat 32 (n 52 4), lastChange := BitVec.ofNat 32 (n 56 4), app := BitVec.ofNat 512 (n 64 64),
    rsv := BitVec.ofNat 88 (n 36 1 * 2 ^ 80 + n 44 1 * 2 ^ 72 + n 33 1 * 2 ^ 64 + n 41 1 * 2 ^ 56 + n 49 3 * 2 ^ 32 + n 60 4) }

/-- The write entries that turn one record into another, one per changed 4-byte word (assumption 22); LAST_CHANGE is set
with the commit and has no entry. -/
def diffWords (o : Nat) (timerStep : Bool) : Nat → List Byte → List Byte → List WriteEntry
  | off, a :: b :: c :: d :: t, a' :: b' :: c' :: d' :: t' =>
    if [a, b, c, d] = [a', b', c', d'] then diffWords o timerStep (off + 4) t t'
    else ⟨o, off, [a', b', c', d'], timerStep⟩ :: diffWords o timerStep (off + 4) t t'
  | _, _, _ => []

/-- The write entries between two State Images, in object order. -/
def diffImages (objs : List Nat) (timerStep : Bool) (s t : Store ObjRec) : List WriteEntry :=
  objs.flatMap (fun o =>
    let a := Store.get ObjRec.zero s o
    let b := Store.get ObjRec.zero t o
    if a = b then [] else diffWords o timerStep 0 a.bytes b.bytes)

/-! ### Ordered lists -/

/-- Insert by key, before the first entry with a greater key. -/
def insertBy {α : Type} (key : α → Nat) (x : α) : List α → List α
  | [] => [x]
  | y :: t => if key x < key y then x :: y :: t else y :: insertBy key x t

/-- Stable sort by a numeric key. -/
def sortBy {α : Type} (key : α → Nat) (l : List α) : List α := l.foldl (fun acc x => insertBy key x acc) []

/-- Each element once, first occurrence kept. -/
def dedup {α : Type} [DecidableEq α] (l : List α) : List α :=
  l.foldl (fun acc x => if acc.contains x then acc else acc ++ [x]) []

end Sys2Proof.Machine
end

