-- ==== Sys2Proof/Machine/Flags.lean ====
section
/-!
DEFINITION. Machine/Flags.lean: the condition bits that every evaluation reads: what an object's inputs and detection read
as (R69, R85, R86, R271, R371), its communication state (R195, R270, R378), demands, restrictions, locks and positions.
-/
namespace Sys2Proof.Machine

/-! ### Inputs and communication -/

/-- The restrictive reading of DETECTED by class (R41, R85). -/
def Img.restrDet (i : Img) (o : Nat) : Nat :=
  let c := i.cls o
  if c = 1 ∨ c = 9 then 1
  else if c = 3 then i.restrictive o
  else if c = 7 ∨ c = 8 then i.restrInputs o
  else 0

def Img.restrReading (i : Img) (o : Nat) : InObj := ⟨BitVec.ofNat 8 (i.restrInputs o), i.restrDet o⟩

/-- State of the group supply of a channel (R378): 0 NORMAL, 1 LOW, 2 MISSING. -/
def supplyOf (s : BitVec 8) (ch : Nat) : Nat := bitsOf s.toNat (2 * (ch / 16) + 1) (2 * (ch / 16))

/-- A DIO object is LOST while a group that holds one of its used points is MISSING (R378). -/
def InputSet.dioLost (n : InputSet) (i : Img) (o : Nat) : Bool :=
  (List.range 8).any (fun k => i.pointUsed o k && decide (supplyOf n.supply (i.channel o k) = 2))

/-- COMM of an object (R195, R270, R378). -/
def InputSet.comm (n : InputSet) (i : Img) (o : Nat) : W32 :=
  if i.cls o = 9 then (if bitOf n.srcIn.toNat (i.sourceOf o) then 0 else 0x10000000)
  else if i.onDio o then (if n.dioLost i o then 0x10000000 else 0)
  else
    let c := Store.get NodeComm.absent n.node (i.node o)
    BitVec.ofNat 32 (c.state * 2 ^ 28 + min c.lost 255 * 2 ^ 16 + min c.restore 255 * 2 ^ 8)

/-- STATE of a COMM word. -/
def commState (w : W32) : Nat := bitsOf w.toNat 31 28

/-- Lost communication: STATE is not IN_COMM. -/
def InputSet.lost (n : InputSet) (i : Img) (o : Nat) : Bool := decide (commState (n.comm i o) ≠ 0)

/-- Both detections of a point at once count as neither (R86). -/
def Img.normDet (i : Img) (o det : Nat) : Nat := if i.cls o = 2 ∧ det % 4 = 3 then det - 3 else det

/-- Levels of the input points of a DIO object, and what its DETECTED is (R371). -/
def InputSet.dioReading (n : InputSet) (i : Img) (o : Nat) : InObj :=
  let lv := bitmap 8 (fun k => i.isInput o k && bitOf n.dioIn.toNat (i.channel o k))
  let atRestr := (List.range 8).any (fun k => i.isInput o k && (bitOf lv k == i.restrLevel o k))
  let c := i.cls o
  let det :=
    if c = 1 then b2n atRestr
    else if c = 4 ∨ c = 5 ∨ c = 6 then b2n (!atRestr)
    else if c = 7 then lv
    else if c = 8 then bitmap 8 (fun k => i.isOutput o k && bitOf n.dioRb.toNat (i.channel o k))
    else 0
  ⟨BitVec.ofNat 8 lv, det⟩

/-- The reading as received while the object is in communication (R69); none otherwise. -/
def InputSet.received (n : InputSet) (i : Img) (o : Nat) : Option InObj :=
  if n.lost i o then none
  else if i.cls o = 9 then Store.get noIn n.fed o
  else if i.onDio o then some (n.dioReading i o)
  else Store.get noIn n.obj o

/-- DETECTED of an object while input demands are outstanding: from the substituted levels where it is made of levels (R371),
else restrictive (assumption 23). -/
def Img.substituteDet (i : Img) (o : Nat) (demand lv : Nat) (det : Nat) : Nat :=
  let c := i.cls o
  let atRestr := (List.range 8).any (fun k => i.isInput o k && (bitOf lv k == i.restrLevel o k))
  if c = 8 then det
  else if c = 7 then (List.range 8).foldl (fun d k => if bitOf demand k then putBit d k (i.restrLevel o k) else d) det
  else if c = 9 then putBit (setBits det 4 1 0) 0 true
  else if i.onDio o then (if c = 1 then b2n atRestr else b2n (!atRestr))
  else i.restrDet o

/-- The substitution of outstanding input demands (R69): each demanded point stands at its restrictive level. -/
def Img.substitute (i : Img) (o : Nat) (demand : Byte) (v : InObj) : InObj :=
  if demand = 0 then v
  else
    let lv := (v.inputs &&& ~~~demand) ||| (BitVec.ofNat 8 (i.restrInputs o) &&& demand)
    ⟨lv, i.substituteDet o demand.toNat lv.toNat v.det⟩

/-- What an input image gives the RTE and ZVL for an object (R69, R85, R118). -/
def InputSet.read (n : InputSet) (i : Img) (demand : Byte) (o : Nat) : InObj :=
  match n.received i o with
  | none => i.restrReading o
  | some v => i.substitute o demand ⟨v.inputs, i.normDet o v.det⟩

/-! ### Records -/

def ObjRec.det (r : ObjRec) : Nat := r.detected.toNat % 2 ^ 24
def ObjRec.steady (r : ObjRec) : Nat := r.detected.toNat / 2 ^ 24
def ObjRec.occupied (r : ObjRec) : Bool := bitOf r.det 0
/-- Detected position: 1 normal, 2 reverse, 0 neither (R86). -/
def ObjRec.position (r : ObjRec) : Nat := if r.det % 4 = 3 then 0 else r.det % 4
def ObjRec.throwDemand (r : ObjRec) : Bool := bitOf r.release.toNat 7
def ObjRec.phase (r : ObjRec) : Nat := r.release.toNat % 128
def ObjRec.setPhase (r : ObjRec) (p : Nat) : ObjRec :=
  { r with release := BitVec.ofNat 8 (setBits r.release.toNat 6 0 p) }
def ObjRec.demand (r : ObjRec) : Bool := r.proving ≠ 0 || r.throwDemand
def ObjRec.lost (r : ObjRec) : Bool := decide (commState r.comm ≠ 0)
def ObjRec.command (r : ObjRec) : Nat := r.commanded.toNat % 65536
def Img.permissive (i : Img) (o : Nat) (r : ObjRec) : Bool := decide (r.command ≠ i.restrictive o)

/-- The record with its restrictive command; COMMAND[31:16] stays. -/
def ObjRec.restrictCommand (r : ObjRec) (i : Img) (o : Nat) : ObjRec :=
  { r with commanded := BitVec.ofNat 32 (setBits r.commanded.toNat 15 0 (i.restrictive o)) }

/-- The record with a permissive command and the class parameters of R185. -/
def ObjRec.setCommand (r : ObjRec) (i : Img) (o v : Nat) : ObjRec :=
  { r with commanded := BitVec.ofNat 32 (i.commandHigh o * 65536 + v % 65536) }

/-! ### Locks (R41, R42) -/

def ObjRec.routeHeld (r : ObjRec) (q : Nat) : Bool := decide (r.lockKind ≠ 0) && decide (r.routeLock = q)
def ObjRec.otherRoute (r : ObjRec) (q : Nat) : Bool := decide (r.lockKind ≠ 0) && decide (r.routeLock ≠ q)

def ObjRec.overlapList (r : ObjRec) : List Nat :=
  (if bitOf r.holds.toNat 0 then [r.ov0] else []) ++ (if bitOf r.holds.toNat 1 then [r.ov1] else [])

def ObjRec.flankList (r : ObjRec) : List Nat :=
  (if bitOf r.holds.toNat 2 then [r.fl0] else []) ++ (if bitOf r.holds.toNat 3 then [r.fl1] else []) ++
  (if bitOf r.holds.toNat 4 then [r.fl2] else []) ++ (if bitOf r.holds.toNat 5 then [r.fl3] else [])

def ObjRec.setHold (r : ObjRec) (k : Nat) (b : Bool) : ObjRec := { r with holds := BitVec.ofNat 8 (putBit r.holds.toNat k b) }

/-- Take the first free overlap slot. -/
def ObjRec.takeOverlap (r : ObjRec) (q : Nat) : ObjRec :=
  if !bitOf r.holds.toNat 0 then { r with ov0 := q }.setHold 0 true
  else if !bitOf r.holds.toNat 1 then { r with ov1 := q }.setHold 1 true
  else r

/-- Take the first free flank slot. -/
def ObjRec.takeFlank (r : ObjRec) (q : Nat) : ObjRec :=
  if !bitOf r.holds.toNat 2 then { r with fl0 := q }.setHold 2 true
  else if !bitOf r.holds.toNat 3 then { r with fl1 := q }.setHold 3 true
  else if !bitOf r.holds.toNat 4 then { r with fl2 := q }.setHold 4 true
  else if !bitOf r.holds.toNat 5 then { r with fl3 := q }.setHold 5 true
  else r

/-- Clear the overlap slots a route holds. -/
def ObjRec.dropOverlap (r : ObjRec) (q : Nat) : ObjRec :=
  let r := if bitOf r.holds.toNat 0 && decide (r.ov0 = q) then { r with ov0 := 0 }.setHold 0 false else r
  if bitOf r.holds.toNat 1 && decide (r.ov1 = q) then { r with ov1 := 0 }.setHold 1 false else r

/-- Clear the flank slots a route holds. -/
def ObjRec.dropFlank (r : ObjRec) (q : Nat) : ObjRec :=
  let r := if bitOf r.holds.toNat 2 && decide (r.fl0 = q) then { r with fl0 := 0 }.setHold 2 false else r
  let r := if bitOf r.holds.toNat 3 && decide (r.fl1 = q) then { r with fl1 := 0 }.setHold 3 false else r
  let r := if bitOf r.holds.toNat 4 && decide (r.fl2 = q) then { r with fl2 := 0 }.setHold 4 false else r
  if bitOf r.holds.toNat 5 && decide (r.fl3 = q) then { r with fl3 := 0 }.setHold 5 false else r

/-- Locked routes of a State Image in ascending ID (R105): a route counts while its entry signal holds its route lock. -/
def Img.lockedRoutes (i : Img) (si : Store ObjRec) : List Nat :=
  sortBy id ((si.filter (fun e => decide (e.2.lockKind ≠ 0) && i.rUsed e.2.routeLock &&
    decide (i.rEntry e.2.routeLock = e.1))).map (fun e => e.2.routeLock))

abbrev SI := Store ObjRec

def SI.at (si : SI) (o : Nat) : ObjRec := Store.get ObjRec.zero si o
def SI.upd (si : SI) (o : Nat) (f : ObjRec → ObjRec) : SI := Store.upd ObjRec.zero si o f
def SI.updAll (si : SI) (os : List Nat) (f : ObjRec → ObjRec) : SI := os.foldl (fun s o => SI.upd s o f) si

def Img.isLocked (i : Img) (si : SI) (r : Nat) : Bool := (SI.at si (i.rEntry r)).routeHeld r

/-- The overlap a locked route holds: the first in OVERLAPS whose objects are exactly those that hold an overlap slot for
the route (assumption 24: the record holds no overlap index). -/
def Img.heldOverlap (i : Img) (si : SI) (r : Nat) : Option Nat :=
  let held := (si.filter (fun e => e.2.overlapList.contains r)).map (·.1)
  (i.overlaps r).find? (fun v =>
    decide (v ≠ 0xFFFF) &&
    (let os := (i.ovElems v).map (·.obj)
     !os.isEmpty && os.all held.contains && held.all os.contains))

def posIn (es : List Elem) (o : Nat) : Nat := match es.find? (fun e => e.obj = o) with | some e => e.pos | none => 0
def Img.routePos (i : Img) (q o : Nat) : Nat := posIn (i.elems q) o
def Img.overlapPos (i : Img) (si : SI) (q o : Nat) : Nat :=
  match i.heldOverlap si q with | some v => posIn (i.ovElems v) o | none => 0
def Img.flankPos (i : Img) (q o : Nat) : Nat :=
  match (i.flanks q).find? (fun f => f.obj = o) with | some f => f.pos | none => 0

/-- The positions that the locks held on an object require. -/
def Img.lockPositions (i : Img) (si : SI) (o : Nat) : List Nat :=
  let r := SI.at si o
  (if r.lockKind ≠ 0 then [i.routePos r.routeLock o] else []) ++ r.overlapList.map (fun q => i.overlapPos si q o) ++
  r.flankList.map (fun q => i.flankPos q o)

end Sys2Proof.Machine
end

