-- ==== Sys2Proof/Machine/Eval.lean ====
section
/-!
DEFINITION. Machine/Eval.lean: what an evaluation decides (R88, R92 to R98, R108, R109): the checks of a SET_ROUTE on the
frozen State Image and input image, the compatibility of locks, the hold conditions, the choice of an aspect.
-/
namespace Sys2Proof.Machine

/-- What an evaluation reads: the image, a State Image, the input image, the cluster and the rule program's identity. -/
structure Fz where
  i : Img
  f : SI
  n : InputSet
  cluster : Nat
  deriving DecidableEq, Repr

def Fz.at (z : Fz) (o : Nat) : ObjRec := SI.at z.f o
def Fz.read (z : Fz) (o : Nat) : InObj := z.n.read z.i (z.at o).proving o
def Fz.lost (z : Fz) (o : Nat) : Bool := z.n.lost z.i o
def Fz.occupied (z : Fz) (o : Nat) : Bool := bitOf (z.read o).det 0
/-- Position a point is detected in; a throw demand makes it not detected for locking (R70). -/
def Fz.position (z : Fz) (o : Nat) : Nat :=
  if (z.at o).throwDemand then 0 else if (z.read o).det % 4 = 3 then 0 else (z.read o).det % 4

/-! ### Weight (R88) -/

def Img.workSize (i : Img) (r : Nat) : Nat :=
  i.rElemCount r + i.rFlankCount r + i.rApprCount r +
  ((i.overlaps r).map (fun v => if v = 0xFFFF then 0 else i.ent 6 v 32 2 1)).foldl max 0

/-- The estimate of a piece of work, in steps. -/
def Img.estimate (i : Img) (n : Nat) : Nat := 20 + 14 * n
def weightOf (e : Nat) : Nat := ceilDiv e 580

def Img.routeEstimate (i : Img) (r : Nat) : Nat := i.estimate (i.workSize r)

/-- Estimate of a request: SET_ROUTE and CANCEL_ROUTE by the route, the other route work with n = 1. -/
def Img.reqEstimate (i : Img) (w : W64) : Nat :=
  if rqType w = 1 ∨ rqType w = 2 then i.routeEstimate (rqTarget w) else i.estimate 1

/-- Weight of a request; restriction requests have none (R75). -/
def Img.reqWeight (i : Img) (w : W64) : Nat := if isRestriction (rqType w) then 0 else weightOf (i.reqEstimate w)

/-! ### Throws (R109) -/

/-- Why a point cannot be thrown to a position, by the first failing condition. -/
def Fz.throwReason (z : Fz) (o pos : Nat) : Option Nat :=
  if (z.i.lockPositions z.f o).any (fun p => decide (p ≠ pos)) then some 2
  else if (z.at o).restrict ≠ 0 then some 9
  else if z.lost o then some 10
  else if !Config.throwCondition z.i.imageId o pos z.cluster then some 4
  else none

/-- A point is in position, or can be thrown. -/
def Fz.reachable (z : Fz) (o pos : Nat) : Bool := z.position o = pos || (z.throwReason o pos).isNone

/-! ### Compatibility of locks (R95) -/

def others (l : List Nat) (r : Nat) : List Nat := l.filter (fun q => decide (q ≠ r))

/-- A route lock for route r on an element (R95). An element that is neither section, point nor signal is judged as a section (DEDUCED,
assumption 129). -/
def Img.elemLockOk (i : Img) (s : SI) (r : Nat) (e : Elem) : Bool :=
  let x := SI.at s e.obj
  !x.otherRoute r &&
  (decide (e.role = 3) ||
    ((others x.overlapList r).isEmpty &&
     (others x.flankList r).all (fun q => e.isPoint && decide (i.flankPos q e.obj = e.pos))))

/-- An overlap lock for route r on an element of an overlap. -/
def Img.overlapLockOk (i : Img) (s : SI) (r : Nat) (e : Elem) : Bool :=
  let x := SI.at s e.obj
  !x.otherRoute r &&
  (!e.isPoint ||
    ((others x.overlapList r).all (fun q => decide (i.overlapPos s q e.obj = e.pos)) &&
     (others x.flankList r).all (fun q => decide (i.flankPos q e.obj = e.pos))))

/-- A flank lock for route r (R95): a point or derailer by position, a signal while it is restrictive and no locked
route's entry. -/
def Img.flankLockOk (i : Img) (s : SI) (r : Nat) (f : Flank) : Bool :=
  let x := SI.at s f.obj
  if f.kind = 2 then
    !i.permissive f.obj x && !(x.otherRoute r && decide (i.rEntry x.routeLock = f.obj))
  else
    (!x.otherRoute r || decide (i.routePos x.routeLock f.obj = f.pos)) &&
    (others x.overlapList r).all (fun q => decide (i.overlapPos s q f.obj = f.pos)) &&
    (others x.flankList r).all (fun q => decide (i.flankPos q f.obj = f.pos))

/-- The entry signal takes no route lock beside another route's (R42, assumption 25). -/
def Img.entryLockOk (i : Img) (s : SI) (r : Nat) : Bool := !(SI.at s (i.rEntry r)).otherRoute r

/-- The elements and the entry of r pass R95 for route locks. -/
def Img.routeLocksOk (i : Img) (s : SI) (r : Nat) : Bool :=
  i.entryLockOk s r && (i.elems r).all (i.elemLockOk s r)

/-! ### Routes -/

def Img.takesOverlap (i : Img) (r : Nat) : Bool := i.rKind r = 1 || i.rKind r = 4
/-- The objects R94 judges: elements, flanks and the entry signal. -/
def Img.routeObjects (i : Img) (r : Nat) : List Nat :=
  (i.elems r).map (·.obj) ++ (i.flanks r).map (·.obj) ++ [i.rEntry r]
def Img.sections (i : Img) (r : Nat) : List Nat := ((i.elems r).filter (·.isSection)).map (·.obj)
/-- The sections that must be clear: the first for a call-on route (R94). -/
def Img.testedSections (i : Img) (r : Nat) : List Nat := if i.rKind r = 3 then (i.sections r).take 1 else i.sections r
def Img.ovSections (i : Img) (v : Nat) : List Nat := ((i.ovElems v).filter (·.isSection)).map (·.obj)
def Img.ovObjects (i : Img) (v : Nat) : List Nat := (i.ovElems v).map (·.obj)

/-- R96: the overlap is available to route r. -/
def Fz.overlapFree (z : Fz) (r v : Nat) : Bool :=
  let es := z.i.ovElems v
  decide (v ≠ 0xFFFF) &&
  es.all (fun e => !e.isSection || !z.occupied e.obj) &&
  es.all (fun e => !e.isPoint || z.reachable e.obj e.pos) &&
  es.all (z.i.overlapLockOk z.f r) &&
  (others (z.i.lockedRoutes z.f) r).all (fun q => decide (z.i.heldOverlap z.f q ≠ some v)) &&
  decide ((z.at (z.i.ovTimerObj v)).timer1.state = 0) &&
  es.all (fun e => !(z.at e.obj).demand && decide ((z.at e.obj).restrict = 0) && !z.lost e.obj) &&
  es.all (fun e => decide ((z.at e.obj).overlapList.length < 2))

/-- The overlaps a SET_ROUTE tries, in order (R74 OPTION, R96). -/
def Img.tried (i : Img) (r option : Nat) : List Nat :=
  if option = 0 then (i.overlaps r).filter (fun v => decide (v ≠ 0xFFFF)) else [(i.overlaps r).getD (option - 1) 0xFFFF]

/-- A route that takes no overlap: shunt, call-on, or a main route whose OVERLAPS are all 0xFFFF (R96). -/
def Img.noOverlap (i : Img) (r : Nat) : Bool := !i.takesOverlap r || (i.overlaps r).all (fun v => decide (v = 0xFFFF))

/-- What the working of a request decides on frozen data. -/
inductive Verdict where
  /-- blocked with a reason; rejected whatever STORE says when the flag stands -/
  | block (reason : Nat) (reject : Bool)
  /-- lock the route with an overlap -/
  | lock (overlap : Option Nat)
  /-- a SET_ROUTE for a locked route (R98) -/
  | reclear
  /-- release every lock of the route; signal to entry 0 (R108) -/
  | free
  /-- start the approach release timer (R108) -/
  | timing
  /-- command a point, or nothing when it lies there already (R109) -/
  | throwTo (pos : Option Nat)
  | lift
  | withdrawIt
  deriving DecidableEq, Repr

/-- The checks of R94 in table order. -/
def Fz.setRoute (z : Fz) (r option : Nat) : Verdict :=
  let i := z.i
  let os := i.routeObjects r
  let locked := i.lockedRoutes z.f
  let ov := (i.tried r option).find? (z.overlapFree r)
  if os.any (fun o => (z.at o).demand) then .block 8 true
  else if os.any (fun o => decide ((z.at o).restrict ≠ 0)) then .block 9 true
  else if locked.length ≥ 2048 ∨ (i.flanks r).any (fun k => decide ((z.at k.obj).flankList.length ≥ 4)) then .block 7 true
  else if locked.any (fun q => i.conflict r q) then .block 1 false
  else if os.any z.lost then .block 10 false
  else if !i.routeLocksOk z.f r then .block 2 false
  else if (i.testedSections r).any z.occupied then .block 3 false
  else if (i.elems r).any (fun e => e.isPoint && !z.reachable e.obj e.pos) then .block 4 false
  else if !i.noOverlap r && ov.isNone then .block 5 false
  else if (i.flanks r).any (fun k => !i.flankLockOk z.f r k ||
      (decide (k.kind ≠ 2) && !z.reachable k.obj k.pos)) then .block 6 false
  else .lock (if i.noOverlap r then none else ov)

/-! ### Phases (R100 to R103) -/

/-- The train has entered: the first section in running order has reached phase 1, or has released with its group. -/
def Img.entered (i : Img) (s : SI) (r : Nat) : Bool :=
  match i.sections r with
  | [] => false
  | o :: _ => if (SI.at s o).routeHeld r then decide ((SI.at s o).phase ≠ 0) else true

/-! ### Aspects (R53, R54, R98, R451) -/

/-- The next signal's level (R451). -/
def Img.nextLevel (i : Img) (s : SI) (o : Nat) : Nat :=
  let x := SI.at s o
  if i.cls o = 9 then bitsOf x.det 4 1
  else
    let committed := (i.levelOf (i.aspectSet o) x.command).getD 0
    let shown := if x.lost || bitOf x.det 16 then 0 else (i.levelOf (i.aspectSet o) (x.det % 65536)).getD 0
    min committed shown

def Img.condHolds (i : Img) (s : SI) (r : Nat) (e : AspectEnt) : Bool :=
  if e.cond = 0 then true
  else if e.cond = 1 then decide (1 ≤ i.rKind r) && bitOf (e.param % 16) (i.rKind r - 1)
  else if e.cond = 2 then decide (e.param % 16 ≤ i.nextLevel s (bitsOf e.param 29 16))
  else
    let v := (i.overlaps r).getD (e.param % 4) 0xFFFF
    decide (v ≠ 0xFFFF) && decide (i.heldOverlap s r = some v)

/-- The entry R54 selects among entries 1 to COUNT − 1 of the route's aspect set. -/
def Img.selectAspect (i : Img) (s : SI) (r : Nat) : Option AspectEnt :=
  (((i.aspects (i.rAspectSet r)).drop 1).filter (i.condHolds s r)).getLast?

/-! ### Hold conditions (R92) -/

/-- Objects the hold conditions of a locked route judge: entry, elements, overlap and flank objects. -/
def Img.heldObjects (i : Img) (s : SI) (r : Nat) : List Nat :=
  i.rEntry r :: (i.elems r).map (·.obj) ++ (i.flanks r).map (·.obj) ++
  (match i.heldOverlap s r with | some v => i.ovObjects v | none => [])

/-- The reason of the first hold condition that fails, on a State Image after its input commit; none when all hold. -/
def Img.holdFails (i : Img) (s : SI) (r : Nat) : Option Nat :=
  let pt := fun (o p : Nat) => !(SI.at s o).throwDemand && decide ((SI.at s o).position = p)
  let ovs := match i.heldOverlap s r with | some v => i.ovElems v | none => []
  if (i.testedSections r).any (fun o => (SI.at s o).occupied) then some 3
  else if i.takesOverlap r && ovs.any (fun e => e.isSection && (SI.at s e.obj).occupied) then some 5
  else if (i.elems r ++ ovs).any (fun e => e.isPoint && !pt e.obj e.pos) then some 4
  else if (i.flanks r).any (fun k => if k.kind = 2 then i.permissive k.obj (SI.at s k.obj) else !pt k.obj k.pos) then some 6
  else if (i.heldObjects s r).any (fun o => decide ((SI.at s o).restrict ≠ 0)) then some 9
  else if (i.heldObjects s r).any (fun o => (SI.at s o).lost) then some 10
  else none

/-! ### Cancellation (R108) and points -/

def Fz.cancel (z : Fz) (r : Nat) : Verdict :=
  let e := z.at (z.i.rEntry r)
  if !z.i.isLocked z.f r then .block 11 true
  else if z.i.entered z.f r then .block 12 true
  else if e.lockKind = 3 then .block 13 true
  else if e.lockKind = 1 then .free
  else if (z.i.rule r).cancel = 0 ∧ (z.i.approach r).all (fun o => !z.occupied o) then .free
  else .timing

/-- THROW_POINT (R109): done with no command when the point lies in the position already. -/
def Fz.throwPoint (z : Fz) (o pos : Nat) : Verdict :=
  if (if (z.read o).det % 4 = 3 then 0 else (z.read o).det % 4) = pos then .throwTo none
  else match z.throwReason o pos with
    | some k => .block k true
    | none => .throwTo (some pos)

/-- What the working of a request decides. -/
def Fz.work (z : Fz) (w : W64) : Verdict :=
  let t := rqType w
  let tgt := rqTarget w
  if t = 1 then (if z.i.isLocked z.f tgt then .reclear else z.setRoute tgt (rqOption w))
  else if t = 2 then z.cancel tgt
  else if t = 3 then z.throwPoint tgt (rqOption w)
  else if t = 4 then .withdrawIt
  else .lift

/-! ### What is due (R87, R100) -/

/-- The objects a route references: entry, elements, overlap, flank and approach objects, aspect condition objects. -/
def Img.referenced (i : Img) (s : SI) (r : Nat) : List Nat :=
  i.heldObjects s r ++ i.approach r ++
  (((i.aspects (i.rAspectSet r)).filter (fun e => e.cond = 2)).map (fun e => bitsOf e.param 29 16))

/-- A record without what alone makes no route due: STEADY, LOST_COUNT, RESTORE and LAST_CHANGE (R100). -/
def ObjRec.core (x : ObjRec) : ObjRec :=
  { x with detected := x.detected &&& 0xFFFFFF, comm := x.comm &&& 0xF0000000, lastChange := 0 }

/-- One of the route's timers stands expired: the approach release timer, or that of its overlap. -/
def Fz.timerExpired (z : Fz) (r : Nat) : Bool :=
  let gone := fun (t : Timer) => decide (t.state = 2) && decide (t.owner = r)
  gone (z.at (z.i.rEntry r)).timer0 ||
  (match z.i.heldOverlap z.f r with | some v => gone (z.at (z.i.ovTimerObj v)).timer1 | none => false)

/-- R100: the route is supervised in this cycle. `named`: a request names it; `moved`: the objects the last Press changed. -/
def Fz.due (z : Fz) (named moved : List Nat) (r : Nat) : Bool :=
  named.contains r || z.timerExpired r ||
  (z.i.referenced z.f r).any (fun o =>
    let x := z.at o
    let v := z.read o
    moved.contains o || decide (v.det ≠ x.det) || decide (v.inputs ≠ x.inputs) ||
    decide (commState (z.n.comm z.i o) ≠ commState x.comm))

end Sys2Proof.Machine
end

