-- ==== Sys2Proof/Machine/PressBuild.lean ====
section
/-!
DEFINITION. Machine/PressBuild.lean: the write list of a Press (R90) as a function of a lane: the input commit with proving
demands, the timer step, supervision results, request results under R91, the hold check and the aspect step (R92).
-/
namespace Sys2Proof.Machine

/-! ### Step 1: the input commit (R69, R70, R72, R86, R195, R271) -/

def noThrow : Nat → ThrowSeq := fun _ => ⟨0, 0⟩
def notSeen : Nat → Bool := fun _ => false

/-- DETECTED with STEADY: 1 at a change, else one more up to 255 (R86). -/
def commitDetected (old : W32) (det : Nat) : W32 :=
  let st := if old.toNat % 2 ^ 24 = det % 2 ^ 24 then min (old.toNat / 2 ^ 24 + 1) 255 else 1
  BitVec.ofNat 32 (st * 2 ^ 24 + det % 2 ^ 24)

/-- The input demands that a reading as received meets (R69). -/
def Img.metDemands (i : Img) (o : Nat) (demand inputs : Byte) : Byte :=
  demand &&& ~~~(inputs ^^^ BitVec.ofNat 8 (i.restrInputs o))

/-- The demands an input commit meets (R69): none by a reading not received; those of a class 9 object by a confirmed entry that
reads restrictive, BLOCKED 1, for its INPUTS are always zero (R271, assumption 97). -/
def Fz.met (z : Fz) (o : Nat) (demand : Byte) : Byte :=
  match z.n.received z.i o with
  | some raw =>
    if z.i.cls o = 9 then (if z.n.early.contains o || !bitOf raw.det 0 then 0 else demand)
    else z.i.metDemands o demand raw.inputs
  | none => 0

/-- R70 at the input commit: the sequence so far, and whether the demand is met. -/
def throwStep (t : ThrowSeq) (pos : Nat) (lost : Bool) : ThrowSeq × Bool :=
  if lost || decide (pos = 0) then (t, false)
  else if t.step = 0 then (⟨1, pos⟩, false)
  else if pos = t.pos then (t, false)
  else if t.step = 2 then (⟨0, 0⟩, true)
  else (⟨1, pos⟩, false)

/-- The state of a Press being built. -/
structure PS where
  s : SI
  queue : List Req
  ends : List (Req × Nat × Nat)
  written : List Nat
  clears : List Nat
  converted : List Nat
  throws : Store ThrowSeq
  seen : Store Bool
  lifts : List Req
  rearmed : Bool
  committed : Nat
  /-- the write list so far, in the order of R90 -/
  log : List WriteEntry
  /-- re-clears put off to step 5, with their route, and whether R91 refuses their writes -/
  reclears : List (Req × Nat × Bool)
  /-- the requests whose final outcome step 5 gives, with it; none in the trial that finds them (R111, assumption 19) -/
  settled : Option (List (Nat × Nat))

/-- One part of the write list: its writes follow those before it (R90, R145). -/
def PS.part (i : Img) (timers : Bool) (f : PS → PS) (p : PS) : PS :=
  let q := f p
  { q with log := q.log ++ diffImages i.objects timers p.s q.s }

/-- Step 5 gives a request its final outcome, as the trial found. -/
def PS.settles (p : PS) (seq : Nat) : Bool := match p.settled with | some l => l.any (fun e => decide (e.1 = seq)) | none => false

/-- Step 5 commits the clearing that the request asks for: CLEARED, as the trial found; in the trial itself, taken so. -/
def PS.commits (p : PS) (seq : Nat) : Bool := match p.settled with | some l => l.contains (seq, 2) | none => true

/-- The input commit of one object. -/
def PS.input (z : Fz) (p : PS) (o : Nat) : PS :=
  let i := z.i
  let x := SI.at p.s o
  let v := z.read o
  let comm := z.n.comm i o
  let lost := decide (commState comm ≠ 0)
  let met := z.met o x.proving
  let pos := if v.det % 4 = 3 then 0 else v.det % 4
  let thr := if x.throwDemand then throwStep (Store.get noThrow p.throws o) pos lost else (Store.get noThrow p.throws o, false)
  let x1 := { x with inputs := v.inputs, detected := commitDetected x.detected v.det, comm := comm,
                     proving := x.proving &&& ~~~met,
                     release := if thr.2 then BitVec.ofNat 8 (putBit x.release.toNat 7 false) else x.release }
  let x2 := if i.cls o = 9 then
      { x1 with restrict := BitVec.ofNat 8 (putBit x1.restrict.toNat 3 (bitOf v.det 5)) } else x1
  let again := i.rearm && Store.get notSeen p.seen o && decide (commState x.comm ≠ 0) && !lost
  let x3 := if again then
      { x2 with proving := x2.proving ||| BitVec.ofNat 8 ((i.proving o).1 &&& i.inputMask o),
                release := (if i.cls o = 2 ∧ (i.proving o).2 = 1 then BitVec.ofNat 8 (putBit x2.release.toNat 7 true)
                           else x2.release) } else x2
  { p with s := SI.upd p.s o (fun _ => x3),
           throws := (Store.set noThrow p.throws o
             (if again && decide (i.cls o = 2) && decide ((i.proving o).2 = 1) then ⟨0, 0⟩ else thr.1)),
           seen := if lost then p.seen else Store.set notSeen p.seen o true,
           rearmed := p.rearmed || again }

/-! ### Step 2: the timer step (R90) -/

def Timer.tick (t : Timer) : Timer :=
  if t.state = 1 then
    if t.remaining ≤ 1 then { t with state := 2, remaining := 0 } else { t with remaining := t.remaining - 1 }
  else t

def ObjRec.tick (x : ObjRec) : ObjRec := { x with timer0 := x.timer0.tick, timer1 := x.timer1.tick }

/-- Every running timer's REMAINING decreases by one; at zero it is set to STATE 2. -/
def SI.tick (s : SI) : SI := s.map (fun e => (e.1, e.2.tick))

/-! ### Locks and releases (R97, R102, R104, R105, R108) -/

/-- A timer stopped: STATE 0, owned by no route. -/
def Timer.stop (t : Timer) (r : Nat) : Timer := if t.owner = r ∧ t.state ≠ 0 then { t with state := 0, owner := 0 } else t

def ObjRec.unlock (x : ObjRec) (r : Nat) : ObjRec :=
  if x.routeHeld r then { x with lockKind := 0, routeLock := 0 }.setPhase 0 else x

/-- R104: the route's overlap slots clear, its timer stops, and the phases of its overlap sections return to 0 where no
other overlap lock stands (R101). -/
def Img.dropOverlapLocks (i : Img) (s : SI) (r : Nat) : SI :=
  match i.heldOverlap s r with
  | none => s
  | some v =>
    let s := SI.updAll s (i.ovObjects v) (fun x => x.dropOverlap r)
    let s := SI.updAll s (if i.takesOverlap r then i.ovSections v else [])
      (fun x => if x.overlapList.isEmpty && decide (x.lockKind = 0) then x.setPhase 0 else x)
    SI.upd s (i.ovTimerObj v) (fun x => { x with timer1 := x.timer1.stop r })

def Img.dropFlankLocks (i : Img) (s : SI) (r : Nat) : SI := SI.updAll s ((i.flanks r).map (·.obj)) (fun x => x.dropFlank r)

/-- The entry signal gives up the route's lock (R105); its approach release timer is idle again. -/
def Img.freeEntry (i : Img) (s : SI) (r : Nat) : SI :=
  SI.upd s (i.rEntry r) (fun x => if x.routeHeld r then
    { x with lockKind := 0, routeLock := 0, timer0 := x.timer0.stop r } else x)

/-- Every lock of the route releases. -/
def Img.freeRoute (i : Img) (s : SI) (r : Nat) : SI :=
  let s := SI.updAll s ((i.elems r).map (·.obj)) (fun x => x.unlock r)
  i.freeEntry (i.dropFlankLocks (i.dropOverlapLocks s r) r) r

/-- LOCK_KIND on the entry signal and on every element the route still locks. -/
def Img.setKind (i : Img) (s : SI) (r k : Nat) : SI :=
  SI.updAll s (dedup (i.rEntry r :: (i.elems r).map (·.obj))) (fun x => if x.routeHeld r then { x with lockKind := k } else x)

/-- The route's release groups below 255, ascending; a route with none has the one group 255 (assumption 26). -/
def Img.groups (i : Img) (r : Nat) : List Nat :=
  let gs := sortBy id (dedup (((i.elems r).map (·.group)).filter (fun g => decide (g < 255))))
  if gs.isEmpty then [255] else gs

/-- R97: what a committed SET_ROUTE writes. -/
def Img.lockRoute (z : Fz) (s : SI) (r : Nat) (ov : Option Nat) : SI :=
  let i := z.i
  let s := SI.updAll s ((i.elems r).map (·.obj)) (fun x => { x with routeLock := r, lockKind := 1 }.setPhase 0)
  let s := SI.upd s (i.rEntry r) (fun x => { x with routeLock := r, lockKind := 1 }.setPhase ((i.groups r).headD 0))
  let fresh := fun (x : ObjRec) => x.lockKind = 0 ∧ x.overlapList = [] ∧ x.flankList = []
  let s := match ov with
    | some v => (dedup (i.ovObjects v)).foldl (fun s o => SI.upd s o (fun x =>
        (if fresh x ∧ (i.ovSections v).contains o then x.setPhase 0 else x).takeOverlap r)) s
    | none => s
  let s := SI.updAll s (dedup ((i.flanks r).map (·.obj))) (fun x => x.takeFlank r)
  let need := (i.elems r ++ (match ov with | some v => i.ovElems v | none => [])).filter (·.isPoint)
  let pts := need.map (fun e => (e.obj, e.pos)) ++
    ((i.flanks r).filter (fun f => decide (f.kind ≠ 2))).map (fun f => (f.obj, f.pos))
  pts.foldl (fun s e => if z.position e.1 = e.2 then s else SI.upd s e.1 (fun x => x.setCommand i e.1 e.2)) s

/-! ### Outcomes -/

/-- Report an outcome of a request: final, and it leaves the queue; else it stays as a follower (R80). -/
def PS.finish (p : PS) (q : Req) (outcome reason : Nat) : PS :=
  { p with ends := p.ends ++ [(q, outcome, reason)],
           queue := (if outcomeFinal outcome then p.queue.filter (fun x => decide (x.seq ≠ q.seq))
                    else p.queue.map (fun x => if x.seq = q.seq then { x with follower := true } else x)) }

/-- The followers of a route of the given types end. -/
def PS.tell (p : PS) (r : Nat) (types : List Nat) (outcome reason : Nat) : PS :=
  (p.queue.filter (fun q => q.follower && decide (rqTarget q.word = r) && types.contains (rqType q.word))).foldl
    (fun p q => p.finish q outcome reason) p

/-- The objects of a list whose records two State Images hold differently. -/
def changedIn (os : List Nat) (s t : SI) : List Nat := os.filter (fun o => decide (SI.at s o ≠ SI.at t o))

/-! ### Step 3: supervision (R100 to R106) -/

/-- The new phase of a section (R101), by its record after the input commit of this Press, which gives STEADY at this Gather (R86). -/
def phaseNext (old : Nat) (x : ObjRec) (dwell : Nat) : Nat :=
  if x.steady < dwell then old
  else if old = 0 ∧ x.occupied then 1
  else if old = 1 ∧ !x.occupied then 2
  else old

/-- Release the elements of a group; the last group takes the elements of group 255 and the flank locks with it. -/
def Img.freeGroup (i : Img) (s : SI) (r g : Nat) (last : Bool) : SI :=
  let os := ((i.elems r).filter (fun e => decide (e.group = g) || (last && decide (e.group = 255)))).map (·.obj)
  let s := SI.updAll s os (fun x => x.unlock r)
  if last then i.dropFlankLocks s r else s

def Img.groupSections (i : Img) (r g : Nat) : List Nat :=
  ((i.elems r).filter (fun e => e.isSection && decide (e.group = g))).map (·.obj)

def Img.groupHeld (i : Img) (s : SI) (r g : Nat) : Bool :=
  (i.elems r).any (fun e => decide (e.group = g) && (SI.at s e.obj).routeHeld r)

/-- The condition of R102 for group g, with the next group when there is one, and that of the rule program (R449). -/
def Img.groupFree (i : Img) (s : SI) (cluster r g : Nat) (next : Option Nat) : Bool :=
  let cleared := (i.groupSections r g).all (fun o => (SI.at s o).phase = 2) && Config.ruleRelease i.imageId r g cluster
  if (i.rule r).sectional = 1 then
    cleared && (match next with
      | some h => (i.groupSections r h).any (fun o => (SI.at s o).routeHeld r && decide ((SI.at s o).phase ≠ 0))
      | none => true)
  else cleared

/-- Groups release in ascending order, several at one Press when each finds its own condition (R102). -/
def Img.freeGroups (i : Img) (cluster r : Nat) : List Nat → SI → SI
  | [], s => s
  | g :: t, s =>
    if !i.groupHeld s r g then i.freeGroups cluster r t s
    else if i.groupFree s cluster r g t.head? then i.freeGroups cluster r t (i.freeGroup s r g t.isEmpty)
    else s

/-- The sectional release of R102. Past the last group the entry signal's RELEASE_STATE[6:0] is one more than that group, in seven bits
(DESIGN CHOICE, assumption 129). -/
def Img.sectionalRelease (i : Img) (s : SI) (cluster r : Nat) : SI :=
  let gs := i.groups r
  let last := gs.getLastD 0
  let s' :=
    if (i.rule r).sectional = 0 then
      if i.groupHeld s r last && (i.groupSections r last).all (fun o => (SI.at s o).phase = 2) &&
         (i.sections r).all (fun o => !(SI.at s o).occupied) && Config.ruleRelease i.imageId r last cluster
      then gs.foldl (fun s g => i.freeGroup s r g (decide (g = last))) s
      else s
    else i.freeGroups cluster r gs s
  let progress := match gs.find? (fun g => i.groupHeld s' r g) with | some g => g | none => last + 1
  SI.upd s' (i.rEntry r) (fun x => if x.routeHeld r then x.setPhase (max (x.phase) progress % 128) else x)

def Img.routeHeldAnywhere (i : Img) (s : SI) (r : Nat) : Bool :=
  (i.elems r).any (fun e => (SI.at s e.obj).routeHeld r)

/-- R104: the overlap timer has expired and the overlap locks release; or TRIGGER has reached phase 1 and it starts. `s1` is the
image with its new phases. A start takes slot 1 of TIMER_OBJECT whatever runs in it (DESIGN CHOICE, assumption 129). -/
def Fz.overlapTimer (z : Fz) (s1 s : SI) (r : Nat) (secs : List Nat) (now : Bool) : SI :=
  match z.i.heldOverlap z.f r with
  | none => s
  | some v =>
    let o := z.i.ovTimerObj v
    let t := z.i.ovTrigger v
    if (z.at o).timer1.state = 2 ∧ (z.at o).timer1.owner = r then z.i.dropOverlapLocks s r
    else if secs.contains t && decide ((SI.at s1 t).phase = 1) &&
        (decide ((z.at t).phase = 0) || (now && decide ((SI.at s o).timer1.state = 0)))
      then SI.upd s o (fun x => { x with timer1 := ⟨1, r, z.i.timerClusters o 1⟩ })
    else s

/-- R106: an automatic working route whose sections are all in phase 2 is armed again. -/
def Img.rearmRoute (i : Img) (s : SI) (r : Nat) (ov : Option Nat) (secs : List Nat) : SI :=
  if !(i.sections r).isEmpty && secs.all (fun o => decide ((SI.at s o).phase = 2)) then
    let s := i.setKind (SI.updAll s secs (fun x => x.setPhase 0)) r 1
    match ov with
    | some v => SI.upd s (i.ovTimerObj v) (fun x => { x with timer1 := x.timer1.stop r })
    | none => s
  else s

/-- The supervision of a locked route on the frozen State Image `z.f`, applied to the Press under way. -/
def PS.supervise (z : Fz) (p : PS) (r : Nat) : PS :=
  let i := z.i
  if !i.isLocked z.f r then p
  else
    let es := i.rEntry r
    let e := z.at es
    let ov := i.heldOverlap z.f r
    let osecs := match ov with | some v => if i.takesOverlap r then i.ovSections v else [] | none => []
    let secs := (i.sections r).filter (fun o => (z.at o).routeHeld r)
    let all := dedup (secs ++ osecs)
    let dwell := (i.rule r).dwell
    let s1 := all.foldl (fun s o => SI.upd s o (fun x => x.setPhase (phaseNext x.phase x dwell))) p.s
    let was := i.entered z.f r
    let now := i.entered s1 r
    let done := fun (s : SI) (p : PS) =>
      let w := changedIn i.objects p.s s
      { p with s := s, written := p.written ++ w, committed := p.committed + b2n (!w.isEmpty) }
    if e.lockKind = 3 && !now then
      if e.timer0.state = 2 ∧ e.timer0.owner = r then (done (i.freeRoute s1 r) p).tell r [1, 2] 5 0
      else done (z.overlapTimer s1 s1 r all now) p
    else
      let entering := now && !was
      let s2 := if entering then
          SI.upd (i.setKind s1 r 1) es (fun x => { x.restrictCommand i es with timer0 := x.timer0.stop r }) else s1
      let s3 := z.overlapTimer s1 s2 r all now
      let auto := decide (i.rKind r = 4) && !p.converted.contains r
      let s4 := if auto then i.rearmRoute s3 r ov all else i.sectionalRelease s3 z.cluster r
      let lastOut := !i.routeHeldAnywhere s4 r
      let s5 := if !auto && lastOut && osecs.all (fun o => decide ((SI.at s4 o).phase = 2)) then i.dropOverlapLocks s4 r
                else s4
      let freed := lastOut && (i.heldOverlap s5 r).isNone &&
        (i.flanks r).all (fun f => !(SI.at s5 f.obj).flankList.contains r)
      let s6 := if freed then i.freeEntry s5 r else s5
      let p := done s6 p
      let p := if entering && decide (e.lockKind = 3) then p.tell r [2] 6 12 else p
      let p := if freed then p.tell r [1, 2] 5 0 else p
      if !freed && decide ((SI.at s6 es).lockKind = 1) && !i.entered s6 r then { p with clears := p.clears ++ [r] } else p

/-! ### What the rule program writes beyond the tables (R50, R327, R449) -/

/-- A timer of KIND 4 or 5 under the rule program. -/
def Fz.ruleTimer (z : Fz) (o slot : Nat) (t : Timer) : Timer :=
  let act := Config.ruleTimer z.i.imageId o slot z.cluster
  if z.i.timerKind o slot ≠ 4 ∧ z.i.timerKind o slot ≠ 5 then t
  else if act = 1 then ⟨1, 0, z.i.timerClusters o slot⟩
  else if act = 2 then { t with state := 0, owner := 0 }
  else t

/-- The record of an object as the rule program leaves it: APP, its timers, the command of a level crossing, gate, release key or
output object, and a throw of a point that R109 allows. -/
def Fz.ruleRecord (z : Fz) (o : Nat) (x : ObjRec) : ObjRec :=
  let i := z.i
  let c := i.cls o
  let x := { x with app := Config.appWrite i.imageId o z.cluster x.app, timer0 := z.ruleTimer o 0 x.timer0,
                    timer1 := z.ruleTimer o 1 x.timer1 }
  let v := Config.ruleCommand i.imageId o z.cluster x.command
  let pos := Config.ruleThrow i.imageId o z.cluster
  if c = 4 ∨ c = 5 ∨ c = 6 then x.setCommand i o (v % 2)
  else if c = 8 then x.setCommand i o (v % 256)
  else if c = 2 ∧ (pos = 1 ∨ pos = 2) ∧ (z.throwReason o pos).isNone then x.setCommand i o pos
  else x

/-- The rule program's writes at a Press whose Evaluate ran an evaluation, after the supervisions; the records it writes count as
written before the requests of the Press (R91; assumption 70). -/
def PS.ruleStep (z : Fz) (p : PS) : PS :=
  let z := { z with f := p.s }
  let s := z.i.objects.foldl (fun s o => SI.upd s o (z.ruleRecord o)) p.s
  { p with s := s, written := p.written ++ changedIn z.i.objects p.s s }

/-! ### Step 4: request results (R90, R91, R97, R98, R108 to R111) -/

/-- A blocked SET_ROUTE with STORE stays queued with its reason; every other blocked request is rejected (R80). -/
def PS.blocked (p : PS) (q : Req) (reason : Nat) (reject : Bool) : PS :=
  if rqType q.word = 1 && rqStore q.word && !reject then
    { p with queue := p.queue.map (fun x => if x.seq = q.seq then { x with reason := reason } else x) }
  else p.finish q 6 reason

/-- The objects of a restriction or a lift (R78, R110). -/
def Img.restrictTargets (i : Img) (w : W64) : List Nat :=
  let t := rqType w
  if t = 8 ∨ t = 12 then [rqTarget w % 2 ^ 14]
  else if t = 9 ∨ t = 13 then i.objects.filter (fun o => decide (i.area o = rqArea w))
  else i.objects

def restrictBit (t : Nat) : Nat := if t = 8 ∨ t = 12 then 0 else if t = 9 ∨ t = 13 then 1 else 2

/-- Set or clear the RESTRICT bit of a request's objects. -/
def Img.restrictRecords (i : Img) (s : SI) (w : W64) (b : Bool) : SI :=
  SI.updAll s (i.restrictTargets w) (fun x =>
    { x with restrict := BitVec.ofNat 8 (putBit x.restrict.toNat (restrictBit (rqType w)) b) })

/-- Apply writes, noting the records a result of this Press has written (R91); the result counts in PRESS.COMMITTED (R114,
assumption 110). -/
def PS.write (p : PS) (i : Img) (s : SI) : PS :=
  { p with s := s, written := p.written ++ changedIn i.objects p.s s, committed := p.committed + 1 }

/-- A restriction or a lift writes its RESTRICT bits; no record written before refuses it (R78, R110, R111). -/
def PS.restrict (p : PS) (i : Img) (q : Req) : PS :=
  ({ p.write i (i.restrictRecords p.s q.word (isRestriction (rqType q.word))) with lifts := p.lifts ++ [q] }).finish q 3 0

/-- Some record that a result would write was written before in this Press (R91). Its writes are what it changes in the frozen image, on
which it was evaluated, and in the image so far, so that a record written again with the same values counts too. -/
def PS.clash (z : Fz) (p : PS) (f : SI → SI) : Bool :=
  (changedIn z.i.objects z.f (f z.f) ++ changedIn z.i.objects p.s (f p.s)).any p.written.contains

/-- The records a re-clear writes: those of the entry signal and of the elements. -/
def Img.clearedObjects (i : Img) (r : Nat) : List Nat := i.rEntry r :: (i.elems r).map (·.obj)

/-- A SET_ROUTE for a locked route (R98): the first case that applies decides on the frozen State Image; whether the hold
conditions and an aspect allow the clearing is judged on the image after steps 1 to 4 (R451, `PS.reclearAt`), while R91 judges it
here, at its place. -/
def PS.reclear (z : Fz) (p : PS) (q : Req) (r : Nat) : PS :=
  let i := z.i
  let es := i.rEntry r
  let os := i.clearedObjects r
  if i.entered z.f r then p.finish q 6 12
  else if (z.at es).lockKind = 3 then p.finish q 6 13
  else if i.permissive es (z.at es) then p.finish q 2 0
  else
    let clash := os.any p.written.contains
    { p with reclears := p.reclears ++ [(q, r, clash)],
             written := (if !clash && p.commits q.seq then p.written ++ os else p.written) }

/-- R70: a point that the lock needs has a throw demand outstanding: of the route or its flanks, or of its overlap. -/
def Img.unproven (i : Img) (s : SI) (es : List Elem) (fs : List Flank) : Bool :=
  es.any (fun e => e.isPoint && (SI.at s e.obj).throwDemand) ||
  fs.any (fun f => decide (f.kind ≠ 2) && decide (i.cls f.obj = 2) && (SI.at s f.obj).throwDemand)

/-- A SET_ROUTE whose checks passed on the frozen data, judged under R91 (R42, R96: assumption 72). -/
def PS.lock (z : Fz) (p : PS) (q : Req) (r : Nat) (ov : Option Nat) : PS :=
  let i := z.i
  let locked := i.lockedRoutes p.s
  let ovs := match ov with | some v => i.ovElems v | none => []
  let s := Img.lockRoute z p.s r ov
  if i.unproven p.s (i.elems r) (i.flanks r) then p.finish q 6 8
  else if i.unproven p.s ovs [] then p.blocked q 5 false
  else if locked.any (fun k => i.conflict r k) then p.blocked q 1 false
  else if !(i.routeLocksOk p.s r && ovs.all (i.overlapLockOk p.s r) && (i.flanks r).all (i.flankLockOk p.s r) &&
      ovs.all (fun e => decide ((SI.at p.s e.obj).overlapList.length < 2)) &&
      (i.flanks r).all (fun f => decide ((SI.at p.s f.obj).flankList.length < 4)))
    then p.blocked q 2 false
  else if p.clash z (fun t => Img.lockRoute z t r ov) then p.blocked q 2 false
  else if locked.length ≥ 2048 then p.finish q 6 7
  else
    let p := (p.write i s).finish q 1 0
    { p with clears := p.clears ++ [r], converted := p.converted.filter (fun k => decide (k ≠ r)) }

/-- CANCEL_ROUTE releases every lock at this Press. -/
def PS.cancelFree (z : Fz) (p : PS) (q : Req) (r : Nat) : PS :=
  let i := z.i
  let free := fun (s : SI) => i.freeRoute (SI.upd s (i.rEntry r) (fun x => x.restrictCommand i (i.rEntry r))) r
  if p.clash z free then p.blocked q 2 false else ((p.write i (free p.s)).finish q 5 0).tell r [1, 2] 5 0

/-- CANCEL_ROUTE starts the approach release timer (R107, R108). -/
def PS.cancelTiming (z : Fz) (p : PS) (q : Req) (r : Nat) : PS :=
  let i := z.i
  let es := i.rEntry r
  let start := fun (s : SI) =>
    SI.upd (i.setKind s r 3) es (fun x => { x.restrictCommand i es with timer0 := ⟨1, r, i.timerClusters es 0⟩ })
  if p.clash z start then p.blocked q 2 false else (p.write i (start p.s)).finish q 4 0

/-- The oldest queued request that a WITHDRAW names (R111); one that step 5 ends at this Press has already left. -/
def PS.withdrawn (p : PS) (q : Req) : Option Req :=
  p.queue.find? (fun x => decide (x.seq ≠ q.seq) && decide (x.mbx = q.mbx) && decide (rqTag x.word = rqTarget q.word) &&
    isRouteWork (rqType x.word) && !(p.settles x.seq && !newer 32 x.seq q.seq))

/-- Step 5 may end the request at this Press: a follower whose route may clear, or a re-clear put off. -/
def PS.maySettle (p : PS) (x : Req) : Bool :=
  (x.follower && decide (rqType x.word = 1) && p.clears.contains (rqTarget x.word)) ||
  p.reclears.any (fun e => decide (e.1.seq = x.seq))

/-- WITHDRAW at its place in the order (R111). The trial leaves a target that step 5 may end. -/
def PS.withdraw (p : PS) (q : Req) : PS :=
  match p.withdrawn q with
  | some x => if p.settled.isNone && p.maySettle x then p
    else { (p.finish x 8 0).finish q 3 0 with reclears := p.reclears.filter (fun e => decide (e.1.seq ≠ x.seq)) }
  | none => p.finish q 6 15

/-- One request result at its place in the order. -/
def PS.request (z : Fz) (done : List Work) (p : PS) (q : Req) : PS :=
  let t := rqType q.word
  let r := rqTarget q.word
  if !p.queue.any (fun x => decide (x.seq = q.seq)) || q.follower then p
  else if isRestriction t then
    if q.gathered then p.restrict z.i q else p
  else if q.reason = 14 ∧ q.drops ≥ 3 then p.finish q 6 14
  else if !done.contains (.req q.seq) then p
  else
    let p := { p with queue := p.queue.map (fun (x : Req) => if x.seq = q.seq then { x with dropped := false, drops := 0 } else x) }
    let p := if t = 2 && z.i.isLocked z.f r && decide (z.i.rKind r = 4) && !p.converted.contains r
      then { p with converted := p.converted ++ [r] } else p
    match z.work q.word with
    | .block k reject => p.blocked q k reject
    | .lock ov => p.lock z q r ov
    | .reclear => p.reclear z q r
    | .free => p.cancelFree z q r
    | .timing => p.cancelTiming z q r
    | .throwTo none => p.finish q 3 0
    | .throwTo (some pos) =>
      if p.written.contains r then p.blocked q 2 true
      else (p.write z.i (SI.upd p.s r (fun x => x.setCommand z.i r pos))).finish q 3 0
    | .lift => p.restrict z.i q
    | .withdrawIt => p.withdraw q

/-! ### Step 5: the hold check and the aspect step (R92, R98, R110) -/

/-- The entry a route's signal may show, on the State Image `s4` as it stands after steps 1 to 4 (R451): none while a hold
condition fails, of R92 or of the rule program (R449). -/
def Fz.pick (z : Fz) (s4 : SI) (r : Nat) : Option AspectEnt :=
  if (z.i.holdFails s4 r).isSome || Config.ruleHold z.i.imageId r z.cluster then none else z.i.selectAspect s4 r

/-- A clearing: the aspect, and LOCK_KIND 2 throughout (R98); a result committed (R114, assumption 110). -/
def PS.clear (p : PS) (i : Img) (r : Nat) (a : AspectEnt) : PS :=
  ({ p with s := SI.upd (i.setKind p.s r 2) (i.rEntry r) (fun x => x.setCommand i (i.rEntry r) a.command),
            committed := p.committed + 1 }).tell r [1] 2 0

/-- A re-clear, decided on the image after steps 1 to 4 (R98, R451). -/
def PS.reclearAt (z : Fz) (s4 : SI) (p : PS) (e : Req × Nat × Bool) : PS :=
  let i := z.i
  let r := e.2.1
  let late := !p.commits e.1.seq && (i.clearedObjects r).any p.written.contains
  if !i.isLocked s4 r then p.blocked e.1 2 false
  else match i.holdFails s4 r, z.pick s4 r with
    | some k, _ => p.blocked e.1 k false
    | none, none => p.blocked e.1 16 false
    | none, some a =>
      if e.2.2 || late then p.blocked e.1 2 false
      else (p.finish e.1 2 0).clear i r a

/-- One locked route, judged on the image after steps 1 to 4. -/
def PS.aspectStep (z : Fz) (s4 : SI) (p : PS) (r : Nat) : PS :=
  let i := z.i
  let es := i.rEntry r
  if i.permissive es (SI.at s4 es) then
    match z.pick s4 r with
    | some a => { p with s := SI.upd p.s es (fun x => x.setCommand i es a.command) }
    | none => { p with s := SI.upd p.s es (fun x => x.restrictCommand i es) }
  else if p.clears.contains r && decide ((SI.at s4 es).lockKind = 1) && !i.entered s4 r then
    match z.pick s4 r with
    | some a => p.clear i r a
    | none => p
  else p

/-- R110: while a RESTRICT bit is set, the object is commanded restrictive. -/
def Img.restrictStep (i : Img) (s : SI) : SI :=
  SI.updAll s ((s.filter (fun e => decide (e.2.restrict ≠ 0) && i.permissive e.1 e.2)).map (·.1))
    (fun x => x.restrictCommand i x.object)

/-- OUTPUTS of an object under a command (R41): the bits of a class 8 command, the one level of a DIO object of classes 4 to 6;
of a node's object what the node drives is left open (assumption 71). -/
def Img.outputsOf (i : Img) (o command : Nat) : Byte :=
  let m := BitVec.ofNat 8 (i.outputMask o)
  if i.cls o = 8 then BitVec.ofNat 8 command &&& m
  else if i.onDio o then (if bitOf command 0 then m else 0)
  else Config.outputs i.imageId o command &&& m

/-- OUTPUTS follows a command that this Press commits. -/
def Img.outputStep (i : Img) (s t : SI) : SI :=
  SI.updAll t (i.objects.filter (fun o => decide ((SI.at s o).command ≠ (SI.at t o).command)))
    (fun x => { x with outputs := i.outputsOf x.object x.command })

/-- LAST_CHANGE of every record that the commit of a cluster changes (R41). -/
def Img.dated (i : Img) (cluster : Nat) (s t : SI) : SI :=
  SI.updAll t (changedIn i.objects s t) (fun r => { r with lastChange := BitVec.ofNat 32 cluster })

/-- A State Image formed outside a Press, from `s` to `t`: OUTPUTS follows COMMANDED, and LAST_CHANGE is set (R41). -/
def Img.restated (i : Img) (cluster : Nat) (s t : SI) : SI := i.dated cluster s (i.outputStep s t)

/-- R70 step 2: the committed COMMANDED names the other position. -/
def Img.throwCommanded (i : Img) (s : SI) (t : Store ThrowSeq) : Store ThrowSeq :=
  t.map (fun e => if e.2.step = 1 ∧ (SI.at s e.1).command = 3 - e.2.pos ∧ i.cls e.1 = 2 then (e.1, ⟨2, e.2.pos⟩) else e)

/-- The level of a signal's command: by the set of the route it stands on, else by its own. -/
def Img.commandLevel (i : Img) (s : SI) (o command : Nat) : Nat :=
  let x := SI.at s o
  let own := i.levelOf (i.aspectSet o) command
  if x.lockKind ≠ 0 ∧ i.rEntry x.routeLock = o then
    ((i.levelOf (i.rAspectSet x.routeLock) command).orElse (fun _ => own)).getD 0
  else own.getD 0

/-- Command `b` of an object in image `t` is more permissive than `a` in `s`: a throw, a clearing or a raised aspect (R93). -/
def Img.opens (i : Img) (s t : SI) (o a b : Nat) : Bool :=
  decide (a ≠ b) && decide (b ≠ i.restrictive o) &&
  (decide (i.cls o ≠ 3) || decide (i.commandLevel s o a < i.commandLevel t o b))

/-- R93: what a Press changes permissively. -/
def Img.isPermissiveChange (i : Img) (s t : SI) (o : Nat) : Bool := i.opens s t o (SI.at s o).command (SI.at t o).command

/-- R185: an aspect that is permissive and lower than at the Press before keeps NOW until a Press changes the command. -/
def Img.nowLowNext (i : Img) (s t : SI) (low : List Nat) : List Nat :=
  i.objects.filter (fun o =>
    let a := (SI.at s o).command
    let b := (SI.at t o).command
    decide (i.cls o = 3) && decide (b ≠ i.restrictive o) &&
    (if a = b then low.contains o else decide (i.commandLevel t o b < i.commandLevel s o a)))

/-- A CLEARED of this Press takes the place of the LOCKED of the same request (R97). -/
def mergeEnds (l : List (Req × Nat × Nat)) : List (Req × Nat × Nat) :=
  l.filter (fun e => decide (e.2.1 ≠ 1) || !l.any (fun f => decide (f.1.seq = e.1.seq) && decide (f.2.1 = 2)))

/-- A result for the Service Controller (R81). -/
def endResult (cluster : Nat) (e : Req × Nat × Nat) : Result :=
  ⟨e.1.mbx, resultWord (rqType e.1.word) e.2.1 e.2.2 (rqTag e.1.word) cluster, e.1.seq⟩

/-- Steps 1 to 3 of the write list. -/
def Lane.pressTo3 (x : Lane) (z : Fz) (settled : Option (List (Nat × Nat))) : PS :=
  let i := z.i
  let p0 : PS := ⟨x.si, x.rte.queue, [], [], [], x.rte.converted, x.rte.throws, x.rte.seen, [], false, 0, [], [], settled⟩
  let p1 := p0.part i false (fun p => i.objects.foldl (PS.input z) p)
  let p2 := p1.part i true (fun p => { p with s := SI.tick p.s })
  let sups := sortBy id (x.rte.done.filterMap (fun w => match w with | .sup r => some r | .req _ => none))
  let p3 := sups.foldl (fun p r => p.part i false (fun p => p.supervise z r)) p2
  if x.rte.done.isEmpty then p3 else p3.part i false (PS.ruleStep z)

/-- Steps 1 to 4 of the write list: request results follow in REQ_SEQ order, as the queue stands. -/
def Lane.pressTo4 (x : Lane) (z : Fz) (settled : Option (List (Nat × Nat))) : PS :=
  x.rte.queue.foldl (fun p q => p.part z.i false (fun p => p.request z x.rte.done q)) (x.pressTo3 z settled)

/-- Step 5, on the image as it stands after step 4. -/
def PS.step5 (z : Fz) (x : Lane) (p4 : PS) : PS :=
  p4.part z.i false (fun p =>
    let p := p.reclears.foldl (PS.reclearAt z p4.s) p
    let p := (z.i.lockedRoutes p4.s).foldl (PS.aspectStep z p4.s) p
    { p with s := z.i.outputStep x.si (z.i.restrictStep p.s) })

/-- The requests to which step 5 gives their final outcome, with it, as a trial of the Press finds them (R91, R111). -/
def Lane.settled (x : Lane) (z : Fz) : List (Nat × Nat) :=
  let p4 := x.pressTo4 z none
  (((p4.step5 z x).ends.drop p4.ends.length).filter (fun e => outcomeFinal e.2.1)).map (fun e => (e.1.seq, e.2.1))

/-- What the frozen data of a lane give its evaluations. -/
def Lane.fz (x : Lane) (cluster : Nat) : Fz := ⟨x.img, x.si, x.rte.frozen, cluster⟩

/-- The write list of a lane's Press (R90). -/
def Lane.buildPress (x : Lane) (cluster : Nat) : PressOut :=
  let z := x.fz cluster
  let i := z.i
  let p5 := (x.pressTo4 z (some (x.settled z))).step5 z x
  let s6 := i.dated cluster x.si p5.s
  let ends := mergeEnds p5.ends
  { si := s6
    log := p5.log
    results := (x.rte.queue.flatMap (fun q => ends.filter (fun e => decide (e.1.seq = q.seq)))).map (endResult cluster)
    queue := p5.queue
    deferred := x.rte.deferred
    converted := p5.converted.filter (fun r => i.isLocked s6 r)
    throws := i.throwCommanded s6 p5.throws
    seen := p5.seen
    written := p5.written
    changed := changedIn i.objects x.si p5.s
    moved := i.objects.filter (fun o => decide ((SI.at x.si o).core ≠ (SI.at s6 o).core))
    permissive := i.objects.filter (i.isPermissiveChange x.si s6)
    nowLow := i.nowLowNext x.si s6 x.rte.nowLow
    lifts := p5.lifts
    rearmed := p5.rearmed
    committed := p5.committed }

/-- Proving demands outstanding: input points plus throw demands (SYS.IMG_PROVING). -/
def outstanding (s : SI) : Nat :=
  (s.map (fun e => ((List.range 8).filter (fun k => bitOf e.2.proving.toNat k)).length + b2n e.2.throwDemand)).foldl (· + ·) 0

end Sys2Proof.Machine
end

