-- ==== Sys2Proof/Machine/ZvlOps.lean ====
section
/-!
DEFINITION. Machine/ZvlOps.lean: the Zenat Vetting Logic of a lane (chapter 4): admissions and claims, the express pass and
its forbid codes, the guard gate, claim ends, the full sweep, restrictions, discrepancies and faults.
-/
namespace Sys2Proof.Machine

def noSlot : Nat → Option Slot := fun _ => none
def zeroW32 : Nat → W32 := fun _ => 0
def noClaim : Nat → BitVec 16 := fun _ => 0
def noCode : Nat → Nat := fun _ => 0
def noFlag : Nat → Bool := fun _ => false

def Slot.word (s : Slot) (k : Nat) : Nat := (Store.get zeroW32 s.words k).toNat
/-- The used check words of a slot with their indices, in list order. -/
def Slot.list (s : Slot) : List (Nat × Nat) := ((List.range 64).map (fun k => (k, s.word k))).filter (fun e => decide (cwKind e.2 ≠ 0))
def Slot.hasEnded (s : Slot) (k : Nat) : Bool := bitOf s.ended.toNat k
def setBit64 (w : W64) (k : Nat) (b : Bool) : W64 := BitVec.ofNat 64 (putBit w.toNat k b)
def Slot.guarded (s : Slot) : Nat := match s.list.find? (fun e => cwKind e.2 = 6) with | some e => cwObj e.2 | none => 0
/-- Claims of words of kinds 1, 3 and 4, and position requirements of kind 2, that have not ended. -/
def Slot.open' (s : Slot) : List (Nat × Nat) :=
  s.list.filter (fun e => (cwClaims e.2 || decide (cwKind e.2 = 2)) && !s.hasEnded e.1)
def Slot.openClaims (s : Slot) : List Nat := (s.open'.filter (fun e => cwClaims e.2)).map (·.2)
/-- The claims of a slot that the claim map holds: all but a sixteenth shared one (R123). -/
def Slot.mapClaims (s : Slot) : List Nat :=
  (s.open'.filter (fun e => cwClaims e.2 && !bitOf s.skipped.toNat e.1)).map (·.2)
def Slot.positions (s : Slot) : List (Nat × Nat) :=
  (s.open'.filter (fun e => decide (cwKind e.2 = 1) || decide (cwKind e.2 = 2))).map (fun e => (cwObj e.2, cwPos e.2))

def Zvl.slotList (z : Zvl) : List (Nat × Slot) := z.slots.filterMap (fun e => match e.2 with | some s => some (e.1, s) | none => none)
def Zvl.slotOf (z : Zvl) (r : Nat) : Option (Nat × Slot) := z.slotList.find? (fun e => e.2.route = r)
def Zvl.setSlot (z : Zvl) (k : Nat) (s : Option Slot) : Zvl := { z with slots := Store.set noSlot z.slots k s }
def Zvl.mapSlots (z : Zvl) (f : Slot → Slot) : Zvl := { z with slots := z.slots.map (fun e => (e.1, e.2.map f)) }

/-! ### Discrepancies and faults (R133, R135) -/

/-- R135: an event record, the interrupt and the ZVL.DISC registers. -/
def Lane.discrepancy (x : Lane) (time cause obj route : Nat) : Lane :=
  { x with regs := (((((x.regs.put F.ZVL_DISC_CAUSE_CAUSE cause).put F.ZVL_DISC_WHERE_OBJECT obj).put
      F.ZVL_DISC_WHERE_ROUTE route).inc F.ZVL_DISC_COUNT_COUNT).setBit (blkBase .zvl + 0x10) I.ZVL_DISCREPANCY true) }.addEvent
    ⟨0x3001, time, cause, obj, route, 0, false, false⟩

/-- R133: a ZVL fault is latched; the gate substitutes every command from the next basic cycle. ZVL.FAULT.CAUSE shows the fault found
last (DESIGN CHOICE, assumption 114). -/
def Lane.zvlFault (x : Lane) (time cause offset lane : Nat) : Lane :=
  let r := ((x.regs.put F.ZVL_FAULT_CAUSE cause).put F.ZVL_STATUS_FAULT 1).incReg (blkBase .zvl + 0x20)
  let r := if cause = 3 then r.set (blkBase .zvl + 0x24) (BitVec.ofNat 32 offset) else r
  let r := r.setBit (blkBase .zvl + 0x10) I.ZVL_FAULT true
  let r := if cause = 5 then r.setBit (blkBase .zvl + 0x10) I.ZVL_OVERRUN true else r
  ({ x with regs := r, selfFaults := if x.selfFaults.contains 6 then x.selfFaults else x.selfFaults ++ [6] }.addEvent
    ⟨0x3002, time, cause, lane, 0, 0, false, false⟩)

/-! ### What ZVL reads (R118, R129) -/

/-- A section reads occupied when DETECTED[0] is 1 or its node is in lost communication. -/
def Lane.zOccupied (x : Lane) (n : InputSet) (o : Nat) : Bool :=
  n.lost x.img o || bitOf (n.read x.img (SI.at x.si o).proving o).det 0

def Lane.zAt (x : Lane) (n : InputSet) (o p : Nat) : Bool :=
  !n.lost x.img o && decide ((n.read x.img (SI.at x.si o).proving o).det % 4 = p)

/-- A restriction applies to an object (R129). -/
def Lane.zRestricted (x : Lane) (o : Nat) : Bool :=
  Store.get noFlag x.zvl.rObj o || bitOf x.zvl.rArea.toNat (x.img.area o) || x.zvl.rAll ||
  decide ((SI.at x.si o).restrict ≠ 0)

/-- The bit that a restriction request or a lift concerns (R129): object, area or module flag, and which. -/
def restrictKey (w : W64) : Nat × Nat :=
  let t := rqType w
  if t = 8 ∨ t = 12 then (0, rqTarget w % 2 ^ 14) else if t = 9 ∨ t = 13 then (1, rqArea w) else (2, 0)

/-- A restriction request or a lift enters the restriction copy (R129). -/
def Zvl.restrict (z : Zvl) (w : W64) (b : Bool) : Zvl :=
  let t := rqType w
  if t = 8 ∨ t = 12 then { z with rObj := Store.set noFlag z.rObj (rqTarget w % 2 ^ 14) b }
  else if t = 9 ∨ t = 13 then { z with rArea := setBit64 z.rArea (rqArea w) b }
  else { z with rAll := b }

/-! ### The claim map (R116, R123) -/

def claimOf (exclusive : Bool) (slot shared : Nat) : BitVec 16 :=
  BitVec.ofNat 16 (b2n exclusive * 32768 + slot % 2048 * 16 + shared % 16)

/-- Enter one claim: the first exclusive claimant keeps its place, so that of two exclusive claims on an object the lower slot shows
(DESIGN CHOICE, assumption 132); shared claims are counted. -/
def enterClaim (slot : Nat) (m : Store (BitVec 16)) (w : Nat) : Store (BitVec 16) :=
  let c := (Store.get noClaim m (cwObj w)).toNat
  let ex := bitOf c 15
  let v := if cwShared w then claimOf ex (bitsOf c 14 4) (c % 16 + 1)
           else if ex then claimOf true (bitsOf c 14 4) (c % 16) else claimOf true slot (c % 16)
  Store.set noClaim m (cwObj w) v

/-- The claim map as the locked-route table gives it (step 1 of R132). -/
def Zvl.rebuild (z : Zvl) : Zvl :=
  { z with claims := z.slotList.foldl (fun m e => e.2.mapClaims.foldl (enterClaim e.1) m) [] }

def sharedCount (z : Zvl) (o : Nat) : Nat := (Store.get noClaim z.claims o).toNat % 16

/-! ### Admission (R119, R120, R123) -/

def Slot.fresh (r : Nat) (words : Store W32) : Slot :=
  ⟨r, words, false, false, false, false, false, false, false, 0, 0, 0, 0, false, 0, [], false, 0, false⟩

/-- Check list r as ZVL fetches it from DRAM. -/
def Img.fetchList (i : Img) (r : Nat) : Store W32 :=
  ((List.range 64).map (fun k => (k, BitVec.ofNat 32 (i.checkWord r k)))).filter (fun e => decide (e.2 ≠ 0))

/-- A slot being admitted collides with another (R123): a claim in the claim map, the kind 6 object, or positions of one point. -/
def slotsCollide (a b : Slot) : Bool :=
  claimsCollide a.openClaims b.mapClaims || decide (a.guarded = b.guarded) ||
  a.positions.any (fun p => b.positions.any (fun q => decide (p.1 = q.1) && decide (p.2 ≠ q.2)))

def freeSlot (z : Zvl) : Option Nat := (List.range 2048).find? (fun k => (Store.get noSlot z.slots k).isNone)

/-- Mark kind 4 words whose object holds the route's overlap lock (R121). -/
def Slot.noteHad (si : SI) (s : Slot) : Slot :=
  { s with had := (s.list.foldl (fun h e =>
      if cwKind e.2 = 4 ∧ (SI.at si (cwObj e.2)).overlapList.contains s.route then setBit64 h e.1 true else h) s.had) }

/-- The kind 1 and kind 3 objects of a slot that the State Image leaves without its route lock (R120). -/
def Slot.unlocked (si : SI) (s : Slot) : List Nat :=
  (s.list.filter (fun e => (decide (cwKind e.2 = 1) || decide (cwKind e.2 = 3)) && !(SI.at si (cwObj e.2)).routeHeld s.route)).map
    (fun e => cwObj e.2)

/-- Admission of route r at a Press whose commit wrote the class 3 records `written`, the State Image committed. R123, R135: a collision is
recorded for the route admitted and then for every other route that it marks COLLIDED; with no free slot ROUTE is 0. Where both
checks of R120 fail, one record of cause 4 stands for them, with the object of the kind 6 word; a missing lock alone is recorded with
the first object without it (DESIGN CHOICE, assumption 112). -/
def Lane.admitRoute (time : Nat) (written : List Nat) (x : Lane) (r : Nat) : Lane :=
  match freeSlot x.zvl with
  | none =>
    { x with zvl := { x.zvl with slotless := if x.zvl.slotless.contains r then x.zvl.slotless else x.zvl.slotless ++ [r] },
             regs := x.regs.setBit (blkBase .zvl + 0x10) I.ZVL_COLLISION true }.discrepancy time 2 (x.img.rEntry r) 0
  | some k =>
    let s := (Slot.fresh r (x.img.fetchList r)).noteHad x.si
    let hit := x.zvl.slotList.filter (fun e => slotsCollide s e.2)
    let full := (s.open'.filter (fun e => cwClaims e.2 && cwShared e.2 && decide (15 ≤ sharedCount x.zvl (cwObj e.2)))).map (·.1)
    let many := !full.isEmpty
    let announced := written.any (fun o => decide (o = s.guarded) && (SI.at x.si o).routeHeld r)
    let bad := !announced || !(s.unlocked x.si).isEmpty
    let coll := !hit.isEmpty || many
    let s := { s with mismatch := bad, collided := coll, partners := hit.map (·.2.route), shared16 := many,
                      skipped := full.foldl (fun w k => setBit64 w k true) 0 }
    let z := hit.foldl (fun z e => z.setSlot e.1 (some { e.2 with collided := true, partners := r :: e.2.partners })) x.zvl
    let x := { x with zvl := { (z.setSlot k (some s)).rebuild with slotless := z.slotless.filter (· ≠ r) } }
    let x := if bad then x.discrepancy time 4 (if announced then (s.unlocked x.si).headD s.guarded else s.guarded) r else x
    if coll then
      (hit.filter (fun e => !e.2.collided)).foldl (fun (x : Lane) e => x.discrepancy time 2 e.2.guarded e.2.route)
        ({ x with regs := x.regs.setBit (blkBase .zvl + 0x10) I.ZVL_COLLISION true }.discrepancy time 2 s.guarded r)
    else x

/-! ### Claim ends (R121, R122, R127) -/

/-- Which claims of a slot come up for ending when a commit writes the records `written` (R121), with those that were up. -/
def Slot.comeUp (si : SI) (written : List Nat) (s : Slot) : Slot :=
  let s := s.noteHad si
  let gone := written.contains s.guarded && !(SI.at si s.guarded).routeHeld s.route
  let up := s.open'.foldl (fun u e =>
    let o := cwObj e.2
    let x := SI.at si o
    let k := cwKind e.2
    let hit := gone || (written.contains o &&
      (if k = 2 then !x.flankList.contains s.route
       else if k = 4 then bitOf s.had.toNat e.1 && !x.overlapList.contains s.route
       else !x.routeHeld s.route))
    if hit then setBit64 u e.1 true else u) s.up
  { s with up := up, removal := s.removal || gone }

/-- R127: of the claims `tested`, the ends that are accepted, kind 3 first, then kinds 1, 2 and 4. `occ` says which sections the last
pass read occupied (R118). -/
def Lane.acceptEnds (x : Lane) (occ : Nat → Bool) (tested : W64) (s : Slot) : Slot :=
  let clear := fun (w : Nat) => !occ (cwObj w)
  let ws := s.list
  let isUp := fun (s : Slot) (k : Nat) => bitOf tested.toNat k && bitOf s.up.toNat k && !s.hasEnded k
  let stop := fun (s : Slot) (k : Nat) => { s with ended := setBit64 s.ended k true, up := setBit64 s.up k false }
  let pass := fun (p : Slot → Nat × Nat → Bool) (s : Slot) =>
    ws.foldl (fun t e => if isUp t e.1 && p t e then stop t e.1 else t) s
  let kind3done := fun (s : Slot) => ws.all (fun e => decide (cwKind e.2 ≠ 3) || s.hasEnded e.1)
  let free := !s.cleared || (!s.entered &&
    ((!x.zvl.openLast.contains s.guarded && ws.all (fun e => decide (cwKind e.2 ≠ 5) || clear e.2)) || s.timer0))
  let s := if free then pass (fun _ _ => true) s
  else if !s.entered then s
  else
    let s := pass (fun s e => decide (cwKind e.2 = 3) && bitOf s.seen.toNat e.1 && clear e.2) s
    let s := pass (fun s e => decide (cwKind e.2 = 1) &&
      (match ws.find? (fun v => decide (cwKind v.2 = 3) && decide (e.1 < v.1)) with
       | some v => s.hasEnded v.1 | none => false)) s
    let s := pass (fun s e => decide (cwKind e.2 = 2) && kind3done s) s
    pass (fun s e => decide (cwKind e.2 = 4) && bitOf s.had.toNat e.1 &&
      (s.timer1 || (kind3done s && bitOf s.seen.toNat e.1 && clear e.2))) s
  pass (fun s e => decide (cwKind e.2 = 4) && !bitOf s.had.toNat e.1 &&
    ws.all (fun v => decide (cwKind v.2 ≠ 4) || !bitOf s.had.toNat v.1 || s.hasEnded v.1)) s

/-- A commit at a slot (R121): the claims that it brings up are tested; a claim already pending waits for a full sweep. The last pass
read its inputs with the proving demands of the image before the commit (R69, R118). -/
def Lane.commitEnds (x : Lane) (old : SI) (written : List Nat) (s : Slot) : Slot :=
  let t := s.comeUp x.si written
  x.acceptEnds (({ x with si := old } : Lane).zOccupied x.latched) (t.up &&& ~~~s.up) t

/-- Free the slots whose route is up for removal and whose claims have all ended; the others become HELD (R122). Clear
COLLIDED where no partner holds a slot any more (R123). -/
def Lane.settleSlots (time : Nat) (x : Lane) : Lane :=
  let gone := x.zvl.slotList.filter (fun e => e.2.removal && e.2.open'.isEmpty)
  let z := gone.foldl (fun z e => z.setSlot e.1 none) x.zvl
  let x := { x with zvl := z }
  let held := x.zvl.slotList.filter (fun e => e.2.removal && !e.2.held)
  let x := held.foldl (fun x e =>
    { x with zvl := x.zvl.setSlot e.1 (some { e.2 with held := true }),
             regs := x.regs.setBit (blkBase .zvl + 0x10) I.ZVL_HELD true }.discrepancy time 3 e.2.guarded e.2.route) x
  let routes := x.zvl.slotList.map (·.2.route)
  { x with zvl := ((x.zvl.mapSlots (fun s =>
      let ps := s.partners.filter routes.contains
      { s with partners := ps, collided := s.collided && (s.shared16 || !ps.isEmpty) })).rebuild) }

/-- The registers that mirror the table (R137). COLLIDED shows a route too that R122 marks without a slot (DEDUCED, assumption 133). -/
def Lane.zvlRegs (x : Lane) : Lane :=
  let ss := x.zvl.slotList
  let held := (ss.filter (·.2.held)).length
  let r := ((x.regs.put F.ZVL_TABLE_SLOTS ss.length).put F.ZVL_TABLE_HELD held).put F.ZVL_STATUS_HELD (b2n (held ≠ 0))
  let r := r.put F.ZVL_STATUS_COLLIDED (b2n (ss.any (·.2.collided) || !x.zvl.slotless.isEmpty))
  let r := (r.put F.ZVL_RESTRICT_ALL (b2n x.zvl.rAll)).put F.ZVL_RESTRICT_OBJECTS x.zvl.rObj.length
  let r := (r.put F.ZVL_RESTRICT_AREA_LO_AREAS x.zvl.rArea.toNat).put F.ZVL_RESTRICT_AREA_HI_AREAS (x.zvl.rArea.toNat / 2 ^ 32)
  { x with regs := r }

/-- The restrictions and lifts of one Press, in REQ_SEQ order (R129): a lift clears its bit, and a restriction, which has set its bit at a
latch, sets it again only after a lift of the same Press that cleared it. -/
def Zvl.commitLifts (z : Zvl) (lifts : List Req) : Zvl :=
  (lifts.foldl (fun (e : Zvl × List (Nat × Nat)) q =>
    let k := restrictKey q.word
    if !isRestriction (rqType q.word) then (e.1.restrict q.word false, k :: e.2)
    else if e.2.contains k then (e.1.restrict q.word true, e.2) else e) (z, [])).1

/-- What ZVL does with a commit (R119 to R122, R129): ends, admissions, and the restrictions and lifts committed, in REQ_SEQ
order. `x.si` is the committed State Image, `old` the one before, with which the last pass read its inputs. -/
def Lane.zvlCommit (x : Lane) (old : SI) (time : Nat) (written : List Nat) (lifts : List Req) : Lane :=
  let x := { x with zvl := x.zvl.mapSlots (x.commitEnds old written) }
  let x := x.settleSlots time
  let x := { x with zvl := { x.zvl with slotless := x.zvl.slotless.filter (fun r => (SI.at x.si (x.img.rEntry r)).routeHeld r) } }
  let cls3 := written.filter (fun o => x.img.cls o = 3)
  let routes := (dedup ((cls3.filter (fun o => decide ((SI.at x.si o).lockKind ≠ 0))).map (fun o => (SI.at x.si o).routeLock))).filter
    (fun r => (x.zvl.slotOf r).isNone)
  let x := routes.foldl (Lane.admitRoute time cls3) x
  { x with zvl := x.zvl.commitLifts lifts }.zvlRegs

/-! ### The express pass (R124 to R126) -/

def Lane.slotPasses (x : Lane) (n : InputSet) (s : Slot) : Bool :=
  let ws := s.list
  let lockHeld := fun (w : Nat) => (SI.at x.si (cwObj w)).overlapList.contains s.route
  let four := ws.filter (fun e => cwKind e.2 = 4)
  !s.mismatch && !s.collided && !s.held && !s.entered &&
  ws.all (fun e => (decide (cwKind e.2 ≠ 1) && decide (cwKind e.2 ≠ 3)) || !s.hasEnded e.1) &&
  ws.all (fun e => (decide (cwKind e.2 ≠ 1) && decide (cwKind e.2 ≠ 2)) || x.zAt n (cwObj e.2) (cwPos e.2)) &&
  ws.all (fun e => decide (cwKind e.2 ≠ 3) || cwClaimOnly e.2 || !x.zOccupied n (cwObj e.2)) &&
  four.all (fun e => !lockHeld e.2 || !x.zOccupied n (cwObj e.2)) &&
  (four.isEmpty || four.any (fun e => lockHeld e.2)) &&
  !x.zRestricted s.guarded &&
  ws.all (fun e =>
    let k := cwKind e.2
    let tested := decide (k = 1) || decide (k = 2) || (decide (k = 3) && !cwClaimOnly e.2) || (decide (k = 4) && lockHeld e.2)
    !tested || !x.zRestricted (cwObj e.2))

/-- R126: ENTERED and SEEN at a pass, the count of clear passes, and whether the route passes. -/
def Lane.passSlot (x : Lane) (n : InputSet) (s : Slot) : Slot :=
  let occ := fun (w : Nat) => x.zOccupied n (cwObj w)
  let three := s.list.filter (fun e => cwKind e.2 = 3)
  let s := if s.cleared then
      { s with entered := s.entered || (match three.head? with | some e => occ e.2 | none => false),
               seen := (s.list.foldl (fun b e =>
                 if (cwKind e.2 = 3 ∨ cwKind e.2 = 4) ∧ occ e.2 then setBit64 b e.1 true else b) s.seen) } else s
  let s := { s with clears := if three.all (fun e => !occ e.2) then min (s.clears + 1) 16 else 0 }
  { s with passes := x.slotPasses n s }

/-- The forbid code of an object (R125). -/
def Lane.forbidCode (x : Lane) (o : Nat) : Nat :=
  let c := x.img.cls o
  let ss := x.zvl.slotList.map (·.2)
  if c = 3 then
    if x.zvl.slotless.any (fun r => x.img.rEntry r = o) then 3 else
    (match ss.filter (fun s => s.guarded = o) with
     | [s] => if s.passes then 0 else 3
     | _ => 3)
  else if c = 2 then
    let named := ss.filter (fun s => s.positions.any (fun p => p.1 = o))
    let need := (ss.flatMap (fun s => s.positions)).filter (fun p => p.1 = o)
    if x.zRestricted o || named.any (·.collided) then 3
    else if need.isEmpty then 0
    else if need.all (fun p => p.2 = 1) then 1
    else if need.all (fun p => p.2 = 2) then 2
    else 0
  else if x.zRestricted o then 3 else 0

/-- The route R135 names for an object with a forbid code: the lowest whose slot gave it its code; 0 when a restriction alone, or no
slot, did. A signal whose route fails by a restriction (item 6 of R124) has its code from that slot (DEDUCED, assumption 134). -/
def Lane.forbidRoute (x : Lane) (o code : Nat) : Nat :=
  let ss := x.zvl.slotList.map (·.2)
  let named := ss.filter (fun s => s.positions.any (fun p => p.1 = o))
  let hits := if x.img.cls o = 3 then ss.filter (fun s => s.guarded = o)
    else if code = 3 then named.filter (·.collided)
    else named
  (sortBy id (hits.map (·.route))).headD 0

/-- The forbid set a pass publishes. -/
def Lane.forbidSet (x : Lane) : Store Nat :=
  (x.img.objects.map (fun o => (o, x.forbidCode o))).filter (fun e => decide (e.2 ≠ 0))

/-- The pass on the latched inputs: slots, then the forbid set (R131). -/
def Lane.expressPass (x : Lane) (us : Nat) : Lane :=
  let x := { x with zvl := { x.zvl with gating := decide (x.regs.fld F.ZVL_FAULT_CAUSE ≠ 0), openLast := x.zvl.open_ } }
  let x := { x with zvl := x.zvl.mapSlots (x.passSlot x.latched) }
  let fs := x.forbidSet
  let r := (x.regs.put F.ZVL_PASS_LAST_US us).put F.ZVL_PASS_MAX_US (max us (x.regs.fld F.ZVL_PASS_MAX_US))
  let r := (r.addWrap F.ZVL_PASS_COUNT_COUNT 1).put F.ZVL_FORBIDS_FORBIDDEN (fs.filter (fun e => e.2 = 3)).length
  { x with zvl := { x.zvl with forbid := fs, why := (fs.map (fun (e : Nat × Nat) => (e.1, x.forbidRoute e.1 e.2))).filter (fun e => decide (e.2 ≠ 0)) },
           regs := r.put F.ZVL_STATUS_ACTIVE 1 }.zvlRegs

/-! ### The guard gate (R130) -/

/-- A command after a forbid code, and whether the code substituted it. -/
def Lane.gateBy (x : Lane) (code o : Nat) (cmd : W32) : W32 × Bool :=
  let guard := BitVec.ofNat 32 (setBits cmd.toNat 15 0 (x.img.guardCommand o))
  if code = 3 then (guard, true)
  else if (code = 1 ∧ cmd.toNat % 4 = 2) ∨ (code = 2 ∧ cmd.toNat % 4 = 1) then (guard, true)
  else (cmd, false)

/-- The command after the gate, and whether the gate substituted it. -/
def Lane.gate (x : Lane) (o : Nat) (cmd : W32) : W32 × Bool :=
  x.gateBy (if x.zvl.gating then 3 else Store.get noCode x.zvl.forbid o) o cmd

/-- A substitution of a command that was not already restrictive counts as an override. -/
def Lane.isOverride (x : Lane) (o : Nat) (cmd : W32) : Bool :=
  (x.gate o cmd).2 && decide (cmd.toNat % 65536 ≠ x.img.restrictive o)

/-- The route R135 names for an overridden object: that of its forbid code as the slots stood at the pass that gave it. -/
def Lane.overrideRoute (x : Lane) (o : Nat) : Nat := Store.get noCode x.zvl.why o

/-- After the commands of a basic cycle are built: CLEARED (R126), the overrides and, for the frames of basic cycle 15,
persistent overrides (cause 1 of R135). `sent` pairs each object whose command was built with that command before the gate;
`framed` are those whose command goes out in a frame. An object of which this basic cycle builds no command, its port being one of
500 µs, keeps what its last command was while `kept` holds (assumption 62). -/
def Lane.gateDone (x : Lane) (time : Nat) (last : Bool) (framed : List Nat) (kept : Nat → Bool) (sent : List (Nat × W32)) : Lane :=
  let opened := (sent.filter (fun e => decide ((x.gate e.1 e.2).1.toNat % 65536 ≠ x.img.restrictive e.1))).map (·.1)
  let ovr := (sent.filter (fun e => x.isOverride e.1 e.2)).map (·.1)
  let inFrames := ovr.filter framed.contains
  let twice := if last then inFrames.filter x.zvl.over15.contains else []
  let still := x.zvl.open_.filter (fun o => kept o && !(sent.map (·.1)).contains o)
  let z := x.zvl.mapSlots (fun s => { s with cleared := s.cleared || opened.contains s.guarded })
  let y := { x with zvl := { z with open_ := opened ++ still, over15 := if last then inFrames else z.over15 },
                    regs := x.regs.put F.ZVL_FORBIDS_OVERRIDES ovr.length }
  twice.foldl (fun y o => y.discrepancy time 1 o (x.overrideRoute o)) y

/-! ### The full sweep (R132) -/

def Lane.timerSeen (x : Lane) (s : Slot) : Slot :=
  let hit := fun (k : Nat) => s.list.any (fun e =>
    decide (cwKind e.2 = 7) && decide (cwSlot e.2 = k) &&
    (let t := if k = 0 then (SI.at x.si (cwObj e.2)).timer0 else (SI.at x.si (cwObj e.2)).timer1
     decide (t.state = 2) && decide (t.owner = s.route)))
  { s with timer0 := s.timer0 || hit 0, timer1 := s.timer1 || hit 1 }

/-- Step 1 of R132: the claim map rebuilt from the table against the one kept by admissions and ends. -/
def Lane.claimCheck (x : Lane) (time : Nat) : Lane :=
  if x.zvl.rebuild.claims = x.zvl.claims then x else x.zvlFault time 4 0 (x.regs.fld F.VOT_LANE_LANE)

def Lane.fullSweep (x : Lane) (time us : Nat) : Lane :=
  let x := x.claimCheck time
  let lone := (x.zvl.slotList.map (·.2)).filter (fun s => !s.held && !(SI.at x.si s.guarded).routeHeld s.route)
  let routes := x.zvl.slotList.map (·.2.route)
  let astray := x.si.filter (fun e => x.img.cls e.1 = 3 && decide (e.2.lockKind ≠ 0) && !routes.contains e.2.routeLock)
  let x := lone.foldl (fun x s => x.discrepancy time 5 s.guarded s.route) x
  let x := astray.foldl (fun x e => x.discrepancy time 5 e.1 0) x
  let x := { x with zvl := x.zvl.mapSlots x.timerSeen }
  let x := { x with zvl := x.zvl.mapSlots (x.acceptEnds (x.zOccupied x.latched) (BitVec.allOnes 64)) }
  let x := (x.settleSlots time).zvlRegs
  let pend := (x.zvl.slotList.map (fun e => (e.2.open'.filter (fun w => bitOf e.2.up.toNat w.1)).length)).foldl (· + ·) 0
  { x with regs := (x.regs.put F.ZVL_SWEEP_LAST_US us).put F.ZVL_SWEEP_PENDING pend }

/-- R126: ENTERED and every SEEN bit return to 0 after 16 clear passes with no claim ended. -/
def Slot.enteredReset (s : Slot) : Slot :=
  if s.clears ≥ 16 ∧ s.ended = 0 then { s with entered := false, seen := 0 } else s

/-! ### Takeover (R136) -/

/-- ZVL builds its table and its restriction copy from the State Image of the Seedbank; the restriction requests that the Seedbank's queue
keeps enter at their latch (R129). R120's checks are made of every route admitted here too, and RESTRICT bit 3, for which R116 has no
place, goes into no copy (DEDUCED, assumption 113). -/
def Lane.zvlTakeover (x : Lane) (time : Nat) : Lane :=
  let i := x.img
  let x := { x with zvl := ({ Zvl.reset with
    wait := (x.rte.queue.filter (fun q => isRestriction (rqType q.word))).map (fun q => (q.seq, q.word)),
    rObj := (x.si.filter (fun (e : Nat × ObjRec) => bitOf e.2.restrict.toNat 0)).map (fun e => (e.1, true)),
    rArea := BitVec.ofNat 64 (bitmap 64 (fun a => x.si.any (fun (e : Nat × ObjRec) => decide (e.2.area = a) && bitOf e.2.restrict.toNat 1))),
    rAll := x.si.any (fun (e : Nat × ObjRec) => bitOf e.2.restrict.toNat 2) }) }
  let cls3 := (x.si.filter (fun e => i.cls e.1 = 3 && decide (e.2.lockKind ≠ 0))).map (·.1)
  let routes := dedup (cls3.map (fun o => (SI.at x.si o).routeLock))
  let x := routes.foldl (Lane.admitRoute time cls3) x
  ({ x with zvl := (x.zvl.mapSlots (fun (s : Slot) =>
      let three := (s.list.filter (fun (e : Nat × Nat) => cwKind e.2 = 3)).map (fun (e : Nat × Nat) => SI.at x.si (cwObj e.2))
      let recs := SI.at x.si s.guarded :: three ++ (s.list.filter (fun (e : Nat × Nat) => cwKind e.2 = 1)).map (fun (e : Nat × Nat) => SI.at x.si (cwObj e.2))
      { s with cleared := (recs.any (fun y => y.routeHeld s.route && decide (2 ≤ y.lockKind)) ||
                          three.any (fun y => decide (y.phase ≠ 0))),
               entered := match three.head? with | some y => decide (y.phase ≠ 0) | none => false })) } : Lane).zvlRegs

end Sys2Proof.Machine
end

