-- ==== Sys2Proof/Machine/VoteOps.lean ====
section
/-!
DEFINITION. Machine/VoteOps.lean: signatures and their streams (R143 to R146), verdicts and the exclusion rules (R148 to
R150, R452), exclusion, the degraded limit, the replace request and Darn (R152 to R160).
-/
namespace Sys2Proof.Machine

/-! ### Streams and signatures (R144, R145, R146) -/

/-- A re-admission is due at the coming cluster boundary (R159 steps 9 and 10). -/
def Mach.readmitDue (m : Mach) : Bool :=
  decide (m.sys.mode = 10) && decide (m.sys.bc = 15) && decide (256 ≤ m.sys.probRun + 1) &&
  (m.a.probation || m.b.probation || m.c.probation)

/-- EPOCH of the basic cycle being built: one more where a re-admission is due (R159 step 10). -/
def Lane.nextEpoch (x : Lane) (due : Bool) : Nat := (x.regs.fld F.RED_EPOCH_EPOCH + b2n due) % 65536

/-- The output stream of the commands built for basic cycle `bc` of `cluster` (R144). -/
def Lane.outStream (x : Lane) (cluster bc mode : Nat) (due : Bool) : List Byte :=
  be 8 cluster ++ be 1 bc ++ be 1 mode ++ be 2 (x.nextEpoch due) ++
  x.staged.flatMap (fun (p : Payload) => be 2 p.node ++ be 2 p.part.length ++ be 8 p.launch ++ p.part) ++
  be 8 x.dioNext.toNat ++
  x.fedOut.flatMap (fun (e : Nat × Nat × List Byte) => be 1 e.1 ++ be 2 e.2.2.length ++ e.2.2)

/-- The Press stream (R145). -/
def pressStream (cluster : Nat) (p : PressOut) : List Byte :=
  be 8 cluster ++ be 4 p.log.length ++
  p.log.flatMap (fun (e : WriteEntry) => be 2 e.object ++ be 1 e.off ++ be 1 e.bytes.length ++ e.bytes) ++
  p.results.flatMap (fun (r : Result) => be 8 r.word.toNat)

/-- The records of the State Image in object order, 16,384 of 128 B (R27, R41). -/
def siBytes (si : SI) : List Byte := (List.range 16384).flatMap (fun o => (SI.at si o).bytes)

/-- The image stream (R146); its cluster number is that of the cluster in which the scan starts (assumption 34). -/
def Lane.imageStream (x : Lane) (cluster mode : Nat) : List Byte :=
  be 8 cluster ++ be 1 mode ++ be 2 (x.regs.fld F.RED_EPOCH_EPOCH) ++ be 1 (x.regs.fld F.RED_DEGRADED_LIMIT_HOURS) ++
  be 2 (x.regs.fld F.RED_DARN_CFG_AUTO * 32768 + x.regs.fld F.RED_DARN_CFG_DELAY) ++ be 2 0 ++ siBytes x.si

/-- R162: an injected corruption makes the signature another one; what it becomes is a free value. -/
def injectInto (x : Lane) (w : Nat) (s : W64) : W64 :=
  if x.inject = w then (if Config.corrupt s = s then ~~~s else Config.corrupt s) else s

/-- A lane's signature of window `w` (1 output, 2 Press, 3 image); none where it has none to give. -/
def Mach.signature (m : Mach) (w : Nat) (l : LaneId) : Option W64 :=
  let x := m.lane l
  if w = 1 then
    let n := m.sys.cluster * 16 + m.sys.bc + 1
    some (injectInto x 1 (crc64 (x.outStream (n / 16) (n % 16) m.sys.mode m.readmitDue)))
  else if w = 2 then (x.rte.press).map (fun p => injectInto x 2 (crc64 (pressStream m.sys.cluster p)))
  else some (injectInto x 3 (crc64 (x.imageStream (m.sys.cluster - 1) m.sys.mode)))

/-- Keep the signature in the lane's VOT registers, and the injection is used up. -/
def Lane.keepSignature (x : Lane) (w : Nat) (s : W64) : Lane :=
  let put := fun (lo hi : Field) => (x.regs.put lo s.toNat).put hi (s.toNat / 2 ^ 32)
  { x with regs := (if w = 1 then put F.VOT_OUT_SIG_LO_SIG F.VOT_OUT_SIG_HI_SIG
                   else if w = 2 then put F.VOT_PRESS_SIG_LO_SIG F.VOT_PRESS_SIG_HI_SIG
                   else put F.VOT_IMAGE_SIG_LO_SIG F.VOT_IMAGE_SIG_HI_SIG),
           inject := if x.inject = w then 0 else x.inject }

/-! ### Verdicts (R148) and the exclusion rules (R149, R150) -/

/-- What lane `y` holds of peer `x`'s signature. -/
def seenSig (e : Exchange) (sig : LaneId → Option W64) (x y : LaneId) : Option W64 :=
  if x ≠ y ∧ e.sigLost.contains (x, y) then none else sig x

/-- A missing signature counts as equal to no other. -/
def sigEq (a b : Option W64) : Bool := match a, b with | some u, some v => u == v | _, _ => false

/-- R148 with three lanes serving: the lanes named by `y`, whose peers are `x` and `z`. -/
def verdict3 (e : Exchange) (sig : LaneId → Option W64) (y x z : LaneId) : List LaneId :=
  let o := sig y
  let sx := seenSig e sig x y
  let sz := seenSig e sig z y
  if sigEq o sx && sigEq o sz then []
  else if sigEq sx sz then [y]
  else if sigEq o sx then [z]
  else if sigEq o sz then [x]
  else [y, x, z]

/-- R148 with two lanes serving. -/
def verdict2 (e : Exchange) (sig : LaneId → Option W64) (y x : LaneId) : List LaneId :=
  if sigEq (sig y) (seenSig e sig x y) then [] else [x]

/-- Self-fault conditions of R151 add the lane itself. -/
def withSelf (m : Mach) (y : LaneId) (v : List LaneId) : List LaneId :=
  if (m.lane y).selfFaults.isEmpty || v.contains y then v else y :: v

/-- A verdict missing at a peer in both copies counts as naming its own lane (R149, assumption 27). -/
def verdictHeld (e : Exchange) (ls : List LaneId) (y : LaneId) (v : List LaneId) : List LaneId :=
  if ls.any (fun p => decide (p ≠ y) && e.verdictLost.contains (y, p) && e.relayLost.contains (y, p)) then [y] else v

def verdictBits (v : List LaneId) : Nat := laneSet v.contains

/-- R149 for lane y whose peers are x and z. The answer is the exclusion cause of R151: the window's own code under the
first two rules, 4 under the third. -/
def rule149 (w : Nat) (vy vx vz : List LaneId) (y : LaneId) : Option Nat :=
  if vy.contains y then some w
  else if vx.contains y && vz.contains y then some w
  else if verdictBits vx = verdictBits vz ∧ verdictBits vy ≠ verdictBits vx then some 4
  else none

/-- R150: two lanes that name each other alone, the third naming none: the later of the two, cause 5. -/
def rule150 (va vb vc : List LaneId) : Option LaneId :=
  if va = [.b] ∧ vb = [.a] ∧ vc = [] then some .b
  else if va = [.c] ∧ vc = [.a] ∧ vb = [] then some .c
  else if vb = [.c] ∧ vc = [.b] ∧ va = [] then some .c
  else none

/-- The exclusions of a window with three lanes serving: lane, cause, window. -/
def Mach.decide3 (m : Mach) (w : Nat) (va vb vc : List LaneId) : List (LaneId × Nat × Nat) :=
  let own := fun (l : LaneId) (c : Nat) => (m.lane l).selfFaults.headD c
  let one := fun (l : LaneId) (r : Option Nat) => match r with | some c => [(l, own l c, w)] | none => []
  let ex := one .a (rule149 w va vb vc .a) ++ one .b (rule149 w vb va vc .b) ++ one .c (rule149 w vc va vb .c)
  match rule150 va vb vc with
  | some l => if ex.any (fun e => decide (e.1 = l)) then ex else ex ++ [(l, 5, w)]
  | none => ex

/-- The cause in SYS.HALT when two lanes serve (R155). -/
def haltCause2 (m : Mach) (ls : List LaneId) : Nat :=
  let fs := ls.flatMap (fun l => (m.lane l).selfFaults)
  if fs.any (fun c => decide (c ≠ 11)) then (if m.sys.mode = 10 then 7 else 2) else 3

/-- The modes in which R155 holds while two lanes serve. -/
def mode155 (k : Nat) : Bool := k == 7 || k == 9 || k == 10 || k == 11

/-! ### Roles, the replace request and the degraded limit -/

def Mach.setRole (m : Mach) (l : LaneId) (r : Role) : Mach :=
  (m.updLane l (fun x => { x with role := r, probation := false })).refreshServing

/-- The pin of R384: energised while no request is raised and L+0 is not MISSING, and sensed above 12 V while L+0 supplies it
(assumption 45). -/
def Regs.replacePin (r : Regs) : Regs :=
  let on := decide (r.fld F.RED_STATUS_REPLACE = 0) && decide (r.fld F.DIO_SUPPLY_STATE_STATE % 4 ≠ 2)
  let fed := decide (r.fld F.DIO_SUPPLY_STATE_STATE % 4 = 0) || decide (60 < r.fld F.DIO_SUPPLY_L0)
  (r.put F.DIO_REPLACE_PIN_ENERGISED (b2n on)).put F.DIO_REPLACE_PIN_SENSED (b2n (on && fed))

/-- REPLACE_REQUEST_RAISE (R157): LED and pin, interrupt, and the federation status bit (RED.REPLACE and RED.STATUS). -/
def Mach.raiseReplace (m : Mach) (l : LaneId) (cause : Nat) : Mach :=
  let m := m.mapLanes (fun x => { x with regs :=
    ((((((x.regs.put F.RED_REPLACE_CAUSE cause).put F.RED_REPLACE_LANE (laneIx l)).put F.RED_REPLACE_REQUEST 1).put
      F.RED_STATUS_REPLACE 1).put F.DIO_REPLACE_PIN_ENERGISED 0).put F.DIO_REPLACE_PIN_SENSED 0) })
  m.raiseAll .red I.RED_REPLACE

/-- R157: the request is lowered at the entry into LOAD and at re-admission. -/
def Mach.lowerReplace (m : Mach) : Mach :=
  m.mapLanes (fun x => { x with regs :=
    (((((x.regs.put F.RED_REPLACE_CAUSE 0).put F.RED_REPLACE_LANE 0).put F.RED_REPLACE_REQUEST 0).put
      F.RED_STATUS_REPLACE 0).replacePin) })

/-- The degraded limit starts from zero in every lane's own timing (R156). -/
def Mach.startDegraded (m : Mach) : Mach :=
  m.mapLanes (fun x => { x with degUs := 0, regs :=
    (((x.regs.put F.RED_STATUS_DEGRADED 1).put F.RED_DEGRADED_ELAPSED_SECONDS 0).put F.RED_DEGRADED_REMAIN_SECONDS
      (x.regs.fld F.RED_DEGRADED_LIMIT_HOURS * 3600)) })

/-- The degraded timing stops. -/
def Mach.stopDegraded (m : Mach) : Mach :=
  m.mapLanes (fun x => { x with degUs := 0, regs :=
    (((x.regs.put F.RED_STATUS_DEGRADED 0).put F.RED_DEGRADED_ELAPSED_SECONDS 0).put F.RED_DEGRADED_REMAIN_SECONDS 0) })

/-- A lane times the degraded limit on by `us` µs. -/
def Lane.degradedTick (us : Nat) (x : Lane) : Lane :=
  if x.regs.fld F.RED_STATUS_DEGRADED = 0 then { x with degUs := 0 }
  else if x.degUs + us < 1000000 then { x with degUs := x.degUs + us }
  else { x with degUs := x.degUs + us - 1000000, regs :=
    ((x.regs.put F.RED_DEGRADED_ELAPSED_SECONDS (x.regs.fld F.RED_DEGRADED_ELAPSED_SECONDS + 1)).put
      F.RED_DEGRADED_REMAIN_SECONDS (x.regs.fld F.RED_DEGRADED_REMAIN_SECONDS - 1)) }

/-- RED.LANE_HISTORY: exclusions from service within the last 24 h. -/
def Mach.refreshHistory (m : Mach) : Mach :=
  let m := m.updSys (fun s => { s with exclTimes := s.exclTimes.filter (fun e => decide (s.seconds < e.2 + 86400)) })
  let n := fun (l : LaneId) => (m.sys.exclTimes.filter (fun e => decide (e.1 = l))).length
  ((m.putAll F.RED_LANE_HISTORY_A (n .a)).putAll F.RED_LANE_HISTORY_B (n .b)).putAll F.RED_LANE_HISTORY_C (n .c)

/-- A lane is excluded (R152): the registers, the event record and the interrupt. `win` is the window of the decision, 0
for a Darn failure outside a window. -/
def Mach.excludeLane (m : Mach) (l : LaneId) (cause win : Nat) : Mach :=
  let m := (m.updLane l (fun x => { x with
    payloads := [], staged := [], dioWord := 0, dioNext := 0,
    regs := (x.regs.put F.RTE_STATUS_RUNNING 0).put F.ZVL_STATUS_ACTIVE 0 })).setRole l .excluded
  let m := m.mapLanes (fun x => { x with regs :=
    ((((x.regs.put F.VOT_EXCLUSION_LANE (laneIx l)).put F.VOT_EXCLUSION_CAUSE cause).inc F.VOT_EXCLUSION_COUNT).put
      F.RED_EXCL_CLUSTER_LO_CLUSTER m.sys.cluster) })
  let m := m.updSys (fun s => { s with retest := if s.retest.contains l then s.retest else s.retest ++ [l] })
  let m := m.raiseAll .vot I.VOT_EXCLUSION
  let m := m.record 0x1001 (laneIx l) cause win (m.sys.cluster % 2 ^ 32)
  let m := m.updSys (fun s => { s with darnFrom := some m.upUs })
  if cause = 12 then m
  else
    let m := m.updSys (fun s => { s with exclTimes := s.exclTimes ++ [(l, s.seconds)] })
    (m.putAll F.RED_DARN_STATUS_ATTEMPTS 0).refreshHistory

/-- R157: entering SERVICE_2 raises the replace request, for the lane behind it where it stands already. -/
def Mach.replaceAgain (m : Mach) : Mach :=
  if m.fld F.RED_REPLACE_REQUEST = 1 then m.raiseAll .red I.RED_REPLACE
  else m.raiseReplace ((laneIds.find? (fun l => (m.lane l).role == .excluded)).getD .a) (m.fld F.VOT_EXCLUSION_CAUSE)

/-- Serving lanes that are left once the exclusions decided have been enacted. -/
def Mach.servingLeft (m : Mach) : Nat :=
  (m.serving.filter (fun l => !m.sys.pendingExcl.any (fun e => decide (e.1 = l)))).length

/-- At this boundary a serving lane is to be excluded. -/
def Mach.exclDue (m : Mach) : Bool := m.sys.boundary && decide (m.servingLeft < m.serving.length)

/-- Its exclusion brings SAFE_HALT (R153). -/
def Mach.exclHalts (m : Mach) : Bool :=
  m.exclDue && (decide (m.sys.mode = 5) || (decide (m.servingLeft < 2) && (decide (m.sys.mode ∈ [6, 9, 11]) || mode155 m.sys.mode)))

/-- A reset or a SAFE_HALT is due (R294): no other transition takes effect at the instant. -/
def Mach.preempted (m : Mach) : Bool := m.resetDue || m.sys.pendingHalt.isSome || m.exclHalts

/-- The consequence of exclusions by mode (R153), after the lanes are excluded; in TAKEOVER and HANDBACK the degraded limit counts
from here. A reset that is due goes before it (R294). -/
def Mach.afterExclusion (m : Mach) (l : LaneId) (cause : Nat) : Mach :=
  let k := m.sys.mode
  let n := m.serving.length
  if k = 5 then m.safeHalt (if n < 2 then 5 else 6)
  else if k = 6 then
    if n < 2 then m.safeHalt 5
    else if m.resetDue then m
    else ((m.startDegraded.raiseReplace l cause).setMode 7 0).raiseAll .red I.RED_DEGRADED
  else if k = 9 ∨ k = 11 then (if n < 2 then m.safeHalt 5 else m.startDegraded)
  else if mode155 k ∧ n < 2 then m.safeHalt (if k = 10 then 7 else 2)
  else m

/-! ### Darn (R158 to R160) -/

/-- The lane that Darn is for: the joining lane, else the excluded lane. -/
def Mach.darnLane (m : Mach) : Option LaneId :=
  match laneIds.find? (fun l => (m.lane l).role == .joining) with
  | some l => some l
  | none => laneIds.find? (fun l => (m.lane l).role == .excluded)

def Mach.joiner (m : Mach) : Option LaneId := laneIds.find? (fun l => (m.lane l).role == .joining)

/-- The step of R159 in progress. -/
def Mach.darnStep (m : Mach) : Nat := m.fld F.RED_DARN_STATUS_STEP

/-- DARN_FAIL (R160): the joining lane is excluded again with cause 12, and the module returns to SERVICE_2; not where a reset or a SAFE_HALT
is due at this boundary (R294). -/
def Mach.darnFail (m : Mach) (aborted : Bool) (win : Nat) : Mach :=
  match m.joiner with
  | none => m
  | some l =>
    if m.sys.mode ≠ 10 ∨ (m.sys.boundary ∧ m.preempted) then m
    else
      let step := m.darnStep
      let m := m.excludeLane l 12 win
      let m := m.mapLanes (fun x => { x with regs :=
        ((((x.regs.put F.RED_DARN_STATUS_FAIL_STEP step).put F.RED_DARN_STATUS_RESULT (if aborted then 3 else 2)).put
          F.RED_DARN_STATUS_STEP 0).put F.RED_STATUS_DARN_ACTIVE 0) })
      let m := m.dropSnap.updSys (fun s => { s with track := 0, probRun := 0, pendingExcl := (s.pendingExcl.filter
        (fun e => decide (e.1 ≠ l))) })
      let m := m.raiseAll .red I.RED_DARN_FAILED
      let m := m.record 0x1002 (laneIx l) (if aborted then 3 else 2) step (m.fld F.RED_DARN_STATUS_ATTEMPTS)
      ((m.setMode 7 0).raiseAll .red I.RED_DEGRADED).replaceAgain

/-- Exclusions of a lane from service within the last 24 h (R158). -/
def Mach.recentExclusions (m : Mach) (l : LaneId) : Nat :=
  (m.sys.exclTimes.filter (fun e => decide (e.1 = l) && decide (m.sys.seconds < e.2 + 86400))).length

/-- R158: a start of Darn is refused (and whether the lane is barred by it). -/
def Mach.darnRefused (m : Mach) (l : LaneId) : Bool :=
  decide (m.sys.mode ≠ 7) || decide (3 ≤ m.fld F.RED_DARN_STATUS_ATTEMPTS) || decide (3 ≤ m.recentExclusions l) ||
  decide (m.fld F.RED_STATUS_DARN_BARRED = 1) ||
  m.serving.any (fun k => decide ((m.lane k).regs.fld F.RED_DEGRADED_REMAIN_SECONDS < 60))

/-- A start of Darn, automatic or by software: refused with a record, or due at the next cluster boundary (R158). -/
def Mach.darnAsk (m : Mach) : Mach :=
  let l := m.darnLane.getD .a
  if m.darnRefused l ∨ m.darnLane = none then
    let barred := m.sys.mode = 7 ∧ (3 ≤ m.fld F.RED_DARN_STATUS_ATTEMPTS ∨ 3 ≤ m.recentExclusions l)
    let m := (m.putAll F.RED_DARN_STATUS_RESULT 4).err .red
    let m := m.raiseAll .red I.RED_DARN_FAILED
    let m := m.record 0x1002 (laneIx l) 4 0 (m.fld F.RED_DARN_STATUS_ATTEMPTS)
    let cause := if m.fld F.RED_REPLACE_REQUEST = 1 then m.fld F.RED_REPLACE_CAUSE else m.fld F.VOT_EXCLUSION_CAUSE
    if barred then (m.putAll F.RED_STATUS_DARN_BARRED 1).raiseReplace l cause else m
  else m.updSys (fun s => { s with darnDue := true })

/-- Re-admission (step 10 of R159). -/
def Mach.readmit (m : Mach) (l : LaneId) : Mach :=
  let m := m.setRole l .serving
  let e := (m.fld F.RED_EPOCH_EPOCH + 1) % 65536
  let m := m.mapLanes (fun x => { x with regs :=
    ((((x.regs.put F.RED_EPOCH_EPOCH e).put F.RED_DARN_STATUS_RESULT 1).put F.RED_DARN_STATUS_STEP 0).put
      F.RED_STATUS_DARN_ACTIVE 0) })
  let m := (m.stopDegraded).lowerReplace
  let m := m.dropSnap.updSys (fun s => { s with track := 0, probRun := 0 })
  let m := m.raiseAll .red I.RED_DARN_DONE
  let m := m.record 0x1002 (laneIx l) 1 0 (m.fld F.RED_DARN_STATUS_ATTEMPTS)
  m.setMode 6 0

/-! ### A compare window -/

/-- The link counters and the bits of VOT.VERDICT and VOT.LINK in one lane after a window. A difference is recorded in the registers
VOT.MISMATCH and VOT.MISMATCH_CLUSTER, that of two lanes (R452) like any other, for R389 has no event code for it (DEDUCED,
assumption 122). -/
def Lane.windowRegs (l : LaneId) (ls : List LaneId) (e : Exchange) (w bc cluster : Nat) (mismatch : Bool)
    (missing own bits : Nat) (x : Lane) : Lane :=
  let peers := ls.filter (fun p => decide (p ≠ l))
  let lost := peers.filter (fun p => e.sigLost.contains (p, l)) ++ peers.filter (fun p => e.verdictLost.contains (p, l))
  let relayed := laneSet (fun p => peers.contains p && e.verdictLost.contains (p, l) && !e.relayLost.contains (p, l))
  let up := laneSet (fun p => if peers.contains p then !(e.sigLost.contains (p, l) && e.verdictLost.contains (p, l))
    else bitOf (x.regs.fld F.VOT_LINK_UP) (laneIx p))
  let r := (((x.regs.put F.VOT_VERDICT_RELAYED relayed).put F.VOT_VERDICT_WINDOW w).put F.VOT_LINK_RELAY_USED relayed).put
    F.VOT_LINK_UP up
  let r := (r.put F.VOT_VERDICT_VERDICT_A bits).put F.VOT_VERDICT_VERDICT_B (bits / 16)
  let r := (r.put F.VOT_VERDICT_VERDICT_C (bits / 256)).addWrap F.VOT_COMPARES_COUNT 1
  let r := (r.put F.VOT_LINK_ERRORS_LOST (satAt 16 (r.fld F.VOT_LINK_ERRORS_LOST + lost.length))).put
    F.VOT_LINK_ERRORS_RETRIES (satAt 16 (r.fld F.VOT_LINK_ERRORS_RETRIES + (e.retries.filter (fun p => decide (p.1 = l))).length))
  let r := (e.retries.filter (fun p => decide (p.2 = l))).foldl (fun r _ => r.incReg (blkBase .vot + 0x20)) r
  let r := if mismatch then
      (((((r.inc F.VOT_MISMATCHES_COUNT).put F.VOT_MISMATCH_WINDOW w).put F.VOT_MISMATCH_BASIC bc).put
        F.VOT_MISMATCH_MISSING missing).put F.VOT_MISMATCH_DIFFERING own).put F.VOT_MISMATCH_CLUSTER_CLUSTER cluster
    else r
  { x with regs := r }

/-- The joining lane is named (R160): its renewed exclusion, cause 12, is decided in window `w`. -/
def Mach.nameJoiner (m : Mach) (j : LaneId) (w : Nat) : Mach :=
  m.updSys (fun s => { s with pendingExcl := s.pendingExcl ++ [(j, 12, w)] })

/-- A lane forms a signature of window `w`: it runs the cycle, or, joining, tracks the State Image (R159 step 7). -/
def Mach.signs (m : Mach) (w : Nat) (l : LaneId) : Bool :=
  (m.lane l).follows || (decide ((m.lane l).role = .joining) && decide (m.darnStep = 7) && decide (w = 3))

/-- The lanes that exchange signatures in a window: those that vote, and a joining lane in probation (R159 step 9). -/
def Mach.comparers (m : Mach) : List LaneId :=
  m.voters ++ laneIds.filter (fun l => (m.lane l).probation && !m.voters.contains l)

/-- R147 to R150 and R452 for one window: signatures kept, verdicts formed, the decisions left in `pendingExcl` and
`pendingHalt` for the enactment time (with two lanes serving, a lane that names itself is also excluded, R153); a difference of the
joining lane in probation names it, and with it fails Darn (R159 step 9). -/
def Mach.window (m : Mach) (w : Nat) (e : Exchange) : Mach :=
  let ls := m.voters
  let all := m.comparers
  let sigs := (m.signature w .a, m.signature w .b, m.signature w .c)
  let sig := fun (l : LaneId) => match l with | .a => sigs.1 | .b => sigs.2.1 | .c => sigs.2.2
  let v : LaneId → List LaneId := fun l =>
    if !all.contains l then []
    else withSelf m l (if !ls.contains l then
        (if ls.any (fun k => !sigEq (sig l) (seenSig e sig k l)) then [l] else [])
      else match ls.filter (fun p => decide (p ≠ l)) with
      | [x, z] => verdict3 e sig l x z
      | [x] => verdict2 e sig l x
      | _ => [])
  let held := fun (l : LaneId) => verdictHeld e ls l (v l)
  let bits := verdictBits (v .a) + 16 * verdictBits (v .b) + 256 * verdictBits (v .c)
  let pairs := fun (ls : List LaneId) => ls.flatMap (fun x => (ls.filter (fun y => decide (y ≠ x))).map (fun y => (x, y)))
  let differs := fun (ls : List LaneId) => (pairs ls).any (fun p => !sigEq (seenSig e sig p.1 p.2) (sig p.2))
  let missing := fun (y : LaneId) => laneSet (fun x => all.contains x && (seenSig e sig x y).isNone)
  let loses := fun (ls : List LaneId) => (pairs ls).any (fun p => e.sigLost.contains p || e.verdictLost.contains p)
  let m1 := laneIds.foldl (fun (m : Mach) l =>
    match sig l with
    | some s => if m.signs w l && !m.laneTested l then m.updLane l (fun x => x.keepSignature w s) else m
    | none => m) m
  let m1 := all.foldl (fun (m : Mach) l => m.updLane l
    (Lane.windowRegs l all e w m.sys.bc m.sys.cluster (differs all) (missing l) (verdictBits (v l)) bits)) m1
  let m1 := if differs all then m1.raiseAll .vot I.VOT_MISMATCH else m1
  let m1 := if all.any (fun l => decide (verdictBits (v l) ≠ verdictBits (v (ls.headD .a)))) then m1.raiseAll .vot I.VOT_VERDICT
            else m1
  let m1 := if loses all || !e.retries.isEmpty then m1.raiseAll .vot I.VOT_LINK else m1
  let self := ls.filter (fun l => !(m.lane l).selfFaults.isEmpty)
  let ruled := if ls.length = 3 then
      let ex := m.decide3 w (held .a) (held .b) (held .c)
      m1.updSys (fun s => { s with pendingExcl := s.pendingExcl ++ ex })
    else if mode155 m.sys.mode then
      if differs ls || loses ls || !self.isEmpty then
        m1.updSys (fun s => { s with
          pendingHalt := some (haltCause2 m ls),
          pendingExcl := s.pendingExcl ++ self.map (fun l => (l, (m.lane l).selfFaults.headD w, w)) })
      else m1
    else m1.updSys (fun s => { s with pendingExcl := (s.pendingExcl ++
      self.map (fun l => (l, (m.lane l).selfFaults.headD w, w))) })
  match m.joiner with
  | none => ruled
  | some j =>
    if !(m.lane j).selfFaults.isEmpty then ruled.nameJoiner j w
    else if (m.lane j).probation then
      if ls.all (fun l => sigEq (sig l) (seenSig e sig j l) && sigEq (sig j) (seenSig e sig l j)) then ruled
      else ruled.nameJoiner j w
    else if m.darnStep = 7 ∧ w = 3 then
      if sigEq (sig j) (sig (ls.headD .a)) then ruled.updSys (fun s => { s with track := s.track + 1 })
      else ruled.updSys (fun s => { s with track := 0 })
    else ruled

/-- The lanes an exclusion decided in the present window leaves out of the commit (R147). -/
def Mach.namedNow (m : Mach) (l : LaneId) : Bool := m.sys.pendingExcl.any (fun e => decide (e.1 = l))

end Sys2Proof.Machine
end

