-- ==== Sys2Proof/Machine/BuildOps.lean ====
section
/-!
DEFINITION. Machine/BuildOps.lean: what the lanes build for the next basic cycle and how the Port Hub sends it: command
entries through the guard gate, launch times (R93, R184, R185), Thawen frames with Husk and lane codes (R167 to R171, R189),
the DIO word (R374), boundary exports and the federation and pair messages (R260 to R268, R279).
-/
namespace Sys2Proof.Machine

def noHold : Nat → Option W32 := fun _ => none
def noApp : Nat → Option (BitVec 512) := fun _ => none
def noLaunch : Nat → Option LaunchState := fun _ => none
def noFrame : Nat → Option (List Byte × Nat × List W32) := fun _ => none

/-! ### Modes -/

/-- Commands go out as the lanes build them (R197). -/
def modeBuilt (k : Nat) : Bool := k == 5 || k == 6 || k == 7 || k == 9 || k == 10 || k == 11
/-- Commands go out restrictive with NOW (R197). -/
def modeRestr (k : Nat) : Bool := k == 12 || k == 14

/-- Command frames are sent in this state (R197): in MAINTENANCE and SAFE_HALT while an image is loaded and two lanes
build them, and in a pair only to the end of the cluster in which the unit stopped being active (R278). -/
def Mach.sending (m : Mach) : Bool :=
  m.leadLane.loaded &&
  (modeBuilt m.sys.mode ||
    (modeRestr m.sys.mode && decide (2 ≤ m.serving.length) &&
      (m.fld F.RED_PAIR_CFG_PAIRED = 0 || m.sys.active)))

/-- Every command is built restrictive: MAINTENANCE, SAFE_HALT, and HANDBACK from boundary H (R288). -/
def Mach.allRestrictive (m : Mach) : Bool := modeRestr m.sys.mode || (decide (m.sys.mode = 11) && m.fed.final)

/-! ### Commands (R184, R185, R130) -/

/-- The COMMANDED value that may go to the field: of the Press before while R285 holds a permissive change. -/
def Lane.fieldCommand (x : Lane) (o : Nat) : W32 :=
  match Store.get noHold x.rte.heldBack o with | some v => v | none => (SI.at x.si o).commanded

def noProv : Nat → Byte := fun _ => 0

/-- The lane with the proving demands still outstanding whose end R285 holds back. -/
def Lane.unproved (x : Lane) : Lane :=
  { x with si := x.rte.heldProv.foldl (fun s e => SI.upd s e.1 (fun r => { r with proving := r.proving ||| e.2 })) x.si }

/-- The lane with the restrictions and proving demands still in force whose end R285 holds back. -/
def Lane.underHeld (x : Lane) : Lane :=
  let x := x.unproved
  let y := { x with zvl := { x.zvl with rObj := x.rte.heldRestr.foldl (fun r o => Store.set noFlag r o true) x.zvl.rObj } }
  { y with zvl := y.zvl.mapSlots (fun s => { s with passes := s.passes && y.slotPasses y.latched s }) }

/-- The forbid code of an object while R285 holds lifted restrictions or met demands: 0 where it holds none. -/
def Lane.heldCode (x : Lane) (o : Nat) : Nat :=
  if x.rte.heldRestr.isEmpty && x.rte.heldProv.isEmpty then 0 else x.underHeld.forbidCode o

/-- COMMAND before the gate: [31:16] by class (R185); a command that a lifted restriction or a met demand forbade stays as the gate made it while
R285 holds that change. -/
def Lane.commandOf (x : Lane) (restr : Bool) (o : Nat) : W32 :=
  let low := if restr then x.img.restrictive o else (x.fieldCommand o).toNat % 65536
  let v := BitVec.ofNat 32 (x.img.commandHigh o * 65536 + low)
  if x.rte.heldRestr.isEmpty && x.rte.heldProv.isEmpty then v else (x.gateBy (x.heldCode o) o v).1

/-- The objects that take commands. -/
def Lane.commandable (x : Lane) : List Nat := x.img.objects.filter (fun o => takesCommands (x.img.cls o))

/-- A command entry (R185): object, NOW, COMMAND after the gate. -/
def Lane.entryOf (x : Lane) (restr : Bool) (o : Nat) : Nat × Bool × W32 :=
  let v := (x.gate o (x.commandOf restr o)).1
  (o, decide (v.toNat % 65536 = x.img.restrictive o) || x.rte.nowLow.contains o, v)

def entryBytes (e : Nat × Bool × W32) : List Byte := be 2 (b2n e.2.1 * 32768 + e.1 % 16384) ++ be 4 e.2.2.toNat

/-- LAUNCH of a node's frame (R93): what the frame carried last, its entries, and the start of the basic cycle that
carries it. -/
def Lane.launchFor (x : Lane) (last : Option LaunchState) (es : List (Nat × Bool × W32)) (start : Nat) : LaunchState :=
  if es.all (fun e => e.2.1) then
    match last with
    | some l => if l.allNow then l else ⟨start, true⟩
    | none => ⟨start, true⟩
  else if es.any (fun e => !e.2.1 && x.rte.permissive.contains e.1) then ⟨x.rte.shared, false⟩
  else match last with
    | some l => ⟨l.value, false⟩
    | none => ⟨start, false⟩

/-- The coded part (R184). -/
def codedPart (node : Nat) (es : List (Nat × Bool × W32)) : List Byte :=
  be 2 node ++ be 1 es.length ++ be 1 0 ++ es.flatMap entryBytes

/-- Whether a port basic cycle of port p starts in a lane basic cycle (R174). -/
def Img.startsIn (i : Img) (p bc : Nat) : Bool := decide (i.portCycle p ≠ 2) || decide (bc % 2 = 0)

/-- COMMAND_BUILD (R130) for the nodes of the ports given, for basic cycle `bc` of cluster `c` that starts at `start`. -/
def Lane.buildCommands (x : Lane) (restr : Bool) (ports : List Nat) (bc start time : Nat) : Lane :=
  let i := x.img
  let nodes := (ports.filter (fun p => i.startsIn p bc)).flatMap (fun p => (sortBy id (i.nodeIdxs p)).map (nodeAddr p))
  let made := nodes.map (fun a =>
    let es := ((i.nodeObjects a).filter (fun o => takesCommands (i.cls o))).map (x.entryOf restr)
    (a, x.launchFor (Store.get noLaunch x.rte.launch a) es start, codedPart a es))
  let framed := nodes.flatMap (fun a => (i.nodeObjects a).filter (fun o => takesCommands (i.cls o)))
  let sent := (framed ++ x.commandable.filter i.onDio).map (fun o => (o, x.commandOf restr o))
  let kept := fun (o : Nat) => ports.contains (nodePort (i.node o))
  let y := { x with staged := made.map (fun (e : Nat × LaunchState × List Byte) => (⟨e.1, e.2.1.value, e.2.2⟩ : Payload)),
                    rte := { x.rte with launch := made.foldl (fun l (e : Nat × LaunchState × List Byte) => Store.set noLaunch l e.1 (some e.2.1)) x.rte.launch } }
  y.gateDone time (decide (bc = 15)) framed kept sent

/-! ### The DIO word (R371, R374, R380) -/

/-- Output channels of an object that its command energises. -/
def Lane.energised (x : Lane) (restr : Bool) (o : Nat) : List Nat :=
  let v := ((x.entryOf restr o).2.2).toNat
  let c := x.img.cls o
  ((List.range 8).filter (fun k => x.img.isOutput o k && (if c = 8 then bitOf v k else bitOf v 0))).map (x.img.channel o)

/-- The DIO word; `forced` are the channels with SWITCH_FAULT. -/
def Lane.buildDio (x : Lane) (restr : Bool) (forced : W64) : W64 :=
  let on := ((x.img.objects.filter (fun o => x.img.onDio o && takesCommands (x.img.cls o))).flatMap (x.energised restr))
  BitVec.ofNat 64 (bitmap 64 on.contains) &&& ~~~forced

/-! ### Thawen frames (R167 to R171) -/

/-- What the Husk of a module frame carries beside its type, address and length. -/
structure HuskEnv where
  sched : Nat
  announce : Bool
  next : Nat
  target : Nat
  basic : Nat
  epoch : Nat
  seq : Nat
  imageId : Nat
  launch : Nat
  deriving DecidableEq, Repr

/-- The 24 bytes of a Husk (R169). -/
def huskBytes (h : HuskEnv) (type : Nat) (all : Bool) (dest source len : Nat) : List Byte :=
  be 4 (type * 2 ^ 28 + h.sched * 2 ^ 25 + b2n h.announce * 2 ^ 24 + h.next * 2 ^ 21 + h.target * 2 ^ 17 + h.basic * 2 ^ 12 +
    b2n all * 2 ^ 11 + dest) ++
  be 4 (h.epoch * 65536 + source) ++ be 4 (h.seq * 65536 + len) ++ be 4 h.imageId ++ be 8 h.launch

/-- A frame as it is sent: Husk, payload, CRC-32C (R168). -/
def frameBytes (husk payload : List Byte) : List Byte := husk ++ payload ++ be 4 (crc32c (husk ++ payload)).toNat

/-- SEQUENCE of a module frame (R171). -/
def moduleSeq (cluster perCluster basic : Nat) : Nat := (cluster * perCluster + basic) % 65536

/-- The lane code of a COMMAND or POLL frame (R189, R233): the schedule fields and LOOPED taken as zero, the coded part. -/
def commandCode (l : LaneId) (imageId epoch type basic node seq launch : Nat) (part : List Byte) : W32 :=
  let h : HuskEnv := ⟨0, false, 0, 0, basic, epoch, seq, imageId, launch⟩
  laneCode (laneSeed l) (BitVec.ofNat 32 imageId)
    (huskBytes h type false node (nodePort node * 128) (part.length + 20) ++ part)

/-- The port basic cycles of port p that start in lane basic cycle `bc` (R174). -/
def Img.basicsIn (i : Img) (p bc : Nat) : List Nat :=
  if i.portCycle p = 0 then [2 * bc, 2 * bc + 1] else if i.portCycle p = 1 then [bc] else [bc / 2]

/-- Which of a node's two frame slots the frames of lane basic cycle `bc` stand in: the next ones never take the place of
those still being sent. -/
def Img.frameSlot (i : Img) (p bc : Nat) : Nat := if i.portCycle p = 2 then bc / 2 % 2 else bc % 2

/-! ### The Port Hub's majority (R14, R155) -/

/-- The payload of a lane for a node, while the Port Hub takes it. -/
def takenPayload (m : Mach) (taken : LaneId → Bool) (l : LaneId) (node : Nat) : Option Payload :=
  if taken l then (m.lane l).staged.find? (fun (p : Payload) => decide (p.node = node)) else none

/-- What the Port Hub sends for a node: the payload two lanes agree on, else the first lane's; 0 agreed, 1 one lane off,
3 three different, 2 two lanes that differ. -/
def majority {α : Type} [DecidableEq α] (l : List α) : Option (α × Nat) :=
  match l with
  | [a, b, c] =>
    if a = b then some (a, if b = c then 0 else 1)
    else if a = c then some (a, 1)
    else if b = c then some (b, 1)
    else some (a, 3)
  | [a, b] => some (a, if a = b then 0 else 2)
  | [a] => some (a, 0)
  | _ => none

/-- Frames for one node: each lane's codes over its own payload, the fill in the slot of a lane not taken (R190). -/
def Mach.assembleNode (m : Mach) (taken : LaneId → Bool) (cluster bc : Nat) (m' : Mach) (node : Nat) : Mach :=
  let i := m.leadLane.img
  let p := nodePort node
  let ps := laneIds.filterMap (fun l => takenPayload m taken l node)
  match majority (ps.map (fun (q : Payload) => (q.launch, q.part))) with
  | none => m'
  | some ((launch, part), how) =>
    let type := if i.portMode p = 2 then 11 else 2
    let codes := (i.basicsIn p bc).flatMap (fun b => laneIds.map (fun l =>
      match takenPayload m taken l node with
      | some q => commandCode l (m.lane l).img.imageId ((m.lane l).nextEpoch m.readmitDue) type b node
          (moduleSeq cluster (i.perCluster p) b) q.launch q.part
      | none => 0))
    let key := node + 2048 * i.frameSlot p bc
    let m' := { m' with ph := ({ m'.ph with
      frames := Store.set noFrame m'.ph.frames key (some (part, launch, codes))
      split := if 2 ≤ how then m'.ph.split ++ [key] else m'.ph.split }) }
    if how = 0 then m'
    else
      let m' := { m' with ph := { m'.ph with regs := m'.ph.regs.set (blkBase .phb + 0x24) (BitVec.ofNat 32 node) } }
      if how = 1 then (m'.incPh F.PHB_PAYLOAD_DIFF_ONE_OFF).raisePh .phb I.PHB_PAYLOAD_2
      else if how = 3 then
        ((m'.incPh F.PHB_PAYLOAD_DIFF_THREE_WAY).raisePh .phb I.PHB_PAYLOAD_3).updSys (fun s => { s with pendingHalt := some 4 })
      else if mode155 m.sys.mode && decide (m.serving.length = 2) then
        m'.updSys (fun s => { s with pendingHalt := some (s.pendingHalt.getD 3) })
      else m'

/-! ### Boundary exports (R267, R268) -/

/-- State of an export entry: BLOCKED, RESTRICTED, LEVEL. -/
def Lane.exportState (x : Lane) (blocked : Bool) (e : Export) : Bool × Bool × Nat :=
  let i := x.img
  let r := SI.at x.si e.obj
  let cmd := (x.fieldCommand e.obj).toNat % 65536
  let restr := x.zRestricted e.obj || x.rte.heldRestr.contains e.obj
  let app := match Store.get noApp x.rte.heldApp e.obj with | some v => r.app &&& v | none => r.app
  let own :=
    if e.kind = 1 then x.unproved.zOccupied x.latched e.obj
    else if e.kind = 2 then decide (Store.get noCode x.zvl.forbid e.obj = 3) || decide (cmd = i.restrictive e.obj)
    else !bitOf app.toNat e.param || x.latched.lost i e.obj
  let b := blocked || own || restr
  (b, restr, if b || decide (e.kind ≠ 2) then 0 else i.commandLevel x.si e.obj cmd)

def exportWord (e : Export) (s : Bool × Bool × Nat) : Nat :=
  b2n s.1 * 2 ^ 31 + b2n s.2.1 * 2 ^ 30 + e.remote % 16384 * 65536 + s.2.2 % 16

/-- A BOUNDARY payload for a peer. -/
def Lane.boundaryPayload (x : Lane) (blocked : Bool) (peer : Nat) : List Byte :=
  let es := sortBy (fun (e : Export) => e.remote) (x.img.exportsTo peer)
  be 2 es.length ++ be 2 0 ++ es.flatMap (fun e => be 4 (exportWord e (x.exportState blocked e)))

/-! ### Federation and pair messages (R260 to R263, R279) -/

/-- Every export is BLOCKED: TAKEOVER, MAINTENANCE and SAFE_HALT (R267), unaligned (R273), own number duplicate (R275), and from an
honoured reset on (R309). -/
def Mach.exportsBlocked (m : Mach) : Bool :=
  decide (m.sys.mode = 9) || modeRestr m.sys.mode || m.fed.unaligned || m.fed.ownDup || m.sys.rst.isSome

def Mach.paired (m : Mach) : Bool := decide (m.fld F.RED_PAIR_CFG_PAIRED = 1)

/-- UNIT: 0 for a module that is not paired (R260). -/
def Mach.unit (m : Mach) : Nat := if m.paired then m.fld F.RED_PAIR_CFG_UNIT else 0

/-- STATUS.FLAGS. -/
def Mach.statusFlags (m : Mach) : Nat :=
  m.fld F.RED_REPLACE_REQUEST + 2 * b2n (!m.fed.ptpValid) + 4 * m.fld F.FED_NETS_SINGLE + 8 * b2n m.fed.partnerFit +
  16 * b2n m.fed.ownDup + 32 * b2n m.fed.unaligned

def Mach.statusPayload (m : Mach) : List Byte :=
  be 1 m.sys.mode ++
  be 1 (m.unit + 2 * m.fld F.RED_PAIR_CFG_PAIRED + 4 * b2n (modeActive m.sys.mode)) ++
  be 2 m.statusFlags ++ be 8 m.leadLane.serial.toNat ++ be 4 0

def Mach.pairBeatPayload (m : Mach) (cluster : Nat) : List Byte :=
  be 1 m.sys.mode ++ be 1 (b2n m.fed.handback.isSome + 2 * b2n m.fed.final) ++ be 2 0 ++
  be 4 (m.fed.handback.getD 0 % 2 ^ 32) ++ be 8 cluster

def Mach.healthPayload (m : Mach) : List Byte :=
  be 1 (m.fld F.RED_PAIR_STATUS_FIT + 2 * b2n m.fed.ready + 4 * b2n m.fed.finalApplied) ++
  be 1 (m.fld F.RED_PAIR_STATUS_UNFIT) ++ be 2 0 ++ be 4 (wrapSigned 32 (ratTrunc m.fed.pairOffset)) ++ be 8 (m.leadLane.sb.cluster.getD 0)

/-- By ascending destination, and then in order of sending (R144). -/
def byDest (l : List (Nat × Nat × List Byte)) : List (Nat × Nat × List Byte) := sortBy (fun e => e.1) l

/-- The types that other steps queue for the next basic cycle: SEED and SEED_ACK. -/
def queuedType (t : Nat) : Bool := t == 6 || t == 7

/-- The messages a lane builds for basic cycle `bc` of `cluster`, by ascending destination (R144). -/
def Mach.messagesFor (m : Mach) (x : Lane) (cluster bc : Nat) : List (Nat × Nat × List Byte) :=
  let own := x.img.moduleNumber
  let built := m.sending
  let bnd := if built && decide (m.fld F.FED_CFG_ENABLE = 1) then
      ((List.range 16).filter (fun p => !(x.img.exportsTo p).isEmpty)).map (fun p => (p, 1, x.boundaryPayload m.exportsBlocked p))
    else []
  let status := if bc = 0 && x.loaded && decide (m.fld F.FED_CFG_ENABLE = 1) then [(0xFF, 2, m.statusPayload)] else []
  -- a unit that has stopped being active sends to the end of that cluster (R286)
  let beat := if m.paired && (modeActive m.sys.mode || (m.sys.active && decide (bc ≠ 0))) then [(own, 4, m.pairBeatPayload cluster)] else []
  let health := if m.paired && decide (m.sys.mode = 8) && bc = 0 then [(own, 5, m.healthPayload)] else []
  byDest (bnd ++ beat ++ health ++ status)

/-- Code key K (R262). -/
def fedKey (i : Img) (type dest : Nat) : Nat :=
  if type = 1 then i.exportId dest else if type = 2 ∨ type = 3 then i.federationId else i.imageId

/-- The federation header (R261). -/
def fedHeader (i : Img) (epoch type dest seq len time : Nat) : List Byte :=
  be 1 type ++ be 1 1 ++ be 2 i.federationId ++ be 1 i.moduleNumber ++ be 1 dest ++ be 2 epoch ++ be 4 i.imageId ++
  be 4 (if type = 1 then i.exportId dest else 0) ++ be 4 (seq % 2 ^ 32) ++ be 2 len ++ be 2 0 ++ be 8 time

def netOctet : Net → Nat
  | .netA => 0x0A
  | .netB => 0x0B
  | .pair => 0x0C

/-- The frame check sequence of IEEE 802.3 (R260; PRESUMED, assumption 20), least significant byte first. -/
def fcs (l : List Byte) : List Byte := (be 4 (crc32 l).toNat).reverse

/-- A message on a network: addresses, EtherType, header, payload, codes, frame check sequence (R260). -/
def fedFrame (i : Img) (unit : Nat) (etherType : Nat) (n : Net) (dest : Nat) (body : List Byte) : List Byte :=
  let pre := fun (a : Nat) => be 1 a ++ be 1 0x4B ++ be 2 i.federationId ++ be 1 (netOctet n)
  let f := pre 3 ++ be 1 (if dest = 0xFF then 0xFF else dest * 2) ++ pre 2 ++ be 1 (i.moduleNumber * 2 + unit) ++
    be 2 etherType ++ body
  f ++ fcs f

/-- The networks a type goes out on. -/
def fedNets (type : Nat) : List Net := if type ≤ 3 then [.netA, .netB] else [.pair]

/-- Send the k-th message of the lanes' lists: the majority payload with the codes of the lanes taken (R263). -/
def Mach.sendMessage (m : Mach) (seq time : Nat) (msgs : LaneId → Option (Nat × Nat × List Byte)) : Mach :=
  let i := m.leadLane.img
  let epoch := m.fld F.RED_EPOCH_EPOCH
  match majority (laneIds.filterMap msgs) with
  | none => m
  | some ((dest, type, payload), _) =>
    let head := fedHeader i epoch type dest seq payload.length time
    let codes := laneIds.flatMap (fun l => match msgs l with
      | some e => be 4 (laneCode (laneSeed l) (BitVec.ofNat 32 (fedKey i e.2.1 e.1))
          (fedHeader i epoch e.2.1 e.1 seq e.2.2.length time ++ e.2.2)).toNat
      | none => be 4 0)
    let body := head ++ payload ++ codes
    (fedNets type).foldl (fun (m : Mach) n => m.emit (.message n
      (fedFrame i m.unit (m.fld F.FED_CFG_ETHERTYPE) n dest body))) m

/-- A lane whose messages the Port Hub takes: serving, and not isolated for a test (R281, R304). -/
def Mach.speaks (m : Mach) (l : LaneId) : Bool := m.voters.contains l

/-- The same messages of every lane that speaks, and of a joining lane in probation, join the output stream of the next basic cycle (R144,
R159 step 9, R263). -/
def Mach.queueMsgs (m : Mach) (l : List (Nat × Nat × List Byte)) : Mach :=
  laneIds.foldl (fun (a : Mach) k => if m.comparers.contains k then a.updLane k (fun x => { x with fedOut := byDest (x.fedOut ++ l) }) else a) m

/-- The same message from every serving lane, built at once: START, for which there is no basic cycle yet (R276). -/
def Mach.sendNow (m : Mach) (type dest seq time : Nat) (payload : List Byte) : Mach :=
  m.sendMessage seq time (fun l => if m.speaks l then some (dest, type, payload) else none)

/-- SEQUENCE and SEND_TIME of the present basic cycle. -/
def Mach.fedSeq (m : Mach) : Nat := m.sys.cluster * 16 + m.sys.bc

/-- The messages built in the last basic cycle leave at the start of this one (R263). -/
def Mach.sendStaged (m : Mach) : Mach :=
  let n := (m.leadLane.fedOut).length
  let m' := (List.range n).foldl (fun (a : Mach) k => a.sendMessage m.fedSeq m.nowNs
    (fun l => if m.speaks l then (m.lane l).fedOut[k]? else none)) m
  m'.mapLanes (fun x => { x with fedOut := [] })

end Sys2Proof.Machine
end

