-- ==== Sys2Proof/Machine/SeedOps.lean ====
section
/-!
DEFINITION. Machine/SeedOps.lean: the Seedbank streams (R283, R284): the full snapshot and the increment of a Press as byte
strings, the SEED blocks they are cut into, and what a standby reads from them.
-/
namespace Sys2Proof.Machine

/-- A queue entry of the streams, 16 B. -/
def Req.bytes (q : Req) : List Byte :=
  be 8 q.word.toNat ++ be 4 q.seq ++ be 2 q.clusters ++ be 1 q.mbx ++
  be 1 (b2n q.dropped + 2 * (q.drops % 4) + 8 * b2n q.follower)

/-- The queue entry that 16 B spell. -/
def Req.ofBytes (l : List Byte) : Req :=
  let fl := ofBe ((l.drop 15).take 1)
  ⟨BitVec.ofNat 64 (ofBe (l.take 8)), ofBe ((l.drop 8).take 4), ofBe ((l.drop 14).take 1), bitOf fl 0, bitsOf fl 2 1,
   bitOf fl 3, ofBe ((l.drop 12).take 2), true, 0⟩

/-- The 64-byte header; `counts` are the bytes of the counts of R283: in an increment three of 4 B stand in place of the queue and
the deferral count (assumption 29). -/
def seedHeader (m : Mach) (x : Lane) (cluster : Nat) (counts : List Byte) (len : Nat) : List Byte :=
  padTo 64 (be 8 cluster ++ be 2 (x.regs.fld F.RED_EPOCH_EPOCH) ++ be 1 m.sys.mode ++ be 1 0 ++ be 8 x.time.origin ++
    be 4 m.lastSeq ++ counts ++ be 1 (x.regs.fld F.TSU_PTP_STATE) ++
    be 2 (x.regs.fld F.TSU_HOLDOVER_ELAPSED_S) ++ be 4 x.img.imageId ++ be 4 len)

/-- A stream closed with its seal. -/
def sealed (l : List Byte) : List Byte := l ++ be 8 (crc64 l).toNat

/-- The full snapshot of a committed Press. -/
def fullStream (m : Mach) (x : Lane) (cluster : Nat) : List Byte :=
  let len := 64 + 2097152 + 16 * x.rte.queue.length + 2 * x.rte.deferred.length + 8
  sealed (seedHeader m x cluster (be 4 x.rte.queue.length ++ be 2 x.rte.deferred.length) len ++ siBytes x.si ++
    x.rte.queue.flatMap Req.bytes ++ x.rte.deferred.flatMap (be 2))

/-- An input commit that changes only STEADY. -/
def steadyOnly (old : SI) (e : WriteEntry) : Bool :=
  decide (e.off = 8) && decide (e.bytes.drop 1 = be 3 ((SI.at old e.object).detected.toNat % 2 ^ 24))

/-- The write entries an increment carries. -/
def seedEntries (old : SI) (log : List WriteEntry) : List WriteEntry :=
  log.filter (fun e => !e.isTimer && !steadyOnly old e)

def entryStream (e : WriteEntry) : List Byte := be 2 e.object ++ be 1 e.off ++ be 1 e.bytes.length ++ e.bytes

/-- The increment of a Press: `old` is the State Image before it, `q0` the queue as last sent. -/
def incStream (m : Mach) (x : Lane) (old : SI) (q0 : List Req) (log : List WriteEntry) (cluster : Nat) : List Byte :=
  let es := seedEntries old log
  let adds := x.rte.queue.filter (fun q => !q0.contains q)
  let gone := (q0.filter (fun q => !x.rte.queue.any (fun r => decide (r.seq = q.seq)))).map (·.seq)
  let body := es.flatMap entryStream ++ adds.flatMap Req.bytes ++ gone.flatMap (be 4) ++ x.rte.deferred.flatMap (be 2)
  sealed (seedHeader m x cluster (be 4 es.length ++ be 4 adds.length ++ be 4 gone.length) (64 + body.length + 8) ++ body)

/-- The SEED payloads of a stream: 16 B of header and 1,024 B of data, the last block padded. -/
def seedBlocks (kind cluster : Nat) : Nat → Nat → List Byte → List (List Byte)
  | 0, _, _ => []
  | n + 1, k, l =>
    (be 1 kind ++ be 3 0 ++ be 4 k ++ be 8 cluster ++ padTo 1024 (l.take 1024)) ::
      seedBlocks kind cluster n (k + 1) (l.drop 1024)

/-- Send a stream on the pair link. -/
def Mach.sendStream (m : Mach) (kind cluster : Nat) (l : List Byte) : Mach :=
  m.queueMsgs ((seedBlocks kind cluster (ceilDiv l.length 1024) 0 l).map (fun p => (m.leadLane.img.moduleNumber, 6, p)))

/-! ### What a receiver reads -/

/-- A stream being read: `w` bytes at an offset. -/
def rd (l : List Byte) (off w : Nat) : Nat := ofBe ((l.drop off).take w)

/-- The seal of a stream matches. -/
def sealOk (l : List Byte) : Bool := decide ((l.drop (l.length - 8)) = be 8 (crc64 (l.take (l.length - 8))).toNat)

/-- STREAM LENGTH, whose place depends on the counts. -/
def streamLength (kind : Nat) (l : List Byte) : Nat := rd l (if kind = 1 then 37 else 43) 4

/-- A record with bytes replaced from an offset. -/
def ObjRec.patch (r : ObjRec) (off : Nat) (bytes : List Byte) : ObjRec :=
  ObjRec.ofBytes (r.bytes.take off ++ bytes ++ r.bytes.drop (off + bytes.length))

/-- Apply write entries in order. -/
def applyLog (s : SI) (log : List WriteEntry) : SI := log.foldl (fun s e => SI.upd s e.object (fun r => r.patch e.off e.bytes)) s

/-- Read `n` write entries; what is left. -/
def readEntries : Nat → List Byte → List WriteEntry × List Byte
  | 0, l => ([], l)
  | n + 1, l =>
    let len := rd l 3 1
    let r := readEntries n (l.drop (4 + len))
    (⟨rd l 0 2, rd l 2 1, (l.drop 4).take len, false⟩ :: r.1, r.2)

def readReqs : Nat → List Byte → List Req
  | 0, _ => []
  | n + 1, l => Req.ofBytes (l.take 16) :: readReqs n (l.drop 16)

def readNums (w : Nat) : Nat → List Byte → List Nat
  | 0, _ => []
  | n + 1, l => rd l 0 w :: readNums w n (l.drop w)

/-- The State Image of a full snapshot. -/
def readRecords : Nat → Nat → List Byte → SI
  | 0, _, _ => []
  | n + 1, o, l =>
    let r := ObjRec.ofBytes (l.take 128)
    if r = ObjRec.zero o then readRecords n (o + 1) (l.drop 128) else (o, r) :: readRecords n (o + 1) (l.drop 128)

def readSi (l : List Byte) : SI := readRecords 16384 0 l

/-- STEADY counts one more Gather (R86). -/
def ObjRec.steadier (r : ObjRec) : ObjRec :=
  { r with detected := commitDetected r.detected (r.detected.toNat % 2 ^ 24) }

/-- What a standby's copy becomes with an increment (R284): the timer step, STEADY, the entries, LAST_CHANGE. -/
def applyIncrement (i : Img) (s : SI) (es : List WriteEntry) (cluster : Nat) : SI :=
  let s1 := SI.updAll (SI.tick s) i.objects ObjRec.steadier
  let s2 := applyLog s1 es
  SI.updAll s2 (changedIn i.objects s s2) (fun r => { r with lastChange := BitVec.ofNat 32 cluster })

/-- Insert in REQ_SEQ order under serial-number comparison (R79). -/
def insertSeq (r : Req) : List Req → List Req
  | [] => [r]
  | y :: t => if newer 32 y.seq r.seq then r :: y :: t else y :: insertSeq r t

/-- Queue changes of an increment. -/
def applyQueue (q adds : List Req) (gone : List Nat) : List Req :=
  ((q.filter (fun r => !gone.contains r.seq && !adds.any (fun a => decide (a.seq = r.seq)))) ++ adds).foldl
    (fun l r => insertSeq r l) []

end Sys2Proof.Machine
end

