-- ==== Sys2Proof/Machine/UpdateOps.lean ====
section
/-!
DEFINITION. Machine/UpdateOps.lean: firmware stores, Patches and probation (R400 to R410), the settings of a probation (R406),
and the event store (R390, R395 to R397): what is stored when the module resets or loses power, and what BOOT brings back.
-/
namespace Sys2Proof.Machine

/-! ### Records that wait (R390, R395) -/

/-- Lanes in a set. -/
def lanesIn (s : Nat) : Nat := s % 2 + s / 2 % 2 + s / 4 % 2

/-- ORIGIN of a lane's report: 2 for a node's EVENT frame. -/
def originOf (e : Event) : Nat := if e.code = 0x8000 then 2 else 1

/-- A report is stored; a RECORDS_LOST record of a lane adds to EVR.LOST. -/
def Mach.storeReport (m : Mach) (e : Event) (lanes : Nat) (merged : Bool) : Mach :=
  let m := m.storeRecord e lanes merged (originOf e)
  if e.code = 0x7002 then
    (m.putSc F.EVR_LOST_STAGING (satAt 16 (m.sc.regs.fld F.EVR_LOST_STAGING + e.p1))).raiseSc .evr I.EVR_LOST
  else m

/-- Reports waiting for others to merge with are stored before a reset (R309 step 3). -/
def Mach.settleWaiting (m : Mach) : Mach :=
  let ws := m.sc.waiting
  let m := { m with sc := { m.sc with waiting := [] } }
  ws.foldl (fun (m : Mach) w => m.storeReport w.ev w.lanes.toNat (decide (2 ≤ lanesIn w.lanes.toNat))) m

/-- The store slot of a sequence (R395), and the lowest sequence not yet in flash. -/
def storeSlot (s : Nat) : Nat := s % 2 ^ 30

def noRecord : Nat → List Byte := fun _ => []

/-- Write the records of a list of sequences to the event store (R395). -/
def Mach.writeStore (m : Mach) (ss : List Nat) : Mach :=
  let store := ss.foldl (fun s q => Store.set noRecord s (storeSlot q) (m.sc.dram.read (bufferSlot q) 32)) m.sc.store
  let rest := m.sc.unflushed.filter (fun q => !ss.contains q)
  let tail := ss.foldl (fun t q => pastSlot (2 ^ 30) q t) (m.sc.regs.fld F.EVR_FLASH_TAIL_SEQUENCE)
  let r := (m.sc.regs.put F.EVR_UNFLUSHED_RECORDS rest.length).put F.EVR_FLUSHED_SEQUENCE
    (rest.headD (m.sc.regs.fld F.EVR_HEAD_SEQUENCE))
  let r := r.put F.EVR_FLASH_TAIL_SEQUENCE tail
  { m with sc := { m.sc with store := store, unflushed := rest, regs := r } }

def Mach.flushAll (m : Mach) : Mach :=
  let m := m.writeStore m.sc.unflushed
  ({ m with sc := { m.sc with flushing := false } }).putSc F.EVR_STATUS_FLUSHING 0

/-! ### The firmware stores -/

def Sc.run (c : Sc) (k : Nat) : FwStore := Store.get FwStore.factory c.running k
def Sc.back (c : Sc) (k : Nat) : FwStore := Store.get FwStore.factory c.fallback k

/-- Why a store does not verify: 4 signature, 5 seal; 0 it does. -/
def FwStore.fault (f : FwStore) : Nat :=
  if !f.signed then 4 else if !f.whole || decide (crc64 f.part ≠ f.partSeal) then 5 else 0

def componentsOf (mask : Nat) : List Nat := (List.range 3).filter (bitOf mask)

/-- The VERSION that stands for a set of components: of its first one. -/
def versionOf (s : Store FwStore) (mask : Nat) : Nat :=
  (Store.get FwStore.factory s ((componentsOf mask).headD 0)).version

/-- The UPD registers that show the stores. -/
def Mach.updRegs (m : Mach) : Mach :=
  let c := m.sc
  let trial := c.probation.getD 0
  let kept := if bitOf (c.probation.getD (c.pending.getD 0)) 0 then (c.back 0).format else (c.run 0).format
  let r := ((((c.regs.put F.UPD_RUN_VERSION_VERSION (c.run 0).version).put F.UPD_FALLBACK_VERSION_VERSION (c.back 0).version).put
    F.UPD_STATE_FALLBACK_VALID (bitmap 3 (fun k => (c.back k).complete))).put F.UPD_STATE_ON_PROBATION trial).put
    F.UPD_STATUS_PROBATION (b2n c.probation.isSome)
  let r := ((r.put F.UPD_SETTINGS_KEPT (if c.snapshot.isSome then kept else 0)).put F.UPD_SETTINGS_RUNNING
    (c.run 0).format).put F.UPD_PROBATION_SERVICE_S (min c.serviceS 65535)
  { m with sc := { c with regs := r } }

/-- VERSION.BUILD of the Service Controller's blocks (R415): the build of the running firmware. -/
def Mach.fillBuild (m : Mach) : Mach :=
  let v := 0x03000000 + (Config.build (m.sc.run 0).version).toNat
  let bs : List Blk := [.hbr, .evr, .upd, .scdma, .mbx]
  { m with sc := { m.sc with regs := bs.foldl (fun (r : Regs) b => r.set (blkBase b + 4) (BitVec.ofNat 32 v)) m.sc.regs } }

/-- UPD.LAST: the event, its reason and the components. -/
def Mach.updLast (m : Mach) (event reason mask : Nat) : Mach :=
  ((m.putSc F.UPD_LAST_EVENT event).putSc F.UPD_LAST_REASON reason).putSc F.UPD_LAST_COMPONENTS mask

/-! ### The Patch in the staging area (R401, R402) -/

def patchBase : Nat := 0x20000000

def Mach.patchNum (m : Mach) (off w : Nat) : Nat := ofBe (m.sc.dram.read (patchBase + off) w)
def Mach.patchLen (m : Mach) : Nat := m.sc.regs.fld F.UPD_PATCH_LEN_LENGTH
def Mach.patchComponents (m : Mach) : Nat := m.patchNum 6 2
def Mach.patchVersion (m : Mach) : Nat := m.patchNum 8 4

/-- OFFSET and LENGTH of the part of a component. -/
def Mach.partAt (m : Mach) (k : Nat) : Nat × Nat := (m.patchNum (0x18 + 24 * k) 8, m.patchNum (0x20 + 24 * k) 8)

/-- The largest part of a component. -/
def partMax (k : Nat) : Nat := if k = 0 then 50331648 else if k = 1 then 196608 else 4194304

/-- Step 1 of R403: reason and component of the first failing check of form; none when all pass. -/
def Mach.patchForm (m : Mach) : Option (Nat × Nat) :=
  let mask := m.patchComponents
  if m.patchNum 0 4 ≠ 0x414B5054 ∨ m.patchNum 4 2 ≠ 1 ∨ mask = 0 ∨ 8 ≤ mask ∨ m.patchNum 0x10 8 ≠ m.patchLen then some (1, 0)
  else ((componentsOf mask).find? (fun k =>
    decide (partMax k < (m.partAt k).2) || decide (m.patchLen < (m.partAt k).1 + (m.partAt k).2))).map (fun k => (2, k))

/-- The signature over the Patch under the vendor's key. -/
def Mach.patchSigned (m : Mach) : Bool :=
  decide (hmac m.sc.patchKey (m.sc.dram.read patchBase (m.patchLen - 32)) = m.sc.dram.read (patchBase + m.patchLen - 32) 32)

/-- A running store as the Patch leaves it; `whole`: the write came to its end. -/
def Mach.partStore (m : Mach) (k : Nat) (whole : Bool) : FwStore :=
  let p := m.partAt k
  ⟨m.sc.dram.read (patchBase + p.1) p.2, m.patchVersion, m.patchNum 0xC 2, BitVec.ofNat 64 (m.patchNum (0x28 + 24 * k) 8),
   m.patchSigned, whole, false, m.sc.dram.read patchBase 256, m.sc.dram.read (patchBase + m.patchLen - 32) 32⟩

/-- Steps 2 and 3 of R403: fallback stores COMPLETE, snapshot, PENDING; once in an UPDATE. -/
def Mach.patchPending (m : Mach) : Mach :=
  if m.sc.pending.isSome then m
  else
    let mask := m.patchComponents
    let back := (componentsOf mask).foldl (fun s k => Store.set FwStore.factory s k { (m.sc.run k) with complete := true }) m.sc.fallback
    let m := m.storeSettings
    ({ m with sc := ({ m.sc with fallback := back, snapshot := some m.sc.settings, pending := some mask, serviceS := 0 }) }.updRegs).putSc
      F.UPD_PROBATION_BOOTS 0

/-- Steps 2 to 4 of R403: `part k` says whether the part of a component came to be whole; none where its writing has not begun, and the
running store holds what it held. -/
def Mach.patchWrite (m : Mach) (part : Nat → Option Bool) : Mach :=
  let m := m.patchPending
  let run := (componentsOf m.patchComponents).foldl (fun s k => match part k with
    | some whole => Store.set FwStore.factory s k (m.partStore k whole)
    | none => s) m.sc.running
  { m with sc := { m.sc with running := run } }

/-- PATCH_REFUSED (R403, R404), with the COMPONENTS of the Patch. -/
def Mach.patchRefused (m : Mach) (reason component version mask : Nat) : Mach :=
  ((m.sproutRecord 0x7004 reason component version 0).updLast 2 reason mask).raiseSc .upd I.UPD_REFUSED

/-- UPD.STATUS.SPROUT and UPD.STATE.STAGE (R413). -/
def Mach.sproutStage (m : Mach) (stage : Nat) : Mach :=
  (m.putSc F.UPD_STATUS_SPROUT (b2n (decide (stage ≠ 0)))).putSc F.UPD_STATE_STAGE stage

/-- Sprout's work in UPDATE as time passes (R403): from the form to the fallback stores, and from them, with PENDING marked, to the parts.
The manual gives no times within the 60 s, so whether a stage ends in a span of 250 µs is a free value (assumption 120). From the declaration of
a power loss on nothing more begins (R314). -/
def Mach.sproutGoes (m : Mach) : Mach :=
  if m.sys.mode ≠ 13 ∨ m.sys.rideOver ∨ m.patchForm.isSome then m
  else
    let f := m.fresh
    let m := f.2
    if !bitOf (Config.freeByte f.1).toNat 0 then m
    else if m.sc.regs.fld F.UPD_STATE_STAGE = 1 then m.sproutStage 2
    else if m.sc.regs.fld F.UPD_STATE_STAGE = 2 then m.patchPending.sproutStage 3
    else m

/-- A reset or loss of power in UPDATE before Sprout has finished (R404): how far it had come beyond the stage it shows, which parts it had begun
and which of those were whole, are free values. A part begun and not whole fails its seal. -/
def Mach.updateInterrupted (m : Mach) : Mach :=
  let f := m.fresh
  let m := f.2
  let b := (Config.freeByte f.1).toNat
  if m.sc.pending.isNone ∧ (m.patchForm.isSome ∨ bitOf b 0) then
    { m with sc := { m.sc with abandoned := some (m.patchVersion, m.patchComponents) } }
  else m.patchWrite (fun k => if bitOf b (k + 4) then some (bitOf b (k + 1)) else none)

/-! ### Fallback and Sprout at BOOT (R405, R406, R408) -/

/-- The settings in the format of the new firmware (R406). -/
def convertSettings (format : Nat) (s : Store (Option W32)) : Store (Option W32) :=
  s.foldl (fun t e => match e.2 with
    | some v => Store.set noSetting t e.1 (some (Config.convertSetting format e.1 v))
    | none => t) []

/-- FALLBACK (R408): the stores of the components of the Patch, and the snapshot. -/
def Mach.fallBack (m : Mach) (reason mask : Nat) : Mach :=
  let gone := versionOf m.sc.running mask
  let boots := m.sc.regs.fld F.UPD_PROBATION_BOOTS
  let run := (componentsOf mask).foldl (fun s k => Store.set FwStore.factory s k { (m.sc.back k) with complete := false })
    m.sc.running
  let m := { m with sc := ({ m.sc with
    running := run, settings := m.sc.snapshot.getD m.sc.settings, unstored := [], snapshot := none, pending := none, probation := none,
    falling := false, serviceS := 0 }) }
  let m := ((m.putSc F.UPD_PROBATION_BOOTS 0).putSc F.UPD_PROBATION_CONFIRM_S 0).updLast 4 reason mask
  ((m.sproutRecord 0x7006 reason gone (versionOf m.sc.running mask) boots).raiseSc .upd I.UPD_FALLBACK).sproutStage 4

/-- Every running store verifies. -/
def Sc.verified (c : Sc) : Bool := (List.range 3).all (fun k => (c.run k).fault = 0)

/-- SPROUT_VERIFY (R405): the stores to be run. -/
def Mach.sproutBoot (m : Mach) : Mach :=
  let bad := (List.range 3).find? (fun k => decide ((m.sc.run k).fault ≠ 0))
  let r := match (m.sc.pending).orElse (fun _ => m.sc.probation) with
    | some mask =>
      match bad with
      | some k => m.fallBack (m.sc.run k).fault mask
      | none =>
        if m.sc.falling then m.fallBack 7 mask
        else if m.sc.pending.isSome then
          let new := (m.sc.run 0).format
          let s := if bitOf mask 0 && decide (new ≠ (m.sc.back 0).format) then convertSettings new m.sc.settings
            else m.sc.settings
          ({ m with sc := { m.sc with pending := none, probation := some mask, serviceS := 0, settings := s } }).putSc
            F.UPD_PROBATION_BOOTS 1
        else
          let n := m.sc.regs.fld F.UPD_PROBATION_BOOTS + 1
          if 3 < n then m.fallBack 6 mask else m.putSc F.UPD_PROBATION_BOOTS n
    | none =>
      let failed := (List.range 3).filter (fun j => decide ((m.sc.run j).fault ≠ 0))
      if bad.isSome && failed.all (fun j => decide ((m.sc.back j).fault = 0)) then m.fallBack 8 (bitmap 3 failed.contains) else m
  r.updRegs

/-- PATCH_REFUSED of a Patch that was abandoned (R404), stored at the next BOOT. -/
def Mach.abandonedBoot (m : Mach) : Mach :=
  match m.sc.abandoned with
  | none => m
  | some (v, mask) => ({ m with sc := { m.sc with abandoned := none } }).patchRefused 3 0 v mask

/-! ### The event store (R396, R397) -/

/-- SEQUENCE of a stored record. -/
def recordSeq (r : List Byte) : Nat := ofBe ((r.drop 4).take 4)

def oldestOf : List Nat → Option Nat
  | [] => none
  | a :: t => some (t.foldl (fun m s => if newer 32 m s then s else m) a)
def newestOf : List Nat → Option Nat
  | [] => none
  | a :: t => some (t.foldl (fun m s => if newer 32 s m then s else m) a)

/-- One RECORDS_LOST record for each run of lost sequences. -/
def Mach.lostRecords (m : Mach) : Mach :=
  let runs := m.sc.lostRuns
  let m := { m with sc := { m.sc with lostRuns := [] } }
  runs.foldl (fun (m : Mach) e =>
    let m := m.scRecord 0x7002 2 e.2 e.1 0
    (m.putSc F.EVR_LOST_FLASH (satAt 16 (m.sc.regs.fld F.EVR_LOST_FLASH + e.2))).raiseSc .evr I.EVR_LOST) m

/-- The records of the event store that a restore may bring back: while an erasure is unfinished, none older than the mark. -/
def Sc.stored (c : Sc) : List (Nat × List Byte) :=
  (c.store.map (fun e => (recordSeq e.2, e.2))).filter (fun e =>
    !(c.clearing && newer 32 (c.regs.fld F.EVR_CLEAR_MARK_UPTO) e.1))

/-- EVR.HEAD one past the newest sequence in the event store; nothing is in the buffer yet (R397). -/
def Mach.evrHead (m : Mach) : Mach :=
  let seqs := m.sc.stored.map (fun e => e.1)
  let head := match newestOf seqs with | some s => nextSequence s | none => m.sc.regs.fld F.EVR_CLEAR_MARK_UPTO
  let r := ((m.sc.regs.put F.EVR_HEAD_SEQUENCE head).put F.EVR_TAIL_SEQUENCE head).put F.EVR_FLUSHED_SEQUENCE head
  let r := (r.put F.EVR_FLASH_TAIL_SEQUENCE ((oldestOf seqs).getD head)).put F.EVR_STATUS_CLEARING (b2n m.sc.clearing)
  { m with sc := { m.sc with regs := r, unflushed := [] } }

/-- A list of sequences, newest first. -/
def newestFirst : List Nat → List Nat
  | [] => []
  | a :: t =>
    let u := newestFirst t
    u.takeWhile (fun s => newer 32 s a) ++ a :: u.dropWhile (fun s => newer 32 s a)

/-- The restore begins (R397): the newest records, up to a bufferful. -/
def Mach.evrBegin (m : Mach) : Mach :=
  let m := m.evrHead
  let head := m.sc.regs.fld F.EVR_HEAD_SEQUENCE
  let near := (m.sc.stored.map (fun e => e.1)).filter (fun s => decide ((head + 2 ^ 32 - s) % 2 ^ 32 ≤ 33554432))
  ({ m with sc := { m.sc with restoring := newestFirst near } }).putSc F.EVR_STATUS_RESTORING (b2n (!near.isEmpty))

/-- One record comes back, unless a record stored since has its slot; EVR.TAIL moves back. -/
def Mach.evrCopyOne (m : Mach) (s : Nat) : Mach :=
  if 33554432 < (m.sc.regs.fld F.EVR_HEAD_SEQUENCE + 2 ^ 32 - s) % 2 ^ 32 then m
  else ({ m with sc := { m.sc with dram := m.sc.dram.write (bufferSlot s) (Store.get noRecord m.sc.store (storeSlot s)) } }).putSc
    F.EVR_TAIL_SEQUENCE s

/-- The next `n` records come back, newest first; RESTORING ends with the last. -/
def Mach.evrCopy (m : Mach) (n : Nat) : Mach :=
  if m.sc.restoring.isEmpty then m
  else
    let m := (m.sc.restoring.take n).foldl Mach.evrCopyOne { m with sc := { m.sc with restoring := m.sc.restoring.drop n } }
    if m.sc.restoring.isEmpty then m.putSc F.EVR_STATUS_RESTORING 0 else m

/-- EVR_RESTORE (R397) ends: what is left comes back (assumption 121), records are stored again, and those lost with the power are named
(R396). -/
def Mach.evrRestore (m : Mach) : Mach :=
  ((m.evrCopy m.sc.restoring.length).putSc F.EVR_STATUS_RUNNING 1).lostRecords

/-- The Service Controller fills UPD.IMG_SELECT as BOOT begins (R429): the selected slot is protected in BOOT too (R59). -/
def Mach.fillSelect (m : Mach) : Mach :=
  { m with sc := { m.sc with regs := fillSettings m.sc.settingsNow [F.UPD_IMG_SELECT_SLOT.addr] m.sc.regs } }

/-- The entry into BOOT: the event recorder finds its place, and Sprout verifies what is to run, which counts the BOOT however it ends (R405,
assumption 119). -/
def Mach.enterBoot (m : Mach) : Mach :=
  ((((m.evrBegin).sproutStage 0).putSc F.UPD_STATUS_SPROUT 1).abandonedBoot).sproutBoot.fillSelect

/-- Runs of consecutive sequences. -/
def runsOf : List Nat → List (Nat × Nat)
  | [] => []
  | s :: t => match runsOf t with
    | (f, n) :: rest => if f = nextSequence s then (s, n + 1) :: rest else (s, 1) :: (f, n) :: rest
    | [] => [(s, 1)]

/-- The newest 8 MB of the waiting records are in flash when logic power ends, the others are lost (R396). -/
def Mach.flushNewest (m : Mach) : Mach :=
  let un := m.sc.unflushed
  let keep := un.drop (un.length - 262144)
  let lost := un.take (un.length - 262144)
  let m := m.writeStore keep
  { m with sc := { m.sc with lostRuns := m.sc.lostRuns ++ runsOf lost, unflushed := [], flushing := false } }

end Sys2Proof.Machine
end

