-- ==== Sys2Proof/Machine/TimeOps.lean ====
section
/-!
DEFINITION. Machine/TimeOps.lean: the timebase (chapter 8): the servo (R240, R248), steps (R241, R243), the lane error and its
disagreements (R244 to R247), the PTP clocks, their reference and state (R250 to R256).
-/
namespace Sys2Proof.Machine

/-! ### Numbers -/

def ratClamp (l x : Rat) : Rat := if x < -l then -l else if l < x then l else x

/-- Parts per million. -/
def ppm (n : Nat) : Rat := (n : Rat) / 1000000

/-- The middle of three. -/
def ratMedian (a b c : Rat) : Rat := max (min a b) (min (max a b) c)

/-! ### The servo (R240, R248) -/

/-- RATE of the four terms: 20 ns × (1 + r), rounded to the nearest 2⁻³² ns. -/
def Time.newRate (t : Time) : Nat :=
  let r := ratClamp (ppm 200) (t.fLane + t.pLane + t.fPtp + t.pPtp)
  ((20 * 2 ^ 32 * (1 + r) + 1 / 2 : Rat).floor).toNat

/-- SERVO_UPDATE: CREF, BASE and RATE in one tick. -/
def Time.update (t : Time) : Time := { t with base := t.at t.count, cref := t.count, rate := t.newRate }

/-- The lane loop at a mark with error `e`. -/
def Time.laneLoop (t : Time) (ki kp : Nat) (e : Rat) : Time :=
  Time.update { t with fLane := t.fLane - e / (2 ^ ki * 250000), pLane := -e / (2 ^ kp * 250000) }

/-- The PTP loop at an accepted offset `o` with Sync interval `s` ns; `slew` limits p_ptp in a mode without steps. -/
def Time.ptpLoop (t : Time) (ki kp : Nat) (s o : Rat) (slew : Option Nat) : Time :=
  let p := -o / (2 ^ kp * s)
  Time.update ({ t with fPtp := ratClamp (ppm 50) (t.fPtp - o / (2 ^ ki * s)),
                        pPtp := (match slew with | some n => ratClamp (ppm n) p | none => p) })

/-! ### Steps (R241, R243) -/

/-- A lane's BASE moves by a whole number of ns. -/
def Time.stepBy (t : Time) (d : Int) (origin : Bool) : Time :=
  { t with base := wrapSigned 64 (t.base + d), origin := if origin then wrapSigned 64 (t.origin + d) else t.origin }

/-- A step is counted and recorded (R241). -/
def Mach.stepNote (m : Mach) (d : Int) : Mach :=
  let v := wrapSigned 64 d
  ((m.incAll F.TSU_STEPS_COUNT).raiseAll .tsu I.TSU_STEP).record 0x5001 (v / 2 ^ 32) (v % 2 ^ 32) m.sys.mode 0

/-- Steps are allowed now (R241): in LOAD up to the end of step 6. -/
def Mach.stepOk (m : Mach) : Bool := modeSteps m.sys.mode && !(decide (m.sys.mode = 4) && m.sys.originAgreed)

/-- A step of every serving lane; once an origin is agreed it moves with it (R243). -/
def Mach.stepAll (m : Mach) (d : Int) : Mach :=
  let o := m.sys.originAgreed
  let m := m.mapIf (fun x => x.isServing) (fun x =>
    let t := x.time.stepBy d o
    { x with time := t, regs := (x.regs.put F.TSU_ORIGIN_LO_ORIGIN t.origin).put F.TSU_ORIGIN_HI_ORIGIN (t.origin / 2 ^ 32) })
  m.stepNote d

/-- The step that waits, in whole ns. -/
def Fed.stepPend (f : Fed) : Int := f.stepNs.getD 0

/-- A step is due at the next lane mark (R241). -/
def Mach.stepAsk (m : Mach) (d : Int) : Mach := { m with fed := { m.fed with stepNs := some d } }

/-- A lane mark: the step that waits is applied to all serving lanes at once, in a mode that allows steps (R241). -/
def Mach.takeStep (m : Mach) : Mach :=
  match m.fed.stepNs with
  | none => m
  | some d =>
    let m := { m with fed := { m.fed with stepNs := none } }
    if m.stepOk then m.stepAll d else m

/-! ### The lane error (R244 to R247) -/

def nextLane : LaneId → LaneId
  | .a => .b
  | .b => .c
  | .c => .a

def Time.theta (t : Time) (x y : LaneId) : Option Rat := if y = nextLane x then t.thetaNext else t.thetaPrev

/-- The lanes whose θ count for lane `l`. -/
def Mach.timePeers (m : Mach) (l : LaneId) : List LaneId := m.serving.filter (fun k => decide (k ≠ l))

/-- e of R245; the joining lane's from step 5 of Darn on. -/
def Mach.laneError (m : Mach) (l : LaneId) : Option Rat :=
  let x := m.lane l
  match x.role, (m.timePeers l).map (x.time.theta l) with
  | .serving, [some u, some v] => some (-(ratMedian 0 u v))
  | .serving, [some u, none] => some (-u / 2)
  | .serving, [none, some v] => some (-v / 2)
  | .serving, [some u] => some (-u / 2)
  | .joining, [some u, some v] => if 5 ≤ m.darnStep then some (-(u + v) / 2) else none
  | _, _ => none

/-- A lane names itself for a self-fault condition of R151. -/
def Lane.selfFault (x : Lane) (cause : Nat) : Lane :=
  if x.selfFaults.contains cause then x else { x with selfFaults := x.selfFaults ++ [cause] }

/-- A timebase disagreement: cause 11 and the interrupt (R246). -/
def Mach.disagree (m : Mach) (l : LaneId) : Mach := (m.updLane l (fun x => x.selfFault 11)).raiseAll .tsu I.TSU_DISAGREE

/-- The registers of a lane error. -/
def Regs.laneErr (r : Regs) (e : Rat) : Regs :=
  let n := ratTrunc e
  ((r.put F.TSU_LANE_ERR_ERR (satSigned 16 n)).put F.TSU_LANE_ERR_MAX_ABS (max (r.fld F.TSU_LANE_ERR_MAX_ABS)
    (min n.natAbs 65535))).put F.TSU_STATUS_LANE_ALIGNED (b2n (decide (ratAbs e ≤ 500)))

/-- The lane error of the present mark, once: the servo, the disagreement of R246, the counts of R247. The joining lane
first steps its BASE. -/
def Mach.markError (m : Mach) (l : LaneId) : Mach :=
  let x := m.lane l
  match x.time.err, m.laneError l with
  | none, some e =>
    if x.role = .joining ∧ !x.time.stepped then
      let d := ratTrunc (-e)
      let m := m.updLane l (fun x => { x with time := ({ x.time.stepBy d false with err := some e, stepped := true }),
                                              regs := x.regs.laneErr e })
      m.stepNote d
    else
      let n := m.serving.length
      let off := if n = 2 ∧ x.role = .serving then ratAbs (2 * e) else ratAbs e
      let ov := if 500 < off ∧ x.role = .serving then x.time.overCnt + 1 else 0
      let m := m.updLane l (fun x =>
        let t := x.time.laneLoop (x.regs.fld F.TSU_SERVO_CFG_KI_L) (x.regs.fld F.TSU_SERVO_CFG_KP_L) e
        { x with time := ({ t with err := some e, overCnt := ov, good := if ratAbs e ≤ 500 then t.good + 1 else 0 }),
                 regs := x.regs.laneErr e })
      if 2 ≤ ov then m.disagree l else m
  | _, _ => m

/-- The end of a mark's exchange: a lane that has only part of its θ uses what it has, and without any skips the update. -/
def Mach.closeMark (m : Mach) : Mach :=
  laneIds.foldl (fun (m : Mach) l =>
    let m := m.markError l
    m.updLane l (fun x =>
      let t := if x.time.err.isNone then { x.time with overCnt := 0, good := 0 } else x.time
      { x with time := { t with err := none, thetaNext := none, thetaPrev := none } })) m

/-- LANE_TIME_MESSAGE (R244): lane x's θ and δ towards y, from the stamps a and b of the mark with nominal value n. As a cross-lane
message it opens the fast domain of the lane that takes it in (R18). -/
def Mach.timeMessage (m : Mach) (x y : LaneId) (a b n : Int) : Mach :=
  if x = y ∨ !m.sys.originAgreed ∨ m.sys.preOrigin then m
  else
    let theta : Rat := ((a - b : Int) : Rat) / 2
    let delta : Rat := ((a + b : Int) : Rat) / 2 - n
    let onNext := decide (y = nextLane x)
    let t := (m.lane x).time
    let bad := match (if onNext then t.deltaNext else t.deltaPrev) with
      | some d => decide (50 < ratAbs (delta - d))
      | none => false
    let th := if bad then none else some theta
    let v := satSigned 16 (ratTrunc theta)
    let m := m.updLane x (fun l =>
      if onNext then { l with time := { l.time with thetaNext := th, deltaNext := some delta },
                              regs := l.regs.put F.TSU_LANE_THETA_THETA_NEXT v }
      else { l with time := { l.time with thetaPrev := th, deltaPrev := some delta },
                    regs := l.regs.put F.TSU_LANE_THETA_THETA_PREV v })
    let m := m.wakeLane x
    if (m.timePeers x).all (fun k => ((m.lane x).time.theta x k).isSome) then m.markError x else m

/-! ### The holdover timer and the PTP state (R253, R255, R256) -/

def Mach.holdS (m : Mach) : Nat := m.fed.holdUs / 1000000

/-- 500 ns + D(t) of R255 in whole ns, for a timer in µs. -/
def holdBound (us : Nat) : Nat := 500 + (200000000 * us + us * us) / 50000000000000

/-- TSU.HOLDOVER: elapsed and 500 ns + D(t) while the timer runs. -/
def Mach.holdRegs (m : Mach) : Mach :=
  let on := decide (m.fld F.TSU_STATUS_HOLDOVER = 1)
  (m.putAll F.TSU_HOLDOVER_ELAPSED_S (if on then min m.holdS 65535 else 0)).putAll F.TSU_HOLDOVER_BOUND_NS
    (if on then min (holdBound m.fed.holdUs) 65535 else 0)

/-- The state of the start into the federation (R276). -/
def Mach.startTo (m : Mach) (k : Nat) : Mach :=
  ({ m with fed := { m.fed with startState := k } }).putAll F.FED_STATE_START k

/-- The start has joined or succeeded. -/
def Mach.fedJoin (m : Mach) (k : Nat) : Mach := (m.startTo k).raiseAll .fed I.FED_STARTED

/-- Federation time (R253), and its fault (R256). -/
def Mach.fedTime (m : Mach) : Mach :=
  let s := m.fld F.TSU_PTP_STATE
  let valid := decide (s = 3) || ((decide (s = 4) || decide (s = 2)) && decide (m.fld F.TSU_STATUS_HOLDOVER = 1))
  let was := m.fed.ptpValid
  let m := ({ m with fed := { m.fed with ptpValid := valid } }).putAll F.TSU_STATUS_FED_TIME_VALID (b2n valid)
  if was && !valid then m.raiseAll .tsu I.TSU_FED_TIME_FAULT else m

/-- A change of the PTP state, with its event record. -/
def Mach.ptpTo (m : Mach) (s : Nat) : Mach :=
  let old := m.fld F.TSU_PTP_STATE
  if old = s then m
  else
    let timer := if s = 4 ∨ m.fld F.TSU_STATUS_HOLDOVER = 1 then min m.holdS 65535 else 0
    let m := m.putAll F.TSU_PTP_STATE s
    let m := if s = 4 then (m.putAll F.TSU_STATUS_HOLDOVER 1).raiseAll .tsu I.TSU_HOLDOVER
      else if s = 2 then m.putAll F.TSU_PTP_IN_RANGE 0 else m.putAll F.TSU_STATUS_HOLDOVER 0
    let m := if s = 3 then m.raiseAll .tsu I.TSU_LOCKED else m
    let m := ((m.holdRegs).record 0x5002 old s (m.fld F.TSU_PTP_NET) timer).fedTime
    if s = 3 ∧ m.fed.startState = 1 then m.fedJoin 4 else m

/-! ### Masters and the reference network (R250, R252) -/

def Mach.ptp (m : Mach) : Net → Ptp
  | .netA => m.fed.ptpA
  | .netB => m.fed.ptpB
  | .pair => Ptp.reset

def Mach.setPtp (m : Mach) (n : Net) (p : Ptp) : Mach :=
  match n with
  | .netA => { m with fed := { m.fed with ptpA := p } }
  | .netB => { m with fed := { m.fed with ptpB := p } }
  | .pair => m

def netBit : Net → Nat
  | .netA => 1
  | .netB => 2
  | .pair => 4

/-- PTP runs on the network. -/
def Mach.netOn (m : Mach) (n : Net) : Bool :=
  decide (m.fld F.TSU_PTP_CFG_ENABLE = 1) && bitOf (m.fld F.TSU_PTP_CFG_NETS) (netBit n - 1) && decide (n ≠ .pair)

def Mach.ptpNets (m : Mach) : List Net := [Net.netA, .netB].filter m.netOn

/-- Lexicographic order: smaller is better. -/
def lexLt : List Nat → List Nat → Bool
  | a :: s, b :: t => decide (a < b) || (decide (a = b) && lexLt s t)
  | _, _ => false

/-- The rank of a dataset: what the algorithm compares before the identity. -/
def dsRank (d : PtpDataset) : List Nat := [d.priority1, d.clockClass, d.accuracy, d.variance, d.priority2]

/-- The better of two masters on one network (IEEE 1588: rank, identity, steps; PRESUMED, assumption 47). -/
def dsBetter (a b : PtpDataset) : Bool :=
  lexLt (dsRank a ++ [a.identity.toNat, a.steps]) (dsRank b ++ [b.identity.toNat, b.steps])

/-- The module's own dataset. -/
def Mach.ownDataset (m : Mach) : PtpDataset :=
  ⟨m.fld F.TSU_PTP_PRIO_PRIORITY1, 248, Config.clockAccuracy, Config.clockVariance, m.fld F.TSU_PTP_PRIO_PRIORITY2,
   Config.clockIdentity m.leadLane.serial, 0⟩

/-- The module may be master (R250, R276): not while the start into the federation runs or has stopped. -/
def Mach.mayMaster (m : Mach) : Bool :=
  decide (m.fld F.TSU_PTP_CFG_MASTER_OK = 1) &&
  (decide (m.fed.startState = 5) || decide (m.fed.startState = 4) ||
   (decide (m.fed.startState = 0) && decide (5 ≤ m.sys.mode)))

/-- The module is master on every enabled network. -/
def Mach.mastersAll (m : Mach) : Bool := !m.ptpNets.isEmpty && m.ptpNets.all (fun n => (m.ptp n).isMaster)

/-- The reference network of R252: 0 none, 1 A, 2 B. -/
def Mach.refNet (m : Mach) : Nat :=
  let d := fun (n : Net) => if m.netOn n && !(m.ptp n).isMaster then (m.ptp n).master else none
  match d .netA, d .netB with
  | some a, some b => if lexLt (dsRank b) (dsRank a) then 2 else 1
  | some _, none => 1
  | none, some _ => 2
  | none, none => 0

def netOf (k : Nat) : Net := if k = 1 then .netA else if k = 2 then .netB else .pair

/-- Mean path delay over the last exchanges. -/
def Ptp.mean (p : Ptp) : Option Rat :=
  if p.delays.isEmpty then none else some ((p.delays.foldl (· + ·) 0 : Int) / (2 * p.delays.length : Rat))

/-- A step by −o of every serving lane at the selection from FREE, by the last offset or the first one measured (R253), at the next lane
mark (R241). -/
def Mach.freeStep (m : Mach) (n : Net) : Mach :=
  match m.stepOk, (m.ptp n).offsets with
  | false, _ => m
  | true, [] => { m with fed := { m.fed with stepDue := true } }
  | true, o :: _ => (m.setPtp n { m.ptp n with offsets := [] }).stepAsk (m.fed.stepPend + ratTrunc (-o))

/-- The selection, its registers and what the PTP state makes of it; `heard`: the network whose Announce was run through the
algorithm. -/
def Mach.ptpSelect (m : Mach) (heard : Option Net) : Mach :=
  let old := m.fld F.TSU_PTP_NET
  let oldId := m.fld F.TSU_GM_ID_LO_CLOCK_ID + 2 ^ 32 * m.fld F.TSU_GM_ID_HI_CLOCK_ID
  let k := m.refNet
  let id := match (m.ptp (netOf k)).master with | some d => d.identity.toNat | none => 0
  let another := decide (k = 0) || decide (id ≠ oldId)
  let changed := decide (k ≠ old) || decide (id ≠ oldId)
  let m := (m.putAll F.TSU_PTP_MASTER_A (b2n m.fed.ptpA.isMaster)).putAll F.TSU_PTP_MASTER_B (b2n m.fed.ptpB.isMaster)
  let m := ((m.putAll F.TSU_PTP_NET k).putAll F.TSU_GM_ID_LO_CLOCK_ID id).putAll F.TSU_GM_ID_HI_CLOCK_ID (id / 2 ^ 32)
  let m := m.putAll F.TSU_PTP_DELAY_DELAY_NS (wrapSigned 32 (ratTrunc (((m.ptp (netOf k)).mean).getD 0)))
  let m := if changed then m.raiseAll .tsu I.TSU_MASTER_CHANGE else m
  let s := m.fld F.TSU_PTP_STATE
  let news := decide (k ≠ 0) && (changed || decide (heard = some (netOf k)))
  if s = 0 then m
  else if m.mastersAll then m.ptpTo 3
  else if s = 3 ∧ old = 0 then if k = 0 then m.ptpTo 4 else m.ptpTo 2
  else if s = 3 then
    if !another then m else if k = 0 then m.ptpTo 4 else (m.ptpTo 4).ptpTo 2
  else if s = 2 then if changed then m.putAll F.TSU_PTP_IN_RANGE 0 else m
  else if !news then m
  else
    let m := m.ptpTo 2
    if s = 1 then m.freeStep (netOf k) else m

/-- A module that may not be master is none (R250, R276). -/
def Mach.dropMaster (m : Mach) : Mach :=
  if m.mayMaster then m
  else (m.setPtp .netA { m.ptp .netA with isMaster := false }).setPtp .netB { m.ptp .netB with isMaster := false }

/-- The start into the federation begins (R276): no master role, and joined at once where PTP is LOCKED. -/
def Mach.startListen (m : Mach) : Mach :=
  let m := (m.startTo 1).dropMaster.ptpSelect none
  if m.fld F.TSU_PTP_STATE = 3 then m.fedJoin 4 else m

/-- PTP as TSU.PTP_CFG has it: at BOOT and after each copy of the TSU shadows. -/
def Mach.ptpCfg (m : Mach) : Mach :=
  let drop := fun (m : Mach) (n : Net) => if m.netOn n then m else m.setPtp n Ptp.reset
  let m := (drop (drop m .netA) .netB).dropMaster
  if m.fld F.TSU_PTP_CFG_ENABLE = 0 then (m.ptpTo 0).ptpSelect none
  else (if m.fld F.TSU_PTP_STATE = 0 then m.ptpTo 1 else m).ptpSelect none

/-! ### Messages (R250, R251) -/

/-- PTP_ANNOUNCE: the algorithm on its network, the master role, and the selection. Every PTP message is presented to the lanes as a frame
is (R251), so it opens a gated fast domain (R18). -/
def Mach.ptpAnnounce (m : Mach) (n : Net) (d : PtpDataset) : Mach :=
  if !m.netOn n then m
  else
    let p := m.ptp n
    let keep := match p.master with
      | some e => decide (e.identity ≠ d.identity) && !dsBetter d e
      | none => false
    let p := if keep then p else { p with master := some d }
    let m := if keep then m else { m with fed := { m.fed with ptpLast := some n } }
    let top := m.mayMaster && (match p.master with | some e => dsBetter m.ownDataset e | none => true)
    ((m.wakeForFrame).setPtp n { p with isMaster := top }).ptpSelect (some n)

/-- A network with no better master: the module takes the role where it may. -/
def Mach.takeMaster (m : Mach) (n : Net) : Mach :=
  if m.netOn n && m.mayMaster && (match (m.ptp n).master with | some e => dsBetter m.ownDataset e | none => true) then
    m.setPtp n { m.ptp n with isMaster := true }
  else m

/-- The network whose announce receipt timeout expires first: both have the same length (R250), so it is the slave's network whose
timeout was started first. -/
def Mach.ptpDue (m : Mach) : Option Net :=
  let ns := m.ptpNets.filter (fun n => !(m.ptp n).isMaster)
  match ns.find? (fun n => decide (m.fed.ptpLast ≠ some n)) with
  | some n => some n
  | none => ns.head?

/-- The clock of a network, selected or not, has lost its master (R250); a clock that stays a slave waits anew. The loss of the selected
master ends LOCKED, even where the other network has the same grandmaster (R253). -/
def Mach.ptpSilent (m : Mach) (n : Net) : Mach :=
  let m := if m.fld F.TSU_PTP_STATE = 3 ∧ netOf (m.fld F.TSU_PTP_NET) = n then m.ptpTo 4 else m
  ((({ m with fed := { m.fed with ptpLast := some n } } : Mach).setPtp n { m.ptp n with master := none }).takeMaster n).ptpSelect none

/-- PTP_ANNOUNCE_TIMEOUT. -/
def Mach.announceTimeout (m : Mach) : Mach :=
  if m.fld F.TSU_PTP_STATE = 0 then m
  else match m.ptpDue with
    | some n => m.ptpSilent n
    | none => m

/-- The Sync interval in ns. -/
def Mach.syncNs (m : Mach) : Nat :=
  match m.fld F.TSU_PTP_CFG_SYNC_LOG with
  | 1 => 2000000000
  | 15 => 500000000
  | _ => 1000000000

/-- An offset fed to the servo of every lane: the terms of R248, with the slew limit in a mode without steps. -/
def Mach.feedServo (m : Mach) (s o : Rat) : Mach :=
  let free := m.stepOk
  m.mapLanes (fun x =>
    let slew := if free then none else some (x.regs.fld F.TSU_SLEW_CFG_SLEW_PPM)
    { x with time := x.time.ptpLoop (x.regs.fld F.TSU_SERVO_CFG_KI_P) (x.regs.fld F.TSU_SERVO_CFG_KP_P) s o slew })

/-- An accepted offset: the servo (but in STANDBY, R257), the holdover timer's start, IN_RANGE and LOCKED after eight. -/
def Mach.ptpAccept (m : Mach) (o : Rat) : Mach :=
  let m := if m.sys.mode = 8 then m else m.feedServo m.syncNs o
  let m := { m with fed := { m.fed with outRun := 0, holdUs := if m.fld F.TSU_STATUS_HOLDOVER = 1 then m.fed.holdUs else 0 } }
  let n := if ratAbs o ≤ 500 then min (m.fld F.TSU_PTP_IN_RANGE + 1) 255 else 0
  let m := (m.putAll F.TSU_PTP_OFFSET_OFFSET_NS (wrapSigned 32 (ratTrunc o))).putAll F.TSU_PTP_IN_RANGE n
  if m.fld F.TSU_PTP_STATE = 2 ∧ 8 ≤ n then m.ptpTo 3 else m

/-- An outlier in LOCKED: counted, not fed; the fourth in a row ends LOCKED. -/
def Mach.ptpOutlier (m : Mach) : Mach :=
  let m := (m.incAll F.TSU_PTP_OUTLIERS).raiseAll .tsu I.TSU_OUTLIER
  let n := m.fed.outRun + 1
  let m := { m with fed := { m.fed with outRun := if n = 4 then 0 else n } }
  if n = 4 then m.ptpTo 4 else m

/-- PTP_SYNC: master send time t1 and own receive time t2 give the offset once a path delay is known, counted from the time that a step
which waits for its mark will have left (assumption 137). -/
def Mach.ptpSync (m : Mach) (n : Net) (t1 t2 : Int) : Mach :=
  let p := m.ptp n
  if !m.netOn n || p.isMaster then m
  else
    let m := m.wakeForFrame
    match p.mean with
    | none => m
    | some d =>
      let o : Rat := ((t2 - t1 + m.fed.stepPend : Int) : Rat) - d
      let m := m.setPtp n { p with offsets := (o :: p.offsets).take 8 }
      let s := m.fld F.TSU_PTP_STATE
      if netOf (m.fld F.TSU_PTP_NET) ≠ n ∨ (s ≠ 2 ∧ s ≠ 3) then m
      else if m.fed.stepDue then
        let m := { m with fed := { m.fed with stepDue := false } }
        if m.stepOk then (m.setPtp n { m.ptp n with offsets := [] }).stepAsk (m.fed.stepPend - ratTrunc o) else m.ptpAccept o
      else if s = 3 ∧ 2000 < ratAbs o then m.ptpOutlier
      else m.ptpAccept o

/-- PTP_DELAY_RESP: an exchange of t1 to t4. -/
def Mach.ptpDelay (m : Mach) (n : Net) (t1 t2 t3 t4 : Int) : Mach :=
  let p := m.ptp n
  if !m.netOn n || p.isMaster then m
  else
    let m := m.wakeForFrame
    let p := { p with delays := (((t2 - t1) + (t4 - t3)) :: p.delays).take 8 }
    let m := m.setPtp n p
    if netOf (m.fld F.TSU_PTP_NET) = n then m.putAll F.TSU_PTP_DELAY_DELAY_NS (wrapSigned 32 (ratTrunc (p.mean.getD 0))) else m

/-! ### The offset to the active unit (R257) -/

/-- A standby's measurement: a step at the next lane mark when it exceeds 1 µs, else the servo slews; one exchange a cluster. -/
def Mach.pairTime (m : Mach) (o : Rat) : Mach :=
  let m := ({ m with fed := { m.fed with pairOffset := o } }).putAll F.TSU_PAIR_OFFSET_OFFSET_NS (wrapSigned 32 (ratTrunc o))
  let o := o + m.fed.stepPend
  if 1000 < ratAbs o then m.stepAsk (m.fed.stepPend + ratTrunc (-o)) else m.feedServo 4000000 o

/-- At TAKEOVER the servo input returns to PTP. -/
def Mach.ptpTakeover (m : Mach) : Mach :=
  let k := m.fld F.TSU_PTP_NET
  let os := (m.ptp (netOf k)).offsets
  let m := ({ m with fed := { m.fed with pairOffset := 0 } }).putAll F.TSU_PAIR_OFFSET_OFFSET_NS 0
  let acquiring := decide (m.fld F.TSU_PTP_STATE = 2)
  let was := m.fed.ptpValid
  if m.fld F.TSU_PTP_CFG_ENABLE = 0 then m
  else if k ≠ 0 ∧ os.length = 8 ∧ os.all (fun o => decide (ratAbs o ≤ 500)) then m.ptpTo 3
  else
    let running := decide (m.leadLane.sb.ptp = 4) || (decide (m.leadLane.sb.ptp = 2) && decide (m.leadLane.sb.hold ≠ 0))
    let m := ({ m with fed := { m.fed with holdUs := m.leadLane.sb.hold * 1000000 } }).putAll F.TSU_STATUS_HOLDOVER (b2n running)
    let m := ((m.ptpTo 2).holdRegs).fedTime
    -- R256: the record of federation time that becomes invalid where ACQUIRING goes on
    if acquiring && was && !m.fed.ptpValid then m.record 0x5002 2 2 k 0 else m

end Sys2Proof.Machine
end

