-- ==== Sys2Proof/Machine/CycleOps.lean ====
section
/-!
DEFINITION. Machine/CycleOps.lean: the interlocking cycle and the basic cycle (chapters 1, 3, 4, 13): Rinse, Gather, the
dispatcher, the commit of a Press, Emit, the latch with the DIO agreement, the express pass with its command build, and the
tick of the module's time.
-/
namespace Sys2Proof.Machine

def noWork : Nat → Option Work := fun _ => none
def zeroNat : Nat → Nat := fun _ => 0

/-- Lanes that run the cycle: serving ones, and a joining one in probation. -/
def Mach.followers (m : Mach) : List LaneId := laneIds.filter (fun l => (m.lane l).follows)

/-- The same change in every lane that runs the cycle. -/
def Mach.mapFollow (m : Mach) (f : Lane → Lane) : Mach := m.mapIf (fun x => x.follows && x.loaded) f

/-- The interlocking cycle runs: the active modes, but for HANDBACK from boundary H (R288). -/
def Mach.cycling (m : Mach) : Bool := modeActive m.sys.mode && !(decide (m.sys.mode = 11) && m.fed.final)

/-! ### Rinse and Gather (R84, R85, R87, R88) -/

/-- Rinse: contexts, dispatcher and Press work lists to zero. -/
def Rte.rinse (r : Rte) : Rte :=
  { r with gathered := false, due := [], order := [], contexts := [], done := [], press := none }

/-- QUEUE_DEPTH, QUEUE_HIGH and QUEUE_FULL as the queue stands; the interrupt when the threshold is reached. -/
def Lane.queueRegs (x : Lane) : Lane :=
  let n := x.rte.queue.length
  let high := decide (x.regs.fld F.RTE_QUEUE_HIGH_THRESHOLD ≤ n)
  let full := decide (65536 ≤ (x.rte.queue.filter (fun q => isRouteWork (rqType q.word))).length)
  let was := x.regs.fld F.RTE_STATUS_QUEUE_HIGH
  let r := ((x.regs.put F.RTE_QUEUE_DEPTH_DEPTH n).put F.RTE_STATUS_QUEUE_HIGH (b2n high)).put F.RTE_STATUS_QUEUE_FULL (b2n full)
  { x with regs := if high ∧ was = 0 then r.setBit (blkBase .rte + 0x10) I.RTE_QUEUE_HIGH true else r }

/-- What the RTE shows of a State Image and a queue that come from elsewhere than a Press: the routes locked and the cut (R114). -/
def Lane.imageRegs (x : Lane) : Lane :=
  { x with regs := (x.regs.put F.RTE_LOCKED_ROUTES (x.img.lockedRoutes x.si).length).put F.RTE_QUEUE_CUT_CUT x.rte.cut }.queueRegs

/-- The highest REQ_SEQ a lane holds committed (R85), its last cut included; 0 for none. -/
def Lane.highest (x : Lane) : Nat := x.rte.queue.foldl (fun a q => if a = 0 ∨ newer 32 q.seq a then q.seq else a) x.rte.cut

/-- The lowest report of the participating lanes. -/
def lowestSeq : List Nat → Nat
  | [] => 0
  | a :: t => t.foldl (fun m s => if newer 32 m s then s else m) a

def upTo (cut seq : Nat) : Bool := !newer 32 seq cut

/-- Gather in one lane: the queue's part of the cycle, the frozen input image, what is due and in which order. Route work
is not evaluated while TAKEOVER lasts (R287). DEMAND_AVG is the mean of the last 16 cycles, rounded down; a weight above
16 bits shows 65,535 (DESIGN CHOICE, assumption 131). -/
def Lane.gather (x : Lane) (cut cluster : Nat) (takeover : Bool) : Lane :=
  let q := x.rte.queue.map (fun (r : Req) =>
    if r.gathered then { r with clusters := min (r.clusters + 1) 65535 }
    else if upTo cut r.seq then { r with gathered := true } else r)
  let i := x.img
  let z : Fz := ⟨i, x.si, x.live, cluster⟩
  let mine := q.filter (fun r => r.gathered && !r.follower)
  let work := mine.filter (fun r => isRouteWork (rqType r.word))
  let named := (work.filter (fun r => decide (rqType r.word ≤ 2))).map (fun r => rqTarget r.word)
  let locked := i.lockedRoutes x.si
  let due := locked.filter (fun r => !x.rte.deferred.contains r && z.due named x.rte.moved r)
  let old := sortBy id (x.rte.deferred.filter (fun r => locked.contains r))
  let reqs := if takeover then [] else work.filter (fun r => r.dropped) ++ work.filter (fun r => !r.dropped)
  let order := old.map Work.sup ++ due.map Work.sup ++ reqs.map (fun r => Work.req r.seq)
  let demand := ((old ++ due).map (fun r => weightOf (i.routeEstimate r))).foldl (· + ·) 0 +
    (reqs.map (fun r => i.reqWeight r.word)).foldl (· + ·) 0
  let ds := (demand :: x.rte.demands).take 16
  let regs := ((x.regs.put F.RTE_QUEUE_CUT_CUT cut).put F.RTE_LOAD_DEMAND (min demand 65535)).put F.RTE_LOAD_DEMAND_AVG
    (min (ds.foldl (· + ·) 0 / 16) 65535)
  { x with regs := regs.put F.RTE_CYCLE_PHASE 1,
           rte := ({ x.rte with queue := q, cut := cut, frozen := x.live, gathered := true, due := old ++ due, order := order,
                                done := [], demands := ds }) }

/-- The estimate of a piece of work (R88). -/
def Lane.workEstimate (x : Lane) : Work → Nat
  | .sup r => x.img.routeEstimate r
  | .req s => match x.rte.queue.find? (fun q => decide (q.seq = s)) with
    | some q => x.img.reqEstimate q.word
    | none => 0

/-- An evaluation started at `atUs` ends by 3,250 µs, by its estimate at 320 ns a step. -/
def fits (atUs e : Nat) : Bool := decide (atUs * 100 + e * 32 ≤ 325000)

/-- The first evaluation in order that fits, and those after it; the ones that do not fit are not started in this cycle. -/
def Lane.pickWork (x : Lane) (atUs : Nat) : List Work → Option Work × List Work
  | [] => (none, [])
  | w :: t => if fits atUs (x.workEstimate w) then (some w, t) else x.pickWork atUs t

/-- Start the next evaluation on a context (R87). -/
def Lane.startOn (x : Lane) (ctx atUs : Nat) : Lane :=
  let p := x.pickWork atUs x.rte.order
  { x with rte := { x.rte with order := p.2, contexts := Store.set noWork x.rte.contexts ctx p.1 } }

/-- At 250 µs the dispatcher fills all 256 contexts. -/
def Lane.fillContexts (x : Lane) : Lane := (List.range 256).foldl (fun y k => y.startOn k 250) x

/-- A context finishes its evaluation and takes the next one that fits. -/
def Lane.contextDone (x : Lane) (ctx atUs : Nat) : Lane :=
  match Store.get noWork x.rte.contexts ctx with
  | none => x
  | some w =>
    let x := { x with rte := { x.rte with done := x.rte.done ++ [w], contexts := Store.set noWork x.rte.contexts ctx none } }
    x.startOn ctx atUs

/-- 3,250 µs: unfinished evaluations are dropped whole, unstarted supervisions deferred (R89). A count above 16 bits shows its low 16
bits (DESIGN CHOICE, assumption 131). -/
def Lane.endEvaluate (x : Lane) : Lane :=
  let running := x.rte.contexts.filterMap (fun e => e.2)
  let dropped := running.filterMap (fun w => match w with | .req s => some s | .sup _ => none)
  let supDone := x.rte.done.filterMap (fun w => match w with | .sup r => some r | .req _ => none)
  let deferred := x.rte.due.filter (fun r => !supDone.contains r)
  let reqDone := x.rte.done.filterMap (fun w => match w with | .req s => some s | .sup _ => none)
  let q := x.rte.queue.map (fun (r : Req) =>
    if dropped.contains r.seq then { r with dropped := true, drops := r.drops + 1 }
    else if isRouteWork (rqType r.word) && r.gathered && !r.follower && !reqDone.contains r.seq then
      { r with dropped := false, drops := 0 }
    else r)
  let r := ((x.regs.put F.RTE_EVAL_LAST_STARTED (x.rte.done.length + running.length)).put F.RTE_EVAL_LAST_COMPLETED
    x.rte.done.length).put F.RTE_DROP_LAST_DEFERRED deferred.length
  let r := (((r.put F.RTE_DROP_LAST_DROPPED dropped.length).put F.RTE_STATUS_DEFERRED (b2n (!deferred.isEmpty))).put
    F.RTE_LOCKED_SUPERVISED supDone.length).put F.RTE_CYCLE_PHASE 3
  let r := if deferred.isEmpty then r else r.setBit (blkBase .rte + 0x10) I.RTE_DEFER true
  let r := if running.isEmpty then r else r.setBit (blkBase .rte + 0x10) I.RTE_DROP true
  { x with regs := r, rte := { x.rte with queue := q, deferred := deferred, contexts := [], order := [] } }

/-! ### The commit of a Press (R22, R90, R285) -/

/-- The objects whose command a Press makes restrictive, or less permissive: these are never held (R285). Where the field still shows an older
command that is less permissive than the new one, that one stays. -/
def Lane.lowered (x : Lane) (p : PressOut) : List Nat :=
  p.changed.filter (fun o =>
    let new := SI.at p.si o
    decide ((SI.at x.si o).command ≠ new.command) && !p.permissive.contains o &&
    !(match Store.get noHold x.rte.heldBack o with
      | some v => x.img.opens x.si p.si o (v.toNat % 65536) new.command
      | none => false))

/-- COMMANDED as it stood before a Press, for each object that the Press changes permissively. -/
def Lane.raised (x : Lane) (p : PressOut) : Store (Option W32) :=
  (p.changed.filter (fun o => decide ((SI.at x.si o).command ≠ (SI.at p.si o).command) && p.permissive.contains o)).foldl
    (fun h o => Store.set noHold h o (some (SI.at x.si o).commanded)) []

/-- APP as it stood before a Press, for each object exported with KIND 3 that the Press changes. -/
def Lane.raisedApp (x : Lane) (p : PressOut) : Store (Option (BitVec 512)) :=
  ((x.img.exports.filter (fun e => decide (e.kind = 3))).map (fun e => e.obj)).foldl (fun h o =>
    let old := (SI.at x.si o).app
    if old = (SI.at p.si o).app then h else Store.set noApp h o (some old)) []

/-- The proving bits that a Press clears (R69). -/
def Lane.metProv (x : Lane) (p : PressOut) : Store Byte :=
  p.changed.foldl (fun h o => Store.set noProv h o ((SI.at x.si o).proving &&& ~~~(SI.at p.si o).proving)) []

/-- The proving bits of either of two stores. -/
def orProv (a b : Store Byte) : Store Byte := a.foldl (fun h e => Store.set noProv h e.1 (Store.get noProv h e.1 ||| e.2)) b

/-- Take the objects of a list out of a hold, and lay the older values of one Press over it. -/
def dropHeld {α : Type} [DecidableEq α] (os : List Nat) (h : Store (Option α)) : Store (Option α) :=
  h.filter (fun e => !os.contains e.1)
def overHeld {α : Type} [DecidableEq α] (older newer : Store (Option α)) : Store (Option α) :=
  older.foldl (fun h e => Store.set (fun _ => none) h e.1 e.2) newer

/-- What the field keeps while none of these Presses is acknowledged: of each object the value before the oldest. -/
def heldOf (us : List Unacked) : Store (Option W32) × Store (Option (BitVec 512)) × List Nat × Store Byte :=
  us.foldr (fun u h => (overHeld u.cmds h.1, overHeld u.apps h.2.1, dedup (u.freed ++ h.2.2.1), orProv u.proved h.2.2.2)) ([], [], [], [])

/-- What a committed Press adds to what R285 holds: in force at once, and from the next Emit as long as it is not acknowledged.
`y` is the lane after the commit; a restriction that it lifted and a proving demand that it met stay in force for the gate and for exports. -/
def Lane.holdPress (x : Lane) (cluster : Nat) (p : PressOut) (y : Lane) : Lane :=
  let low := x.lowered p
  let cmds := x.raised p
  let apps := x.raisedApp p
  let freed := x.img.objects.filter (fun o => x.zRestricted o && !y.zRestricted o)
  let older := x.rte.unacked.map (fun u => { u with cmds := dropHeld low u.cmds })
  { y with rte := { y.rte with
    heldBack := overHeld (dropHeld low x.rte.heldBack) cmds
    heldApp := overHeld x.rte.heldApp apps
    heldRestr := dedup (x.rte.heldRestr ++ freed)
    heldProv := orProv x.rte.heldProv (x.metProv p)
    unacked := older ++ [⟨cluster, cmds, apps, freed, x.metProv p⟩] } }

/-- Nothing is held (R285). -/
def Rte.holdNone (r : Rte) : Rte := { r with heldBack := [], heldApp := [], heldRestr := [], heldProv := [], unacked := [] }

/-- The commit in one lane: the write list lands, ZVL takes it (R119 to R122), and the counters of the Press. -/
def Lane.commit (x : Lane) (gating : Bool) (cluster time : Nat) : Lane :=
  match x.rte.press with
  | none => x
  | some p =>
    let i := x.img
    let rej := (p.results.filter (fun r => resOutcome r.word = 6 || resOutcome r.word = 7)).length
    let ovr := (p.results.filter (fun r => resOutcome r.word = 6 && decide (bitsOf r.word.toNat 55 48 = 14))).length
    let regs := ((x.regs.put F.RTE_PRESS_COMMITTED (min p.committed 65535)).put F.RTE_LOCKED_ROUTES
      (i.lockedRoutes p.si).length).put F.SYS_IMG_PROVING_OUTSTANDING (outstanding p.si)
    let regs := (regs.put F.RTE_REJECTS_COUNT (satAt 32 (regs.fld F.RTE_REJECTS_COUNT + rej))).put F.RTE_OVERRUNS_COUNT
      (satAt 16 (regs.fld F.RTE_OVERRUNS_COUNT + ovr))
    let rte := { x.rte with queue := p.queue, deferred := p.deferred, converted := p.converted, throws := p.throws,
                            seen := p.seen, press := none, moved := p.moved, report := x.rte.report ++ p.results, nowLow := p.nowLow,
                            permissive := p.permissive }
    let y := ({ x with si := p.si, rte := rte, regs := regs }.zvlCommit x.si time p.changed p.lifts).queueRegs
    if gating then x.holdPress cluster p y else { y with rte := y.rte.holdNone }

/-- What of a lane's request state a snapshot holds (R159): the queue with its marks, the deferrals, the cut, and what the Press
carries from cycle to cycle. -/
def Rte.carried (r : Rte) : Rte :=
  { Rte.reset with queue := r.queue, cut := r.cut, deferred := r.deferred, converted := r.converted, throws := r.throws,
                   seen := r.seen, moved := r.moved, nowLow := r.nowLow }

/-- A joining lane applies the write list and the queue changes of a Press (step 7 of R159). -/
def Lane.track (j : Lane) (cluster cut : Nat) (p : PressOut) : Lane :=
    let s := SI.updAll (applyLog j.si p.log) p.changed (fun r => { r with lastChange := BitVec.ofNat 32 cluster })
    let r := { j.rte with queue := p.queue, cut := cut, deferred := p.deferred, converted := p.converted,
                          throws := p.throws, seen := p.seen, moved := p.moved, nowLow := p.nowLow }
    { j with si := s, rte := r }.imageRegs

/-! ### Emit (R81, R93, R285) -/

/-- The standby is FIT: permissive changes wait for their SEED_ACK. -/
def Mach.gating (m : Mach) : Bool := m.paired && m.fed.partnerFit

/-- The module holds back permissive changes: the SEED_ACK of the Press last sent is not in. -/
def Mach.gated (m : Mach) : Bool := m.gating && !m.fed.acked

/-- Entries held back at an Emit. -/
def Lane.heldCount (x : Lane) : Nat :=
  (x.rte.heldBack.filter (fun e => e.2.isSome)).length + x.rte.heldApp.length +
  (x.rte.heldRestr.filter (fun o => x.img.exports.any (fun e => decide (e.obj = o)))).length +
  (x.img.exports.filter (fun e => decide (e.kind = 1) && !x.zOccupied x.latched e.obj && x.unproved.zOccupied x.latched e.obj)).length +
  (if x.rte.heldRestr.isEmpty && x.rte.heldProv.isEmpty then 0 else (x.commandable.filter (fun o => decide (x.heldCode o ≠ x.forbidCode o))).length)

/-- SDB.ACK.HELD and GATING. -/
def Mach.heldRegs (m : Mach) : Mach :=
  let n := m.leadLane.heldCount
  (m.putAll F.SDB_ACK_HELD (min n 65535)).putAll F.SDB_STATUS_GATING (b2n (m.gating && decide (n ≠ 0)))

/-- What R285 holds becomes what the Presses not acknowledged hold; an object whose command is so released launches with the
Press's (R93). -/
def Lane.release (x : Lane) : Lane :=
  let h := heldOf x.rte.unacked
  let freed := (x.rte.heldBack.filter (fun e => decide (Store.get noHold h.1 e.1 ≠ e.2))).map (fun e => e.1)
  { x with rte := { x.rte with
    permissive := x.rte.permissive ++ freed.filter (fun o => !x.rte.permissive.contains o)
    heldBack := h.1
    heldApp := h.2.1
    heldRestr := h.2.2.1
    heldProv := h.2.2.2 } }

/-- Emit in one lane: the shared launch time; changes acknowledged are released, and all of them once the standby is not FIT. -/
def Lane.emitCommands (x : Lane) (gating : Bool) (cluster : Nat) : Lane :=
  let shared := x.time.origin + (cluster + 1) * 4000000 + x.regs.fld F.RTE_LAUNCH_LEAD_LEAD * 1000
  let x := if gating then x else { x with rte := { x.rte with unacked := [] } }
  let y := x.release
  { y with rte := { y.rte with shared := shared }, regs := y.regs.put F.RTE_CYCLE_PHASE 4 }

/-! ### Command, DIO and message build for the next basic cycle -/

/-- The ports whose frames the lanes build. -/
def Mach.commandPorts (m : Mach) : List Nat :=
  ((List.range 16).filter (fun p => (Store.get Port.init m.ph.ports p).running && (Store.get Port.init m.ph.ports p).commanding))

/-- DIO words other than zero may stand (R278, R376): not in MAINTENANCE and SAFE_HALT, from step 1 of a reset, or in a unit of a pair
that is not active. -/
def Mach.driving (m : Mach) : Bool := !modeRestr m.sys.mode && m.sys.rst.isNone && (!m.paired || modeActive m.sys.mode)

/-- COMMAND_BUILD, the DIO word and the messages for N + 1, in every lane that runs. -/
def Mach.buildNext (m : Mach) : Mach :=
  let n := m.sys.cluster * 16 + m.sys.bc + 1
  let start := m.leadLane.time.origin + n * 250000
  let restr := m.allRestrictive
  let send := m.sending
  let drive := send && m.driving
  let m1 := m.vectored [.zvl] (m.mapFollow (fun x =>
    let y := if send then x.buildCommands restr m.commandPorts (n % 16) start m.nowNs else { x with staged := [], zvl := { x.zvl with open_ := [] } }
    { y with dioNext := if drive then x.buildDio restr m.dio.switchFault else 0 }))
  m1.mapFollow (fun x => { x with fedOut := byDest (x.fedOut.filter (fun e => queuedType e.2.1) ++ m1.messagesFor x (n / 16) (n % 16)) })

/-! ### The latch: DIO agreement (R373), imports (R270), restriction cut (R117) -/

def sampleOf (i : PassInput) : LaneId → DioSample
  | .a => i.dioA
  | .b => i.dioB
  | .c => i.dioC

/-- Bitwise majority of three; of two, `two` decides the bits in which they differ. -/
def agreeBits (two : W64) : List W64 → W64
  | [a, b, c] => (a &&& b) ||| (b &&& c) ||| (a &&& c)
  | [a, b] => (a &&& b) ||| ((a ^^^ b) &&& two)
  | [a] => a
  | _ => 0

/-- The agreed state of one group supply: the majority; else the worst (two lanes: the worse). -/
def agreeState : List Nat → Nat
  | [a, b, c] => if a = b ∨ a = c then a else if b = c then b else max a (max b c)
  | l => l.foldl max 0

def agreeSupply (l : List (BitVec 8)) : BitVec 8 :=
  BitVec.ofNat 8 ((List.range 4).foldl (fun v g => v + agreeState (l.map (fun s => bitsOf s.toNat (2 * g + 1) (2 * g))) * 4 ^ g) 0)

/-- The group states as a lane reads them: those of the thresholds but for what its reading differs in; a code above MISSING is MISSING. -/
def supplySeen (group off : BitVec 8) : BitVec 8 :=
  let v := (group ^^^ off).toNat
  BitVec.ofNat 8 ((List.range 4).foldl (fun n g => n + min (bitsOf v (2 * g + 1) (2 * g)) 2 * 4 ^ g) 0)

/-- Failed when two of three lanes report it, or either of two. -/
def agreeFailed (l : List W16) : W16 :=
  match l with
  | [a, b, c] => (a &&& b) ||| (b &&& c) ||| (a &&& c)
  | l => l.foldl (· ||| ·) 0

/-- The RESTRICTIVE_LEVEL of the input points by DIO channel. -/
def Img.dioRestr (i : Img) : W64 :=
  BitVec.ofNat 64 (bitmap 64 (((i.objects.filter i.onDio).flatMap (fun o =>
    ((List.range 8).filter (fun k => i.isInput o k && i.restrLevel o k)).map (i.channel o))).contains))

/-- Channels that are outputs, inputs (R371). -/
def Img.dioOutputs (i : Img) : W64 :=
  BitVec.ofNat 64 (bitmap 64 (((i.objects.filter i.onDio).flatMap (fun o =>
    ((List.range 8).filter (i.isOutput o)).map (i.channel o))).contains))
def Img.dioInputs (i : Img) : W64 :=
  BitVec.ofNat 64 (bitmap 64 (((i.objects.filter i.onDio).flatMap (fun o =>
    ((List.range 8).filter (i.isInput o)).map (i.channel o))).contains))

/-- What the lanes agree at a latch: input levels, read-back, supply states, failed tests. -/
structure Agreed where
  inputs : W64
  readback : W64
  supply : BitVec 8
  failed : W16
  deriving DecidableEq, Repr

/-- What a lane with the image `g` agrees: where two samples differ the RESTRICTIVE_LEVEL of its own copy decides (R12, R373). -/
def Mach.agree (m : Mach) (i : PassInput) (g : Img) : Agreed :=
  let ss := m.voters.map (sampleOf i)
  ⟨agreeBits g.dioRestr (ss.map (·.inputs)), agreeBits (BitVec.allOnes 64) (ss.map (·.readback)),
   agreeSupply (ss.map (fun s => supplySeen m.dio.group s.supplyOff)), agreeFailed (ss.map (·.testFailed))⟩

def setBit16 (w : W16) (k : Nat) (b : Bool) : W16 := BitVec.ofNat 16 (putBit w.toNat k b)

/-- Both registers of a LO and HI pair. -/
def Mach.putPair (m : Mach) (lo hi : Field) (v : Nat) : Mach := (m.putAll lo v).putAll hi (v / 2 ^ 32)

/-- DIO.CH_STATUS of the channel that DIO.SEL names (R385). -/
def Mach.dioSel (m : Mach) : Mach :=
  let d := m.dio
  m.mapLanes (fun x =>
    let ch := x.regs.fld F.DIO_SEL_CHANNEL
    let bit := fun (w : W64) => b2n (bitOf w.toNat ch)
    let type3 := bitOf (x.regs.fld F.DIO_TYPE_LO_TYPE3 + 2 ^ 32 * x.regs.fld F.DIO_TYPE_HI_TYPE3) ch
    let role := if !x.loaded then 0 else if bitOf x.img.dioOutputs.toNat ch then 2 else if bitOf x.img.dioInputs.toNat ch then 1
      else 0
    let r := (((x.regs.put F.DIO_CH_STATUS_ROLE role).put F.DIO_CH_STATUS_TYPE3 (b2n type3)).put F.DIO_CH_STATUS_DEMAG
      (bit d.demag)).put F.DIO_CH_STATUS_DEFERRED (bit d.deferred)
    let r := (((r.put F.DIO_CH_STATUS_OVERLOAD (bit d.overload)).put F.DIO_CH_STATUS_SWITCH_FAULT (bit d.switchFault)).put
      F.DIO_CH_STATUS_STUCK_OPEN (bit d.stuckOpen)).put F.DIO_CH_STATUS_READBACK (bit d.readback)
    let r := (r.put F.DIO_CH_STATUS_SWITCH_OK (Store.get zeroNat d.ok ch)).put F.DIO_CH_STATUS_CURRENT
      (Store.get zeroNat d.current ch)
    { x with regs := r })

/-- The DIO registers that mirror the channels' state. -/
def Mach.dioRegs (m : Mach) : Mach :=
  let d := m.dio
  let forced := d.switchFault ||| d.overload
  let m := (m.putPair F.DIO_DEFER_LO_DEFERRED F.DIO_DEFER_HI_DEFERRED d.deferred.toNat).putPair F.DIO_FAULT_LO_FORCED
    F.DIO_FAULT_HI_FORCED forced.toNat
  (m.putAll F.DIO_STATUS_FAULT (b2n (forced ≠ 0))).dioSel

/-- The words take effect (R374, R375, R379, R380): a channel conducts where at least two lanes drive it on, and a bit that turns to 1 while
DEMAG is set or has just cleared is deferred. DEMAG starts with the switching off (assumption 32). -/
def Mach.takeWords (m : Mach) : Mach :=
  let w := (m.a.dioWord &&& m.b.dioWord) ||| (m.b.dioWord &&& m.c.dioWord) ||| (m.a.dioWord &&& m.c.dioWord)
  let d := m.dio
  let conducting := d.prevWord &&& ~~~d.deferred &&& ~~~d.overload
  let off := conducting &&& ~~~w
  let back := d.overload &&& d.overZero &&& w
  let rising := (w &&& ~~~d.prevWord) ||| back
  let m := { m with dio := ({ d with
    demag := d.demag ||| off, deferred := ((d.deferred &&& w) ||| (rising &&& (d.demag ||| d.settling))),
    overload := d.overload &&& ~~~back, overZero := d.overZero &&& ~~~back, settling := d.settling &&& ~~~off, prevWord := w }) }
  let shown := fun (x : Lane) => (x.regs.put F.DIO_OUT_LO_WORD x.dioWord.toNat).put F.DIO_OUT_HI_WORD (x.dioWord.toNat / 2 ^ 32)
  (m.mapLanes (fun x => { x with regs := shown x })).dioRegs

/-- SWITCH_FAULT on channels (R380): from now to the next LOAD their bits count as 0, in the word in force and in the one built already. -/
def Mach.forceOff (m : Mach) (chs : W64) : Mach :=
  let m := { m with dio := { m.dio with switchFault := m.dio.switchFault ||| chs } }
  ((m.mapLanes (fun x => { x with dioWord := x.dioWord &&& ~~~chs, dioNext := x.dioNext &&& ~~~chs })).takeWords).raiseAll .dio
    I.DIO_SWITCH_FAULT

/-- The counts of failing tests in a row of one switch, dark ones and light ones (R381; a test of the one kind that fails ends a row of the
other, assumption 118): a test that passes ends both. -/
def failCounts (c : Store Nat) (key : Nat) (dark bad : Bool) : Store Nat :=
  let n := fun (k : Nat) => Store.get zeroNat c k + 1
  let put := fun (c : Store Nat) (k : Nat) (v : Nat) => Store.set zeroNat c k v
  if !bad then put (put c key 0) (key + 96) 0
  else if dark then put (put c key (n key)) (key + 96) 0
  else put (put c key 0) (key + 96) (n (key + 96))

/-- The failing tests that the lanes report at a latch (R381): two in a row set SWITCH_FAULT for a switch that failed to
open, STUCK_OPEN for one that failed to close. -/
def Mach.switchResults (m : Mach) (failed : W16) : Mach :=
  let idx := (m.dio.testIdx + 5) % 6
  let one := fun (m : Mach) (ch : Nat) =>
    let dark := bitOf m.dio.dark.toNat ch
    let light := bitOf m.dio.light.toNat ch
    if !(dark || light) then m
    else
      let bad := bitOf failed.toNat ch
      let key := ch * 6 + idx
      let fails := failCounts m.dio.fails key dark bad
      let n := Store.get zeroNat fails (if dark then key else key + 96)
      let m := { m with dio := { m.dio with fails := fails, ok := Store.upd zeroNat m.dio.ok ch (fun v => putBit v idx (!bad)) } }
      let m := if bad then m.incAll F.DIO_PULSE_FAILS else m
      if n = 2 ∧ dark then (m.forceOff (setBit64 0 ch true)).record 0x6002 ch 1 idx 0
      else if n = 2 ∧ light then
        (({ m with dio := { m.dio with stuckOpen := setBit64 m.dio.stuckOpen ch true } }).raiseAll .dio I.DIO_STUCK_OPEN).record
          0x6002 ch 2 idx 0
      else m
  let m := (List.range 16).foldl one m
  { m with dio := { m.dio with dark := 0, light := 0 } }

/-- A count of latches in a row; 255 stands for a difference already recorded. -/
def rowCount (n : Nat) : Nat := if n = 255 then 255 else min (n + 1) 254

/-- Counters of persistent differences at a latch: input samples (R373), read-back (R383), participation senses (R376). -/
def Mach.dioCounters (m : Mach) (i : PassInput) (a : Agreed) : Mach :=
  let ls := m.voters
  let d := m.dio
  let outs := m.leadLane.img.dioOutputs
  let missing := fun (ch : Nat) => supplyOf a.supply ch = 2
  let rb := (List.range 64).foldl (fun c ch =>
    let off := bitOf d.deferred.toNat ch || bitOf d.overload.toNat ch || decide (missing ch)
    let diff := bitOf outs.toNat ch && (bitOf a.readback.toNat ch != bitOf d.prevWord.toNat ch)
    Store.set zeroNat c ch (if diff && !off then rowCount (Store.get zeroNat c ch) else 0)) d.rbCount
  let dis := if ls.length = 3 then
      ls.foldl (fun c l => (List.range 64).foldl (fun c ch =>
        let mine := bitOf (sampleOf i l).inputs.toNat ch
        let others := (ls.filter (fun k => decide (k ≠ l))).map (fun k => bitOf (sampleOf i k).inputs.toNat ch)
        let k := laneIx l * 64 + ch
        Store.set zeroNat c k (if others.all (fun b => b != mine) then rowCount (Store.get zeroNat c k) else 0)) c) d.disagree
    else []
  let held := m.servingSet
  let sense := laneIds.foldl (fun c l => (List.range 6).foldl (fun c k =>
    let wrong := ls.contains l && (bitOf (sampleOf i l).senses.toNat k != bitOf held (k / 2))
    Store.set zeroNat c (laneIx l * 6 + k) (if wrong then Store.get zeroNat c (laneIx l * 6 + k) + 1 else 0)) c) d.senseBad
  { m with dio := { d with rbCount := rb, disagree := dis, senseBad := sense } }

/-- The lanes whose two participation switches a lane senses closed, as DIO.PARTICIPATION.SENSED shows them. -/
def sensedClosed (s : DioSample) : Nat := bitmap 3 (fun k => bitOf s.senses.toNat (2 * k) && bitOf s.senses.toNat (2 * k + 1))

/-- DIO_DRIVE (R374): 5 µs after the mark, when the latch is closed, the words built in the basic cycle before take effect; SWITCH_FAULT counts
as 0 in every word (R380). -/
def Mach.dioMark (m : Mach) : Mach :=
  let drive := m.driving
  let old := m.dio.prevWord
  let m := m.mapLanes (fun x => { x with dioWord := if x.isServing && drive then x.dioNext &&& ~~~m.dio.switchFault else 0 })
  let m := m.takeWords
  let m := { m with dio := { m.dio with changed := m.dio.prevWord ^^^ old } }
  let on := !m.paired || modeActive m.sys.mode
  let m := m.mapLanes (fun x => { x with regs := x.regs.put F.DIO_STATUS_DRIVING (b2n (x.isServing && on)) })
  m.putAll F.DIO_PARTICIPATION_HELD m.servingSet

/-- What a latch sees of the channels beside the counters: an overloaded channel whose word bit is 0 (R380), and the currents of those that
conduct (R385). -/
def Dio.sampled (d : Dio) (currents : List (Fin 64 × BitVec 8)) : Dio :=
  let conducting := d.prevWord &&& ~~~d.deferred &&& ~~~d.overload
  { d with overZero := (d.overZero ||| ~~~d.prevWord) &&& d.overload,
           current := (currents.filter (fun e => bitOf conducting.toNat e.1.val)).foldl (fun c e =>
             Store.set zeroNat c e.1.val e.2.toNat) [] }

/-- A group supply is agreed LOW or MISSING at a latch at which it was not (R378): the interrupt and the record with its voltage. -/
def Mach.supplyAgreed (m : Mach) (g old new volts : Nat) : Mach :=
  if old = new then m
  else if new = 1 then (m.raiseAll .dio I.DIO_SUPPLY_LOW).record 0x6001 g 1 volts 0
  else if new = 2 then (m.raiseAll .dio I.DIO_SUPPLY_MISSING).record 0x6001 g 2 volts 0
  else m

/-- The restriction cut (R117): the lowest of the highest restriction requests the lanes hold committed. -/
def Mach.restrictionCut (m : Mach) : Nat :=
  lowestSeq (m.followers.map (fun l => ((m.lane l).zvl.wait.map (fun e => e.1)).foldl
    (fun a s => if a = 0 ∨ newer 32 s a then s else a) 0))

/-- Restrictions up to the cut enter the restriction copy, in REQ_SEQ order. -/
def Zvl.enterRestrictions (z : Zvl) (cut : Nat) : Zvl :=
  let now := if cut = 0 then [] else z.wait.filter (fun e => upTo cut e.1)
  { (now.foldl (fun z e => z.restrict e.2 true) z) with wait := z.wait.filter (fun e => !now.contains e) }

/-- A lane's own communication state of a source at a latch (R270): LOST after LOSS_LIMIT latches without a confirmed message, IN_COMM
again after 16 in a row that each took one in. -/
def SrcComm.heardAt (s : SrcComm) (limit : Nat) : Bool := (s.inComm || decide (16 ≤ s.run)) && decide (s.silent < limit)

/-- What a lane keeps of a source module. -/
def Lane.srcOf (x : Lane) (s : Nat) : SrcComm := Store.get SrcComm.init x.src s

/-- The sources that are IN_COMM for the latch of a lane, by its own state and image (R12, R270). -/
def Mach.sourceBits (m : Mach) (x : Lane) : BitVec 16 :=
  BitVec.ofNat 16 (bitmap 16 (fun s =>
    (x.srcOf s).heardAt (m.fld F.FED_CFG_LOSS_LIMIT) && x.img.isSource s &&
    m.fed.ptpValid && !m.fed.unaligned && !bitOf (m.fld F.FED_DUPLICATE_MODULES) s))

/-- At least one port link holds sync. -/
def Mach.anySync (m : Mach) : Bool :=
  (List.range 16).any (fun p => decide (m.leadLane.img.portMode p ≠ 0) &&
    ((Store.get Port.init m.ph.ports p).eastUp || (Store.get Port.init m.ph.ports p).westUp))

/-- One latch of every source: whether it gave a confirmed message (R270). -/
def Lane.srcLatch (x : Lane) : Lane :=
  { x with src := x.src.map (fun (e : Nat × SrcComm) => (e.1,
      if e.2.confirmed then { e.2 with confirmed := false, silent := 0, run := min (e.2.run + 1) 255 }
      else { e.2 with silent := min (e.2.silent + 1) 255, run := 0 })) }

/-- The networks' counters at a latch (R272). -/
def Fed.latch (f : Fed) (sync : Bool) : Fed :=
  { f with
    runA := if f.gotA && f.gotB then min (f.runA + 1) 255 else 0
    runB := if f.gotA && f.gotB then min (f.runB + 1) 255 else 0
    silA := if f.gotA then 0 else min (f.silA + 1) 255
    silB := if f.gotB then 0 else min (f.silB + 1) 255
    gotA := false
    gotB := false
    beatSilence := min (f.beatSilence + 1) 255
    quiet := if sync then min (f.quiet + 1) 255 else 0 }

/-- FED.SOURCE_STATUS of the source that FED.SEL names, FED.SOURCES and FED.NETS. A source that becomes LOST raises the
interrupt and writes a record. -/
def Mach.fedRegs (m : Mach) : Mach :=
  let img := m.leadLane.img
  let old := m.fld F.FED_SOURCES_IN_COMM
  let now := (m.sourceBits m.leadLane).toNat
  let peers := (List.range 16).filter img.isSource
  let lost := bitmap 16 (fun s => peers.contains s && !bitOf now s)
  let m := (m.putAll F.FED_SOURCES_IN_COMM now).putAll F.FED_SOURCES_LOST lost
  let m := (m.putAll F.FED_NETS_A_UP (b2n (decide (m.fed.silA < 16) && !m.fed.linkLostA))).putAll F.FED_NETS_B_UP
    (b2n (decide (m.fed.silB < 16) && !m.fed.linkLostB))
  let m := m.putAll F.FED_STATUS_ACTIVE
    (b2n (m.sending && decide (m.fld F.FED_CFG_ENABLE = 1) && img.federates))
  let s := m.fld F.FED_SEL_SOURCE
  let x := Store.get Source.init m.fed.sources s
  let m := (((m.putAll F.FED_SOURCE_STATUS_COMM (b2n (!bitOf now s))).putAll F.FED_SOURCE_STATUS_MODE x.mode).putAll
    F.FED_SOURCE_STATUS_ROLE x.role).putAll F.FED_SOURCE_STATUS_EPOCH (x.epoch.getD 0)
  (peers.filter (fun k => bitOf old k && !bitOf now k)).foldl (fun (m : Mach) k =>
    (m.raiseAll .fed I.FED_SOURCE_LOST).record 0x5003 1 k 0 0) m

/-- The field supplies as DIO.SUPPLY shows them, with the replace-request pin that L+0 feeds (R385). -/
def Mach.showVolts (m : Mach) (volts : W32) : Mach :=
  (m.setAllReg F.DIO_SUPPLY_L0.addr volts).mapLanes (fun x => { x with regs := x.regs.replacePin })

/-- LATCH (R117, R373): the live input image as it stands, with the agreed DIO values and the imports. -/
def Mach.latch (m : Mach) (i : PassInput) : Mach :=
  let a := m.agree i m.leadLane.img
  let m := m.dioCounters i a
  let m := ({ m with dio := m.dio.sampled i.currents }).switchResults a.failed
  let m := { m with fed := m.fed.latch m.anySync }.mapLanes Lane.srcLatch
  let cut := m.restrictionCut
  let m := m.mapFollow (fun x =>
    let v := { x.live with dioIn := (m.agree i x.img).inputs, dioRb := a.readback, supply := a.supply, srcIn := m.sourceBits x,
                           fed := x.imports, early := x.early }
    { x with live := v, latched := v, zvl := x.zvl.enterRestrictions cut })
  let m := (m.putPair F.DIO_IN_LO_LEVEL F.DIO_IN_HI_LEVEL a.inputs.toNat).putPair F.DIO_READBACK_LO_LEVEL
    F.DIO_READBACK_HI_LEVEL a.readback.toNat
  let was := m.fld F.DIO_SUPPLY_STATE_STATE
  let m := (m.putAll F.DIO_SUPPLY_STATE_STATE a.supply.toNat).putAll F.DIO_STATUS_SUPPLY (b2n (a.supply ≠ 0))
  let m := m.showVolts i.volts
  let m := (List.range 4).foldl (fun (m : Mach) g => m.supplyAgreed g (bitsOf was (2 * g + 1) (2 * g)) (supplyOf a.supply (16 * g))
    (bitsOf i.volts.toNat (8 * g + 7) (8 * g))) m
  let sensed := fun (l : LaneId) (x : Lane) => { x with regs := x.regs.put F.DIO_PARTICIPATION_SENSED (sensedClosed (sampleOf i l)) }
  let m := laneIds.foldl (fun (m : Mach) l => m.updLane l (sensed l)) m
  m.dioRegs.fedRegs

/-! ### Marks and time (R21, R239, R246) -/

def markOf (i : PassInput) : LaneId → Int
  | .a => i.markA
  | .b => i.markB
  | .c => i.markC

/-- The mark the Port Hub aligns to (R21): the median of three, the earlier of two. -/
def alignedMark : List Int → Int
  | [a, b, c] => max (min a b) (min (max a b) c)
  | [a, b] => min a b
  | [a] => a
  | _ => 0

/-- PH_MARK_ALIGN (R21): the schedule clock moves to the aligned mark; the deviations from it, and the report of R246 in two
consecutive basic cycles. -/
def Mach.markAlign (m : Mach) (i : PassInput) : Mach :=
  let ls := m.voters
  let mark := alignedMark (ls.map (markOf i))
  let devOf := fun (l : LaneId) => markOf i l - mark
  let m := { m with ph := { m.ph with sched := m.ph.sched + mark } }
  let worst := (ls.map (fun l => (devOf l).natAbs)).foldl max 0
  let m := (m.putPh F.PHB_MARK_SKEW_LAST_NS (min worst 65535)).putPh F.PHB_MARK_SKEW_MAX_NS
    (max (m.ph.regs.fld F.PHB_MARK_SKEW_MAX_NS) (min worst 65535))
  let m := m.putPh F.PHB_STATUS_ALIGNED 1
  let m := if 500 < worst then m.raisePh .phb I.PHB_MARK_DISAGREE else m
  ls.foldl (fun (m : Mach) l =>
    let far := decide (500 < (devOf l).natAbs)
    let n := if far then (m.lane l).time.phOver + 1 else 0
    let m := m.updLane l (fun x => { x with time := { x.time with phOver := n } })
    if ls.length = 3 ∧ 2 ≤ n then m.disagree l else m) m

/-- The conditions of R407 that hold second by second: SERVICE_3 with no lane excluded, or STANDBY and FIT with every lane
tested; no SAFE_HALT and no watchdog in this boot. -/
def Mach.confirming (m : Mach) : Bool :=
  !m.sc.watchdogSeen &&
  ((decide (m.sys.mode = 6) && decide (m.serving.length = 3)) ||
   (decide (m.sys.mode = 8) && decide (m.fld F.RED_PAIR_STATUS_FIT = 1) &&
     laneIds.all (fun l => decide (Store.get zeroNat m.fed.testedAt (laneIx l) ≠ 0))))

/-- A second of probation (R407): service time outside DORMANT, and the seconds towards confirmation. -/
def Mach.probationSecond (m : Mach) : Mach :=
  if m.sc.probation.isNone || decide (m.sys.mode < 3) then m
  else
    let n := m.sc.serviceS + 1
    let c := if m.confirming && !m.sc.broke then min (m.sc.regs.fld F.UPD_PROBATION_CONFIRM_S + 1) 4095 else 0
    let m := { m with sc := { m.sc with serviceS := n, broke := false } }
    (m.putSc F.UPD_PROBATION_SERVICE_S (min n 65535)).putSc F.UPD_PROBATION_CONFIRM_S c

/-- BOOT has ended (R322): in BOOT, and in the DORMANT that a power-on enters, it has not. -/
def Mach.booted (m : Mach) : Bool := decide (3 ≤ m.sys.mode) || (decide (m.sys.mode = 1) && decide (m.fld F.SYS_STATUS_PREV_MODE ≠ 0))

/-- The seconds that pass with the module's time: uptime, histories and the counters in seconds. -/
def Mach.second (m : Mach) : Mach :=
  let m := m.updSys (fun s => { s with seconds := s.seconds + 1 })
  let m := if m.booted then
      m.mapLanes (fun x => { x with regs := x.regs.put F.SYS_UPTIME_SECONDS (satAt 32 (x.regs.fld F.SYS_UPTIME_SECONDS + 1)) })
    else m
  let m := m.refreshHistory
  let m := if m.fld F.FED_NETS_SINGLE = 1 then
      m.putAll F.FED_SINGLE_ELAPSED_SECONDS (m.fld F.FED_SINGLE_ELAPSED_SECONDS + 1) else m
  let m := m.holdRegs
  let m := if m.sys.mode = 8 ∧ m.fld F.RED_PAIR_STATUS_FIT = 1 then
      m.putAll F.RED_PAIR_STATUS_HOLD_ELAPSED (satAt 16 (m.fld F.RED_PAIR_STATUS_HOLD_ELAPSED + 1)) else m
  let m := m.probationSecond.storeSettings
  ({ m with sc := { m.sc with rate := 0 } }).putSc F.EVR_RATE_RECORDS m.sc.rate

/-- The first counter value at which a lane's module time reaches `ns` (R242), from CREF on. -/
def Time.markAt (t : Time) (ns : Nat) : Nat := t.cref + ceilDiv ((ns - t.base) * 2 ^ 32) t.rate

/-- Every lane's counter has reached lane mark `k` (R242); it never goes back (R238). -/
def Mach.reachMark (m : Mach) (k : Nat) : Mach :=
  m.mapLanes (fun x => { x with time := { x.time with count := max x.time.count (x.time.markAt (x.time.origin + k * 250000)) } })

/-- The counters go on by a number of ticks (R238). -/
def Mach.countTicks (m : Mach) (n : Nat) : Mach :=
  m.mapLanes (fun x => { x with time := { x.time with count := (x.time.count + n) % 2 ^ 64 } })

/-- The holdover timer goes on by `us` µs. -/
def Mach.holdOn (m : Mach) (us : Nat) : Mach := { m with fed := { m.fed with holdUs := m.fed.holdUs + us } }

/-- A mark, and 250 µs of time (assumption 33): a step that waits (R241), the holdover timer, the degraded limit and the seconds; Sprout's work in UPDATE, and records that come back
into the buffer in BOOT, 400 MB/s of them (R397). -/
def Mach.tick (m : Mach) : Mach :=
  let m := (((m.takeStep.closeMark.openTime 250).holdOn 250).sproutGoes).evrCopy 3125
  let m := if m.fld F.TSU_STATUS_HOLDOVER = 1 then m.holdRegs else m
  let m := if m.confirming then m else { m with sc := { m.sc with broke := true } }
  let m := (m.updSys (fun s => { s with us := s.us + 250 })).mapLanes (Lane.degradedTick 250)
  if m.sys.us ≥ 1000000 then (m.updSys (fun s => { s with us := s.us - 1000000 })).second else m

/-! ### The express pass (R131) -/

/-- Hardware faults that ZVL's own checks found, and a pass that missed its deadline (R133). -/
def Mach.zvlChecks (m : Mach) (faults : List (LaneId × Nat × Nat)) : Mach :=
  m.vectored [.zvl] (faults.foldl (fun (m : Mach) f => m.updLane f.1 (fun x =>
    if x.loaded && x.follows then x.zvlFault m.nowNs f.2.1 f.2.2 (laneIx f.1) else x)) m)

/-- The basic cycle of the pass that runs now. -/
def Mach.nextBasic (m : Mach) : Nat := if m.sys.boundary then m.sys.bc else (m.sys.bc + 1) % 16

/-- ZVL's pass in every lane that runs, in the modes that have its slots (R18, R295), with the faults its checks found. -/
def Mach.zvlPass (m : Mach) (i : PassInput) : Mach :=
  if !modePasses m.sys.mode then m
  else
    let m := (m.passSlot i.passUs.toNat).mapFollow (fun x => x.expressPass i.passUs.toNat)
    m.zvlChecks (i.zvlFaults ++ (if 40 < i.passUs.toNat then m.followers.map (fun l => (l, 5, 0)) else []))

/-- While a reset is under way the gate substitutes every command (R309). -/
def Mach.gateReset (m : Mach) : Mach :=
  if m.sys.rst.isNone then m else m.mapFollow (fun x => { x with zvl := { x.zvl with gating := true } })

/-- RTE.CYCLE of a basic cycle. -/
def Mach.cycleRegs (m : Mach) (bc : Nat) : Mach :=
  m.mapLanes (fun x => { x with regs := ((x.regs.put F.RTE_CYCLE_BASIC bc).put F.RTE_CYCLE_PHASE
    (if bc = 0 then 0 else if bc ≤ 12 then 2 else if bc = 13 then 3 else 4)) })

/-- IMAGE_SCAN_START (R147): an unscheduled slot (R18); a scan that runs on engine 0 gives way to it, paused (R365). -/
def Mach.startImageScan (m : Mach) : Mach :=
  m.followers.foldl (fun (m : Mach) l => (m.wakeLane l).updLane l (fun x =>
    { x with
      scanned := true
      regs := if x.regs.fld (F.CRC_SCANm_STATUS_STATE 0) = 1
        then (x.regs.put (F.CRC_SCANm_STATUS_STATE 0) 2).put (F.CRC_SCANm_CTRL_PAUSE 0) 1 else x.regs })) m

/-- A basic cycle of the powered module: marks, latch, the DIO words, ZVL's pass and the build of the next commands. -/
def Mach.basicCycle (m : Mach) (i : PassInput) : Mach :=
  let bc := m.sys.bc
  let m := ((((m.sendStaged).tick).markAlign i).latch i).dioMark
  let m := ((m.zvlPass i).gateReset).cycleRegs bc
  let m := if bc = 14 then m.startImageScan else m
  let m := if bc = 15 && m.cycling && m.gated then m.raiseAll .sdb I.SDB_GATE_LATE else m
  if bc = 14 && m.cycling then m else m.buildNext

/-- The next lane mark and what begins at it; SYS.FEEDS reports both feeds (R431). In DORMANT only the always-on domains run (R20): time
passes, and the lanes' copy of the cycle counts on. -/
def Mach.expressPass (m : Mach) (i : PassInput) : Mach :=
  let bc := m.nextBasic
  let m := (m.updSys (fun s => { s with bc := bc, boundary := false })).reachMark (m.sys.cluster * 16 + bc)
  let m := m.setAllReg F.SYS_FEEDS_FEED_A.addr i.feeds
  if m.sys.mode ≤ 1 then ((m.tick).gateReset).cycleRegs bc else m.basicCycle i

/-! ### The Press as a step, and its commit -/

/-- HANDBACK is entered at this boundary (R288 step 2). -/
def Mach.handbackDue (m : Mach) : Bool :=
  m.sys.boundary && m.paired && (decide (m.sys.mode = 6) || decide (m.sys.mode = 7)) && m.fed.ready && m.fed.partnerFit &&
  !m.sys.darnDue && (decide (m.fld F.RED_PAIR_CFG_HANDBACK_HOLD = 0) || m.fed.released)

/-- Why HANDBACK is abandoned (R288): unit 0 is unfit before H, or no FINAL applied has come by H + 64. -/
def Mach.abandonEarly (m : Mach) : Bool := !m.fed.final && !m.fed.partnerFit
def Mach.abandonLate (m : Mach) (h : Nat) : Bool := m.fed.final && !m.fed.finalApplied && decide (h + 64 ≤ m.sys.cluster)

/-- HANDBACK is abandoned at this boundary. -/
def Mach.abandonDue (m : Mach) : Bool :=
  decide (m.sys.mode = 11) && (match m.fed.handback with | some h => m.abandonEarly || m.abandonLate h | none => false)

/-- An exclusion that is enacted at this boundary moves the module (R153): out of SERVICE_3, or out of Darn for the joining lane. -/
def Mach.exclMoves (m : Mach) : Bool :=
  (decide (m.sys.mode = 6) && m.exclDue) ||
  (decide (m.sys.mode = 10) && m.sys.pendingExcl.any (fun e => decide ((m.lane e.1).role = .joining)))

/-- A transition set by a rule of another chapter is due at this boundary (R294): Darn and its end, the consequence of an exclusion, a takeover
the unit decided, HANDBACK, its end and its abandonment. -/
def Mach.chapterDue (m : Mach) : Bool :=
  m.handbackDue ||
  (m.sys.boundary && ((decide (m.sys.mode = 7) && m.sys.darnDue) || (decide (m.sys.mode = 10) && decide (256 ≤ m.sys.probRun)) ||
    (decide (m.sys.mode = 8) && (match m.fed.decided with | some (t, k) => decide (k ≠ 3) && decide (t ≤ m.sys.cluster) | none => false)) ||
    (decide (m.sys.mode = 11) && m.fed.final && m.fed.finalApplied && decide (1 ≤ m.healthAge)) || m.abandonDue || m.exclMoves))

/-- The mode in which the module serves after TAKEOVER or HANDBACK. -/
def Mach.toService (m : Mach) (p2 : Nat) : Mach :=
  if 3 ≤ m.serving.length then m.setMode 6 p2
  else
    let m := if m.fld F.RED_STATUS_DEGRADED = 1 then m else m.startDegraded
    ((m.setMode 7 p2).raiseAll .red I.RED_DEGRADED).replaceAgain

/-- TAKEOVER_END (R287): at the Press, every node of the Seedbank is back, or the limit is reached. -/
def Mach.takeoverEnd (m : Mach) : Mach :=
  let n := m.leadLane.rte.frozen
  if m.sys.mode = 9 ∧ ((m.fed.takeComm.all (fun a => decide ((Store.get NodeComm.absent n.node a).state = 0))) ∨
      m.fed.takeoverAt + m.fld F.RED_PAIR_LIMIT_TAKEOVER_LIMIT ≤ m.sys.cluster)
  then m.toService 0 else m

/-- PROVING_END (R71). -/
def Mach.provingEnd (m : Mach) : Mach :=
  match m.leadLane.rte.press with
  | some p => if m.sys.mode = 5 ∧ outstanding p.si = 0 then m.setMode 6 0 else m
  | none => m

/-- A result that joins the outcome of a staged Press, at its place in REQ_SEQ order. -/
def PressOut.addEnd (p : PressOut) (cluster : Nat) (q : Req) (outcome reason : Nat) : PressOut :=
  let r := endResult cluster (q, outcome, reason)
  let older := p.results.filter (fun e => newer 32 q.seq e.seq)
  let later := p.results.filter (fun e => !newer 32 q.seq e.seq)
  { p with results := older ++ r :: later, queue := p.queue.filter (fun e => decide (e.seq ≠ q.seq)) }

end Sys2Proof.Machine
end

