-- ==== Sys2Proof/Machine/HostOps.lean ====
section
/-!
DEFINITION. Machine/HostOps.lean: the two phases of a command write (R76, R349) with its completion slots (R350), the
acceptance of requests (R76 to R79, R83) and the mailboxes' result queues (R73, R81).
-/
namespace Sys2Proof.Machine

/-! ### The two phases of R76 -/

/-- The lanes that take part in a command write (R152, R304, R349): serving lanes that are not isolated for BIST; none in OFF and
DORMANT, where only the always-on domains live. -/
def Mach.participants (m : Mach) : List LaneId := if m.sys.mode ≤ 1 then [] else m.voters

/-- A lane that commits what the others accept, without its answer being counted: the joining lane from the snapshot's Press
on (R159 step 6). -/
def Mach.commits (m : Mach) (l : LaneId) : Bool :=
  m.participants.contains l || (decide ((m.lane l).role = .joining) &&
    (decide (7 ≤ m.fld F.RED_DARN_STATUS_STEP) || m.snapTaken))

/-- A lane gave no answer within 8 µs. -/
def isSilent (silent : BitVec 3) (l : LaneId) : Bool := bitOf silent.toNat (laneIx l)

/-- A lane whose answer does not come: silent, or its host link is down (R13, R31). -/
def Mach.mute (m : Mach) (silent : BitVec 3) (l : LaneId) : Bool := isSilent silent l || !(m.lane l).hostLink

/-- The status of a command write from the lanes' answers: 5 with no lane, 6 where one is silent or they differ. -/
def Mach.verdict (m : Mach) (answer : LaneId → Nat) (silent : BitVec 3) : Nat :=
  match m.participants with
  | [] => 5
  | l :: t => if (l :: t).any (m.mute silent) || t.any (fun k => decide (answer k ≠ answer l)) then 6 else answer l

/-- LANES of the answer: lanes that answered ACCEPTED. -/
def Mach.acceptors (m : Mach) (answer : LaneId → Nat) (silent : BitVec 3) : Nat :=
  laneSet (fun l => m.participants.contains l && !m.mute silent l && decide (answer l = 1))

def noDone : Nat → W64 := fun _ => 0

/-- The completion slots: 0 to 7 the mailboxes, 8 HBR.MODE_REQ, 9 to 16 the windows (R350). -/
def slotIx : CompSlot → Nat
  | .mbxDone n => n.val
  | .modeDone => 8
  | .winDone n => 9 + n.val

/-- A command write ends: its slot, its completion, HBR.CMD_STATS and the interrupt (R349, R350, R357). -/
def Mach.complete (m : Mach) (slot : Nat) (v : Nat) (accepted : Bool) : Mach :=
  let m : Mach := { m with sc := { m.sc with done := Store.set noDone m.sc.done slot (BitVec.ofNat 64 v) } }
  let m := m.emit (.completion v)
  if accepted then m.incSc F.HBR_CMD_STATS_ACCEPTED else (m.incSc F.HBR_CMD_STATS_REFUSED).raiseSc .hbr I.HBR_CMD_REFUSED

/-! ### Requests (R76 to R79, R83) -/

/-- The modes in which a request of a TYPE is accepted (R83). -/
def rqMode (k t : Nat) : Bool :=
  k == 5 || k == 6 || k == 7 || k == 10 || k == 11 || (k == 9 && isRestriction t)

/-- Entries of the route part of a queue (R79). -/
def Lane.routePart (x : Lane) : Nat := (x.rte.queue.filter (fun q => isRouteWork (rqType q.word))).length

/-- A lane's answer to a request: 5 MODE, 3 MALFORMED, 2 FULL or 1 ACCEPTED. -/
def Lane.answer (x : Lane) (mode : Nat) (w : W64) : Nat :=
  if !rqMode mode (rqType w) then 5
  else if rqMalformed x.img w then 3
  else if isRouteWork (rqType w) && decide (65536 ≤ x.routePart) then 2
  else 1

/-- The areas of a mailbox's authority (R73). -/
def Mach.areas (m : Mach) (mb : Nat) : Nat :=
  m.sc.regs.fld (F.MBX_AREA_LOn_AREAS mb) + m.sc.regs.fld (F.MBX_AREA_HIn_AREAS mb) * 2 ^ 32

/-- A request as it enters a queue. -/
def Req.fresh (w : W64) (seq mb : Nat) : Req := ⟨w, seq, mb, false, 0, false, 0, false, 0⟩

/-- A lane commits a request: the queue, also that which a Press under way leaves, and for a restriction ZVL at once (R78). -/
def Lane.accept (x : Lane) (w : W64) (seq mb : Nat) : Lane :=
  let r := Req.fresh w seq mb
  let y := { x with rte := { x.rte with queue := x.rte.queue ++ [r],
                                        press := x.rte.press.map (fun (p : PressOut) => { p with queue := p.queue ++ [r] }) } }
  let y := if isRestriction (rqType w) then { y with zvl := { y.zvl with wait := y.zvl.wait ++ [(seq, w)] } } else y
  y.queueRegs

/-- The sequence number after one (R79): modulo 2^32, and 0 is skipped. -/
def nextReqSeq (s : Nat) : Nat := if 0xFFFFFFFF ≤ s then 1 else s + 1

/-- The status of a request: authority first, but for what the lanes refuse as malformed (R77). -/
def Mach.requestStatus (m : Mach) (mb : Nat) (w : W64) (silent : BitVec 3) : Nat :=
  let i := m.leadLane.img
  if m.participants = [] then 5
  else if m.leadLane.loaded && !rqMalformed i w && !rqAuthority i w (m.areas mb) then 4
  else m.verdict (fun l => (m.lane l).answer m.sys.mode w) silent

/-- The lanes commit a request under the next REQ_SEQ. -/
def Mach.commitRequest (m : Mach) (mb : Nat) (w : W64) : Mach :=
  let seq := m.nextSeq
  let m1 := laneIds.foldl (fun (n : Mach) l => if m.commits l then n.updLane l (fun x => x.accept w seq mb) else n) m
  m.vectored [.rte] { m1 with nextSeq := nextReqSeq seq, lastSeq := seq }

/-- A request written to a mailbox, answered by its acceptance word (R76). -/
def Mach.request (m : Mach) (mb : Nat) (w : W64) (silent : BitVec 3) : Mach :=
  let st := m.requestStatus mb w silent
  let ls := if st = 4 then 0 else m.acceptors (fun l => (m.lane l).answer m.sys.mode w) silent
  let tag := rqTag w
  let m := m.wakeLanes m.participants
  if st = 1 then (m.commitRequest mb w).complete mb (acceptWord m.nextSeq 1 ls tag).toNat true
  else
    let m := if st = 6 then
        ((m.incAllReg (blkBase .rte + 0x20)).raiseAll .rte I.RTE_INTAKE_DIVERGED).record 0x2002 mb (w.toNat / 2 ^ 32)
          (w.toNat % 2 ^ 32) ls
      else if st = 2 then m.raiseAll .rte I.RTE_QUEUE_FULL else m
    m.complete mb (acceptWord 0 st ls tag).toNat false

/-! ### Result queues (R73, R81) -/

def noResult : Nat → List W64 := fun _ => []

/-- MBX.RESULT_HIn, RESULT_LOn and RESULT_COUNTn as the queue stands; OVERFLOW returns to 0 when it is empty. -/
def Mach.resultRegs (m : Mach) (mb : Nat) : Mach :=
  let q := Store.get noResult m.sc.results mb
  let v := (q.headD 0).toNat
  let m := (m.putSc (F.MBX_RESULT_HIn_RESULT_HI mb) (v / 2 ^ 32)).putSc (F.MBX_RESULT_LOn_RESULT_LO mb) v
  let m := m.putSc (F.MBX_RESULT_COUNTn_COUNT mb) q.length
  if q.isEmpty then m.putSc (F.MBX_RESULT_COUNTn_OVERFLOW mb) 0 else m

/-- A result enters a mailbox's queue: into an empty one with the vector, into a full one not at all. -/
def Mach.placeResult (m : Mach) (mb : Nat) (w : W64) : Mach :=
  let q := Store.get noResult m.sc.results mb
  if 1024 ≤ q.length then m.putSc (F.MBX_RESULT_COUNTn_OVERFLOW mb) 1
  else
    let m : Mach := { m with sc := { m.sc with results := Store.set noResult m.sc.results mb (q ++ [w]) } }
    let m := m.resultRegs mb
    if q.isEmpty then m.sendVector (mb + 1) else m

/-- The first result that two lanes have reported identically. -/
def twiceReported : List (LaneId × Result) → Option Result
  | [] => none
  | e :: t => if t.any (fun f => decide (f.1 ≠ e.1) && decide (f.2 = e.2)) then some e.2 else twiceReported t

/-- RESULT_PLACED: the first result reported by two lanes; further reports of it are spent with it. -/
def Mach.resultPlaced (m : Mach) : Mach :=
  match twiceReported m.sc.reported with
  | none => m
  | some r =>
    ({ m with sc := { m.sc with reported := m.sc.reported.filter (fun e => decide (e.2 ≠ r)) } }).placeResult r.mbx r.word

/-- RESULT_LO_READ: the oldest result, removed. -/
def Mach.resultRead (m : Mach) (mb : Nat) : Mach :=
  let q := Store.get noResult m.sc.results mb
  let v := (q.headD 0).toNat % 2 ^ 32
  let m : Mach := { m with sc := { m.sc with results := Store.set noResult m.sc.results mb q.tail } }
  (m.resultRegs mb).emit (.completion v)

/-! ### Accesses that fail (R349, R352, R353, R357, R440) -/

/-- An access that fails: counted with its cause, BAR and offset, and the interrupt raised. A read of `len` bytes returns 0xFF in every
byte. -/
def Mach.failedAccess (m : Mach) (read : Option Nat) (bar2 : Bool) (offset cause : Nat) : Mach :=
  match read with
  | some len =>
    let m := (((m.incSc F.HBR_RD_ERR_COUNT).putSc F.HBR_RD_ERR_CAUSE cause).putSc F.HBR_RD_ERR_BAR2 (b2n bar2)).putSc
      F.HBR_RD_ERR_ADDR_OFFSET offset
    (m.raiseSc .hbr I.HBR_RD_ERR).emit (.readData (List.replicate len 0xFF))
  | none =>
    let m := (((m.incSc F.HBR_WR_ERR_COUNT).putSc F.HBR_WR_ERR_CAUSE cause).putSc F.HBR_WR_ERR_BAR2 (b2n bar2)).putSc
      F.HBR_WR_ERR_ADDR_OFFSET offset
    m.raiseSc .hbr I.HBR_WR_ERR

/-- An access that the HBR ignores (R357). -/
def Mach.hbrIgnored (m : Mach) (offset : Nat) : Mach := m.errAt .hbr offset

/-- An access that the HBR completes as Unsupported Request and counts (R349, R357). -/
def Mach.unsupported (m : Mach) (offset : Nat) : Mach := (m.hbrIgnored offset).emit .unsupported

/-- A read of BAR0 that touches an MBX.RESULT_LOn, whose read has a side effect, and is longer than one aligned 4-byte read
(R73, R353). -/
def sideRead (off len : Nat) : Bool :=
  decide (off / 4 ≠ (off + len - 1) / 4) &&
  (List.range 8).any (fun n => decide (off < 0x3058 + 0x20 * n) && decide (0x3054 + 0x20 * n < off + len))

/-- PREFETCH_REFUSED (R353): 0xFF in every byte, and nothing removed. -/
def Mach.prefetchRefused (m : Mach) (offset len : Nat) : Mach :=
  (((m.incSc F.HBR_PREFETCH_REFUSED_COUNT).putSc F.HBR_PREFETCH_REFUSED_OFFSET offset).raiseSc .hbr I.HBR_PREFETCH).emit
    (.readData (List.replicate len 0xFF))

/-- The link has trained: HBR.STATUS shows it up, and HBR.LINK shows the width and the speed, which the host's side decides: free values (R357, assumption 79). -/
def Mach.linkTrained (m : Mach) : Mach :=
  let f := m.fresh
  let g := f.2.fresh
  let w := (Config.freeWord f.1).toNat % 3
  let m := { g.2 with sc := { g.2.sc with linkUp := true } }
  ((m.putSc F.HBR_STATUS_LINK_UP 1).putSc F.HBR_LINK_WIDTH (if w = 2 then 4 else w + 1)).putSc F.HBR_LINK_SPEED
    ((Config.freeWord g.1).toNat % 3 + 1)

/-- PCIE_LINK_DOWN (R357): the link goes down and trains again; while PERST# is asserted there is no link. -/
def Mach.hostLinkDown (m : Mach) : Mach :=
  if m.sc.perst.isSome then m else ((m.incSc F.HBR_LINK_DOWN_COUNT).raiseSc .hbr I.HBR_LINK).linkTrained

end Sys2Proof.Machine
end

