-- ==== Sys2Proof/Machine/PortOps.lean ====
section
/-!
DEFINITION. Machine/PortOps.lean: the Thawen ports (chapters 6 and 7): frames read and checked (R168 to R172), the star
guardian, cuts and quarantine (R220 to R224), communication states (R195), the beacon with its grants and join index
(R183, R198), command frames (R184, R217), schedule switches (R201 to R205), and rings that split and heal (R226 to R229).
-/
namespace Sys2Proof.Machine

/-! ### Ports and nodes -/

def Mach.port (m : Mach) (p : Nat) : Port := Store.get Port.init m.ph.ports p
def Mach.updPort (m : Mach) (p : Nat) (f : Port → Port) : Mach :=
  { m with ph := { m.ph with ports := Store.upd Port.init m.ph.ports p f } }
def Mach.node (m : Mach) (a : Nat) : Node := Store.get Node.init m.ph.nodes a
def Mach.updNode (m : Mach) (a : Nat) (f : Node → Node) : Mach :=
  { m with ph := { m.ph with nodes := Store.upd Node.init m.ph.nodes a f } }

/-- R443 with R278: a unit of a pair that is powered and not active forwards on a port that it does not run. -/
def Mach.forwards (m : Mach) (p : Nat) : Bool :=
  m.paired && decide (2 ≤ m.sys.mode) && !m.sys.active && !m.hubTested && !(m.port p).running

/-- A frame on a port that only forwards goes out on the port's other link (R278, R443). -/
def Mach.forward (m : Mach) (p : Nat) (link : Link) (bytes : List Byte) : Mach :=
  m.emit (.frame p (decide (link = .west)) (decide (link = .east)) bytes)

/-- Change the nodes of a port. -/
def Mach.mapPortNodes (m : Mach) (p : Nat) (f : Node → Node) : Mach :=
  { m with ph := { m.ph with nodes := m.ph.nodes.map (fun (e : Nat × Node) => if nodePort e.1 = p then (e.1, f e.2) else e) } }

/-- A wrapping counter of the Port Hub. -/
def Mach.wrapPh (m : Mach) (f : Field) : Mach := { m with ph := { m.ph with regs := m.ph.regs.addWrap f 1 } }

def Mach.setPhRegs (m : Mach) (r : Regs) : Mach := { m with ph := { m.ph with regs := r } }

/-- The communication state of a node, as the lanes keep it. -/
def Mach.comm (m : Mach) (a : Nat) : NodeComm := Store.get NodeComm.absent m.leadLane.live.node a

/-- A presentation reaches the lanes for which `p` holds. -/
def Mach.updComm (m : Mach) (p : LaneId → Bool) (a : Nat) (f : NodeComm → NodeComm) : Mach :=
  laneIds.foldl (fun (m : Mach) l => if p l then m.updLane l (fun x =>
    { x with live := { x.live with node := Store.upd NodeComm.absent x.live.node a f } }) else m) m

def everyLane : LaneId → Bool := fun _ => true

def Mach.portImg (m : Mach) : Img := m.leadLane.img

/-- A node that counts as joined: IN_COMM or LOST. -/
def NodeComm.joined (c : NodeComm) : Bool := c.state = 0 || c.state = 1

def Mach.nodesOf (m : Mach) (p : Nat) : List Nat := sortBy id (m.portImg.nodeIdxs p)

/-- Bits of the bitmap registers: index k stands at bit k − 1. -/
def Mach.nodeBits (m : Mach) (p : Nat) (f : Nat → Bool) : Nat :=
  let ns := m.nodesOf p
  bitmap 64 (fun k => ns.contains (k + 1) && f (nodeAddr p (k + 1)))

/-- The registers of a port and of STG and PHB that mirror what the Port Hub holds. -/
def Mach.portRegs (m : Mach) (p : Nat) : Mach :=
  let q := m.port p
  let i := m.portImg
  let joined := m.nodeBits p (fun a => (m.comm a).joined)
  let lost := m.nodeBits p (fun a => decide ((m.comm a).state ≠ 0) && decide ((m.comm a).state ≠ 2))
  let sel := nodeAddr p (m.ph.regs.fld (F.TTP_NODE_SEL_NODE p))
  let c := if (m.nodesOf p).contains (nodeIndex sel) then m.comm sel else ⟨0, 0, 0, 0, 0⟩
  let r := ((((m.ph.regs.put (F.TTP_STATUS_RUNNING p) (b2n q.running)).put (F.TTP_STATUS_COMMANDING p)
    (b2n q.commanding)).put (F.TTP_STATUS_EAST_UP p) (b2n q.eastUp)).put (F.TTP_STATUS_WEST_UP p) (b2n q.westUp)).put
    (F.TTP_STATUS_ANNOUNCING p) (b2n q.announcing)
  let r := (((r.put (F.TTP_JOINED_LO_NODES p) joined).put (F.TTP_JOINED_HI_NODES p) (joined / 2 ^ 32)).put
    (F.TTP_LOST_LO_NODES p) lost).put (F.TTP_LOST_HI_NODES p) (lost / 2 ^ 32)
  let r := ((((r.put (F.TTP_NODE_STATUS_STATE p) c.state).put (F.TTP_NODE_STATUS_LOST_COUNT p) c.lost).put
    (F.TTP_NODE_STATUS_RESTORE p) c.restore).put (F.TTP_NODE_STATUS_NODE_STATE p) c.nodeState).put
    (F.TTP_NODE_STATUS_JOIN_RESULT p) (m.node sel).result
  let r := r.put (F.TTP_SCHED_ACTIVE p) q.sched
  let all := (List.range 16).map m.port
  let set := fun (f : Port → Bool) => bitmap 16 (fun k => f (all.getD k (Port.init k)))
  let r := ((r.put F.PHB_PORTS_RUNNING (set (·.running))).put F.PHB_PORTS_COMMANDING (set (·.commanding))).put
    F.PHB_STATUS_RUNNING (b2n (decide (set (·.running) ≠ 0)))
  let r := (r.put F.PHB_LINKS_EAST_UP (bitmap 16 (fun k => (m.port k).eastUp))).put F.PHB_LINKS_WEST_UP
    (bitmap 16 (fun k => (m.port k).westUp))
  let r := ((r.put F.STG_RING_SPLIT (set (·.split))).put F.STG_RING_HEALING (set (·.healing))).put F.STG_STATUS_SPLIT
    (b2n (decide (set (·.split) ≠ 0)))
  let s := r.fld F.STG_SEL_PORT
  let quar := m.nodeBits s (fun a => (m.node a).quarantined)
  let west := m.nodeBits s (fun a => (m.node a).pollWest && decide (i.portMode s = 2))
  let r := ((((r.put F.STG_QUAR_LO_NODES quar).put F.STG_QUAR_HI_NODES (quar / 2 ^ 32)).put F.STG_POLL_WEST_LO_NODES
    west).put F.STG_POLL_WEST_HI_NODES (west / 2 ^ 32)).put F.STG_STATUS_GUARDING (b2n (decide (set (·.running) ≠ 0)))
  let r := r.put F.STG_STATUS_QUARANTINE (b2n (m.ph.nodes.any (fun e => e.2.quarantined)))
  { m with ph := { m.ph with regs := r } }

/-- The Hem of a port in force (R222). -/
def Mach.hem (m : Mach) (p : Nat) : Int := m.ph.regs.fld (F.STG_HEMn_HEM_NS p)

/-- Module time of the start of a port's present basic cycle (R174, R242). -/
def Mach.cycleStart (m : Mach) (p : Nat) : Nat := m.boundaryNs m.sys.cluster + (m.port p).bc * m.portImg.cycleNs p

/-- The port basic cycle that starts now (R174): the next of its cluster; a port starts before the first, and so does every port at
a cluster boundary. -/
def Mach.portNext (m : Mach) (p : Nat) : Nat :=
  let n := m.portImg.perCluster p
  if n ≤ (m.port p).bc + 1 then 0 else (m.port p).bc + 1

/-- At a cluster boundary the next port basic cycle of every port is its first. -/
def Mach.portsRewind (m : Mach) : Mach :=
  (m.ph.ports.map (·.1)).foldl (fun (m : Mach) p => m.updPort p (fun q => { q with bc := m.portImg.perCluster p - 1 })) m

/-- The number of the present port basic cycle of a port, counted from cluster 0. -/
def Mach.cycleNo (m : Mach) (p : Nat) : Nat := m.sys.cluster * m.portImg.perCluster p + (m.port p).bc

/-! ### Frames of the module -/

/-- A module frame on the links that R210 names: both while split, else the east link. -/
def Mach.sendFrame (m : Mach) (p : Nat) (type : Nat) (all : Bool) (dest launch : Nat) (payload : List Byte) : Mach :=
  let q := m.port p
  let i := m.portImg
  let env : HuskEnv := ⟨q.sched, q.announcing, if q.announcing then q.next else 0, if q.announcing then q.target else 0,
    q.bc, m.fld F.RED_EPOCH_EPOCH, moduleSeq m.sys.cluster (i.perCluster p) q.bc, i.imageId, launch⟩
  m.emit (.frame p true q.both (frameBytes (huskBytes env type all dest (p * 128) payload.length) payload))

/-- Queue a module frame for a grant of its own (R183). -/
def Mach.queueOwn (m : Mach) (p cls dest type : Nat) (payload : List Byte) : Mach :=
  m.updPort p (fun q => { q with own := q.own ++ [(cls, dest, type, payload)] })

/-- The LEAVE payload (R200). -/
def leavePayload (reason : Nat) : List Byte := be 1 reason ++ be 3 0

/-! ### Received frames (R168 to R172) -/

/-- The Husk of a received frame. -/
structure Husk where
  type : Nat
  sched : Nat
  basic : Nat
  all : Bool
  dest : Nat
  looped : Bool
  epoch : Nat
  source : Nat
  seq : Nat
  len : Nat
  imageId : Nat
  deriving DecidableEq, Repr

def readHusk (l : List Byte) : Husk :=
  let w := fun (k : Nat) => ofBe ((l.drop (4 * k)).take 4)
  { type := bitsOf (w 0) 31 28, sched := bitsOf (w 0) 27 25, basic := bitsOf (w 0) 16 12, all := bitOf (w 0) 11,
    dest := bitsOf (w 0) 10 0, looped := bitOf (w 1) 15, epoch := bitsOf (w 1) 31 16, source := bitsOf (w 1) 10 0,
    seq := bitsOf (w 2) 31 16, len := bitsOf (w 2) 15 0, imageId := w 3 }

/-- The frame was received whole and passes CRC-32C (R168, R220). -/
def frameWhole (l : List Byte) : Bool :=
  decide (28 ≤ l.length) && decide (l.drop (l.length - 4) = be 4 (crc32c (l.take (l.length - 4))).toNat)

def framePayload (l : List Byte) : List Byte := (l.drop 24).take (l.length - 28)

/-- LENGTH in range for a frame type a node sends; INPUT and POLL_REPLY name their own length by COUNT (R186). -/
def lengthOk (type len : Nat) (pay : List Byte) : Bool :=
  if type = 3 ∨ type = 12 then decide (14 ≤ len) && decide (len = 8 + 6 * ofBe ((pay.drop 5).take 1))
  else if type = 4 then decide (16 ≤ len) && decide (len ≤ 2032) && decide (len % 16 = 0)
  else if type = 5 ∨ type = 6 then decide (len ≤ 2048)
  else if type = 7 then decide (len = 24)
  else if type = 9 then decide (len = 4)
  else if type = 10 then decide (len = 16) && decide (ofBe (pay.take 1) = 2)
  else false

/-- The types a node may send on a port of its mode (R170, R234). -/
def typeOk (mode type : Nat) : Bool :=
  if mode = 2 then type == 12
  else type == 3 || type == 4 || type == 5 || type == 6 || type == 7 || type == 9 || type == 10

/-- Entries of an INPUT payload: object, INPUTS, DETECTED[23:0]. -/
def inputEntries : Nat → List Byte → List (Nat × Nat × Nat)
  | 0, _ => []
  | n + 1, l => (ofBe (l.take 2) % 2 ^ 14, ofBe ((l.drop 2).take 1), ofBe ((l.drop 3).take 3)) :: inputEntries n (l.drop 6)

def payloadEntries (pay : List Byte) : List (Nat × Nat × Nat) := inputEntries (ofBe ((pay.drop 5).take 1)) (pay.drop 8)

/-- An INPUT frame names every object of the node once, in order (R187). -/
def Img.entriesOk (i : Img) (a : Nat) (pay : List Byte) : Bool :=
  decide ((payloadEntries pay).map (·.1) = sortBy id (i.nodeObjects a))

/-- The discard reason of R172 for a frame that passed the guardian, `none` when every check passes. Reasons as
TTP.LAST_DISCARD: 1 CRC, 2 malformed, 3 image, 4 epoch, 5 sequence, 6 schedule. `second` is the second copy of a frame accepted in the
window that starts at `win`, which keeps its SEQUENCE (R165); the same SEQUENCE in another window is not newer. -/
def Mach.discardReason (m : Mach) (p win : Nat) (bytes : List Byte) : Option Nat :=
  let i := m.portImg
  if !frameWhole bytes then some 1
  else
    let h := readHusk bytes
    let pay := framePayload bytes
    let n := m.node h.source
    let second := n.copies.any (fun c => decide (c.win = win) && decide (c.type = h.type) && decide (c.seq = h.seq))
    if bytes.length ≠ 28 + h.len ∨ 2048 < h.len then some 2
    else if !typeOk (i.portMode p) h.type || !lengthOk h.type h.len pay then some 2
    else if decide (nodePort h.source ≠ p) || decide (nodeIndex h.source = 0) || decide (64 < nodeIndex h.source) ||
        decide (h.dest ≠ p * 128) || h.all then some 2
    else if h.imageId ≠ i.imageId then some 3
    else if h.epoch ≠ m.fld F.RED_EPOCH_EPOCH then some 4
    else if !second && (match n.seq with | some s => !newer 16 h.seq s | none => false) then some 5
    else if h.sched ≠ (m.port p).sched ∨ h.basic ≠ (m.port p).bc then some 6
    else if (h.type = 3 ∨ h.type = 12) && !i.entriesOk h.source pay then some 2
    else none

/-- Count a discarded frame (R172, R207). -/
def Mach.discard (m : Mach) (p : Nat) (link : Link) (reason : Nat) (bytes : List Byte) : Mach :=
  let h := readHusk bytes
  let f := if reason = 1 then (match link with | .east => F.TTP_RX_CRC_EAST p | .west => F.TTP_RX_CRC_WEST p)
    else if reason = 2 then F.TTP_RX_DISCARD_MALFORMED p
    else if reason = 3 then F.TTP_RX_DISCARD_IMAGE p
    else if reason = 4 then F.TTP_RX_DISCARD_EPOCH p
    else F.TTP_RX_DISCARD_SEQUENCE p
  let m := (((m.incPh f).putPh (F.TTP_LAST_DISCARD_REASON p) reason).putPh (F.TTP_LAST_DISCARD_TYPE p) h.type).putPh
    (F.TTP_LAST_DISCARD_SOURCE p) h.source
  m.raisePh (.ttp (Fin.ofNat 16 p)) I.TTP_DISCARD

/-! ### The guardian (R220 to R224) -/

/-- A node window open in a port basic cycle: the index it belongs to, START and LENGTH, and whether it is a join window. -/
structure Open where
  owner : Nat
  start : Nat
  len : Nat
  kind : Nat
  deriving DecidableEq, Repr

/-- The node windows and grants of the present port basic cycle of a matrix port. -/
def Mach.openWindows (m : Mach) (p : Nat) : List Open :=
  let q := m.port p
  ((m.portImg.windowsIn p q.sched q.bc).filterMap (fun w =>
    if w.kind = 3 then some (⟨w.node, w.start, w.len, 3⟩ : Open)
    else if w.kind = 5 ∧ q.joinIndex ≠ 0 ∧ w.start = q.joinStart then some ⟨q.joinIndex, w.start, w.len, 5⟩ else none)) ++
  (q.grants.filter (fun g => decide (g.node ≠ 0))).map (fun g => (⟨g.node, g.start, g.len, 4⟩ : Open))

/-- The reply window of a poll-mode node, as a window whose START is the middle of nothing: from and to in ns (R235). -/
def Mach.replyWindow (m : Mach) (p idx : Nat) : Option (Int × Int × Int) :=
  (m.portImg.winOf p 0 6 idx).map (fun w =>
    let e : Int := 8 * (w.start + w.len)
    let hi := e + 2100 + 2 * (m.portImg.ringMax p * 1000) + m.hem p
    (e + 1900 - m.hem p, hi, hi + 8 * w.reply))

/-- A copy's instant, or its overlap, lies in a window's range of R220. -/
def Open.meets (w : Open) (hem : Int) (rx : RxFrame) : Bool :=
  decide (8 * (w.start : Int) - hem ≤ rx.last) && decide (rx.first ≤ 8 * ((w.start + w.len : Nat) : Int) + hem)

/-- What stands for the window of a copy that lies in none: the first window it overlaps, else its SEQUENCE, beyond every START, so
that the two copies of one frame are charged once (R221, assumption 111). -/
def strayKey (ws : List Open) (hem : Int) (rx : RxFrame) : Nat :=
  match ws.find? (fun w => w.meets hem rx) with
  | some w => w.start
  | none => 65536 + (readHusk rx.bytes).seq

/-- The guardian's judgement of a copy on a matrix port: the cut reason of R220 (0 accepted), the START of the window it came in, which
a cut charges, and the start error. A copy in no window's range has reason 4. A whole copy in the range of another's window is
early or late while it still overlaps a window of its SOURCE, and in the wrong window otherwise. -/
def Mach.judge (m : Mach) (p : Nat) (rx : RxFrame) : Nat × Nat × Int :=
  let hem := m.hem p
  let ws := m.openWindows p
  let h := readHusk rx.bytes
  let at' := fun (w : Open) => rx.first - 8 * (w.start : Int)
  let inside := fun (w : Open) => decide ((at' w).natAbs ≤ hem.toNat)
  let past := fun (w : Open) => decide (8 * ((w.start + w.len : Nat) : Int) + hem < rx.last)
  let own := if frameWhole rx.bytes then
      ws.filter (fun w => decide (w.owner = nodeIndex h.source) && decide (nodePort h.source = p))
    else ws
  let near := ((own.find? (fun w => w.meets hem rx)).or own.head?).or (ws.find? inside)
  let err := match near with | some w => at' w | none => 0
  match own.find? inside with
  | some w => (if past w then 3 else 0, w.start, at' w)
  | none =>
    match ws.find? inside with
    | none => (4, strayKey ws hem rx, err)
    | some w =>
      match own.find? (fun o => o.meets hem rx) with
      | some o => (if at' o < -hem then 1 else 2, w.start, at' o)
      | none => (4, w.start, err)

/-- A copy lies in the reply window of a node, or overlaps it. -/
def Mach.replyFits (m : Mach) (p : Nat) (rx : RxFrame) (k : Nat) : Bool :=
  match m.replyWindow p k with
  | some (lo, hi, limit) => decide (lo ≤ rx.first) && decide (rx.first ≤ hi) && decide (rx.last ≤ limit)
  | none => false

def Mach.replyMeets (m : Mach) (p : Nat) (rx : RxFrame) (k : Nat) : Bool :=
  match m.replyWindow p k with
  | some (lo, _, limit) => decide (lo ≤ rx.last) && decide (rx.first ≤ limit)
  | none => false

/-- START of the poll window of a node. -/
def Mach.pollStart (m : Mach) (p k : Nat) : Nat := match m.portImg.winOf p 0 6 k with | some w => w.start | none => 0

/-- The reply window that a cut charges (R221), by the START of its poll window: the one the copy lies in, else one it overlaps, SOURCE's
own first; a copy in none is kept apart by its SEQUENCE (assumption 111). -/
def Mach.replyKey (m : Mach) (p : Nat) (rx : RxFrame) : Nat :=
  let h := readHusk rx.bytes
  let own := if nodePort h.source = p then [nodeIndex h.source] else []
  let ks := own ++ m.nodesOf p
  match (ks.find? (m.replyFits p rx)).or (ks.find? (m.replyMeets p rx)) with
  | some k => m.pollStart p k
  | none => 65536 + h.seq

/-- The guardian's judgement of a reply copy (R235): the polled node is SOURCE where the copy is whole, and otherwise the node
whose reply window the copy lies in, so that a CRC failure there is a discard and no cut (R221). -/
def Mach.judgeReply (m : Mach) (p : Nat) (rx : RxFrame) : Nat × Nat × Int :=
  let h := readHusk rx.bytes
  let ok := if frameWhole rx.bytes then decide (nodePort h.source = p) && m.replyFits p rx (nodeIndex h.source)
    else (m.nodesOf p).any (m.replyFits p rx)
  (if ok then 0 else 5, m.replyKey p rx, 0)

/-- A node becomes ABSENT, in the lanes whose own state calls for it: its history of charged cuts is emptied (R223). Its last SEQUENCE stands until it is admitted again
(R171). -/
def Mach.setAbsentIf (m : Mach) (due : NodeComm → Bool) (a : Nat) : Mach :=
  let was := decide ((m.comm a).state = 2)
  let m := m.updNode a (fun n => { n with cuts := [], leaving := false, quarantined := false, held := false, entry := none,
                                          event := 0, diag := 0, maint := 0, ack := false })
  let m := m.updComm everyLane a (fun c => if due c then { c with state := 2, lost := 0, restore := 0 } else c)
  (if was then m else m.raisePh (.ttp (Fin.ofNat 16 (nodePort a))) I.TTP_NODE_LEFT).portRegs (nodePort a)

def Mach.setAbsent (m : Mach) (a : Nat) : Mach := m.setAbsentIf (fun _ => true) a

/-- QUARANTINE (R223) by a cut in the window that starts at `start`; the lanes learn of it by the marker of the node's next
presentation. -/
def Mach.quarantine (m : Mach) (a start : Nat) : Mach :=
  let n := m.node a
  let rs := (n.cuts.take 3).map (·.2)
  let k := n.quars + 1
  let m := m.updNode a (fun n => { n with cuts := [], quars := k, quarAt := m.sys.cluster, quarantined := true,
                                          held := decide (3 ≤ k), quarWin := some start, leaving := false })
  let m := m.queueOwn (nodePort a) 4 a 9 (leavePayload 3)
  let m := m.record 0x4002 a (rs.getD 2 0 * 256 + rs.getD 1 0 * 16 + rs.getD 0 0) k 0
  (m.raisePh .stg I.STG_QUARANTINE).portRegs (nodePort a)

/-- Charge a cut to a node (R221), and quarantine it at its third within 15 clusters while it is IN_COMM or LOST (R223). What
R224 names is not charged. -/
def Mach.chargeCut (m : Mach) (p a start reason : Nat) (join : Bool) : Mach :=
  let n := m.node a
  if join || n.quarantined || decide ((m.port p).sinceChange ≤ 16) || n.charged.contains start then m
  else
    let cuts := ((m.sys.cluster, reason) :: n.cuts).take 3
    let m := m.updNode a (fun n => { n with cuts := cuts, charged := start :: n.charged })
    let m := m.raisePh .stg I.STG_CUT
    if (m.comm a).joined && decide (cuts.length = 3) && decide (m.sys.cluster ≤ (cuts.getD 2 (0, 0)).1 + 15) then
      m.quarantine a start else m

/-- A copy came in a join window of the present port basic cycle, named or not (R224): SOURCE's own window it meets, if any, is
one, or it meets one and no window of SOURCE. -/
def Mach.inJoin (m : Mach) (p : Nat) (rx : RxFrame) : Bool :=
  let hem := m.hem p
  let q := m.port p
  let h := readHusk rx.bytes
  let own := (m.openWindows p).filter (fun w => decide (w.owner = nodeIndex h.source) && w.meets hem rx)
  match own with
  | w :: _ => decide (w.kind = 5)
  | [] => (m.portImg.windowsIn p q.sched q.bc).any (fun (w : Win) => decide (w.kind = 5) &&
      (⟨0, w.start, w.len, 5⟩ : Open).meets hem rx)

/-- A copy is cut (R220, R221): charged to SOURCE, whatever it names, where the copy is whole, and unattributed otherwise. -/
def Mach.cut (m : Mach) (p : Nat) (rx : RxFrame) (reason start : Nat) (err : Int) : Mach :=
  let h := readHusk rx.bytes
  let known := frameWhole rx.bytes
  let m := ((((m.incPh F.STG_CUTS_CUTS).putPh F.STG_LAST_CUT_REASON reason).putPh F.STG_LAST_CUT_PORT p).putPh
    F.STG_LAST_CUT_UNATTRIBUTED (b2n (!known))).putPh F.STG_LAST_CUT_NODE (if known then h.source else 0)
  let m := m.putPh F.STG_LAST_CUT_ERR_ERR_NS (wrapSigned 32 err)
  if !known then (m.incPh F.STG_UNATTRIBUTED_COUNT).raisePh .stg I.STG_UNATTRIBUTED
  else m.chargeCut p h.source start reason (decide (m.portImg.portMode p ≠ 2) && m.inJoin p rx)

/-- The start error of an accepted copy (R222) and STG.WORST_ERR's bookkeeping. -/
def Mach.noteError (m : Mach) (idx : Nat) (err : Int) : Mach :=
  let m := if 250 < err.natAbs then m.incPh F.STG_CUTS_OFF_EDGE else m
  match m.ph.worst with
  | some (e, _) => if e.natAbs < err.natAbs then { m with ph := { m.ph with worst := some (err, idx) } } else m
  | none => { m with ph := { m.ph with worst := some (err, idx) } }

/-- R217: the start error of an INPUT frame against its node's input window: on the east receiver while the ring is intact; while
it is split, of the first copy that arrives, since a node's frames reach the module on the link whose beacons reach the node. -/
def Mach.measure (m : Mach) (p : Nat) (link : Link) (rx : RxFrame) : Mach :=
  let h := readHusk rx.bytes
  let q := m.port p
  let now := m.cycleNo p
  let done := (m.node h.source).correction.any (fun c => decide (c.2 = now))
  match (m.portImg.windowsIn p q.sched q.bc).find? (fun (w : Win) => decide (w.kind = 3) && decide (w.node = nodeIndex h.source)) with
  | some w =>
    if frameWhole rx.bytes && decide (h.type = 3) && decide (nodePort h.source = p) &&
        (if q.both then !done else decide (link = .east)) then
      m.updNode h.source (fun n => { n with correction :=
        ((max (-32767) (min 32767 (rx.first - 8 * (w.start : Int))), now) :: n.correction.filter (fun c => decide (c.2 ≠ now))).take 2 })
    else m
  | none => m

/-- The guardian's judgement of a copy: of a reply on a poll-mode port (R235), of a matrix port's windows elsewhere (R220): the
reason of a cut or 0, the window's START, and the start error. -/
def Mach.guardian (m : Mach) (p : Nat) (rx : RxFrame) : Nat × Nat × Int :=
  if decide (m.portImg.portMode p = 2) then m.judgeReply p rx else m.judge p rx

/-- A frame of the module's own that returns round the ring (R172). -/
def ownReturn (p : Nat) (bytes : List Byte) : Bool := frameWhole bytes && decide ((readHusk bytes).source = p * 128)

/-- A whole frame whose SOURCE or DEST names an invalid index: it is discarded as malformed (R6), whatever its instant. -/
def badIndex (bytes : List Byte) : Bool :=
  frameWhole bytes && (decide (64 < nodeIndex (readHusk bytes).source) || decide (64 < nodeIndex (readHusk bytes).dest))

/-- A copy of a node frame at a port: the guardian, then R172. The first copy accepted in a window answers its Husk and its
payload; a second with a different payload counts as a mismatch of that window (R221): commands come in the order in which the last bits of
their copies arrive, the east one first of two at the same time, so that the first one is the copy R221 presents (assumption 138). RX_FRAMES
counts every copy accepted, on either link (assumption 135). A port that only forwards passes the frame on to its other link (R278). -/
def Mach.receive (m : Mach) (p : Nat) (link : Link) (rx : RxFrame) (types : List Nat) : Mach × Option (Husk × List Byte) :=
  let poll := decide (m.portImg.portMode p = 2)
  if m.forwards p then (m.forward p link rx.bytes, none)
  else if !(m.port p).running || ownReturn p rx.bytes then (m, none)
  else if badIndex rx.bytes then (m.discard p link 2 rx.bytes, none)
  else
    let j := m.guardian p rx
    let h := readHusk rx.bytes
    let known := frameWhole rx.bytes
    let m := if poll then m else m.measure p link rx
    let quar := known && (m.node h.source).quarantined && decide ((m.node h.source).quarWin ≠ some j.2.1)
    if j.1 ≠ 0 then (m.cut p rx j.1 j.2.1 j.2.2, none)
    else if quar then (m.cut p rx (if poll then 5 else 4) j.2.1 j.2.2, none)
    else
      match m.discardReason p j.2.1 rx.bytes with
      | some r => (m.discard p link r rx.bytes, none)
      | none =>
        if !types.contains h.type then (m, none)
        else
          let pay := framePayload rx.bytes
          let n := m.node h.source
          let before := n.copies.filter (fun c => decide (c.win = j.2.1))
          let m := (m.wrapPh (F.TTP_RX_FRAMES_COUNT p)).noteError (nodeIndex h.source) j.2.2
          let m := m.updNode h.source (fun n => { n with seq := some h.seq, copies := (n.copies ++
            [⟨j.2.1, h.type, h.seq, rx.last, decide (link = .east), pay⟩]) })
          match before with
          | [] => (m.wakeForFrame, some (h, pay))
          | c :: _ =>
            if c.payload = pay then (m, none)
            else (((m.incPh (F.TTP_COPY_MISMATCH_COUNT p)).raisePh (.ttp (Fin.ofNat 16 p)) I.TTP_COPY_MISMATCH).chargeCut p
              h.source j.2.1 0 (!poll && m.inJoin p rx), none)

/-! ### Presentation (R195) -/

/-- The copy the Port Hub presents: the one whose last bit arrived first, the east one when both arrived together. -/
def bestCopy : List Copy → Option Copy
  | [] => none
  | c :: t => match bestCopy t with
    | none => some c
    | some d => if c.last < d.last ∨ (c.last = d.last ∧ c.east) then some c else some d

def setInputs (x : InputSet) (es : List (Nat × Nat × Nat)) : InputSet :=
  { x with obj := es.foldl (fun s e => Store.set noIn s e.1 (some ⟨BitVec.ofNat 8 e.2.1, e.2.2⟩)) x.obj }

/-- A node becomes LOST in each lane that holds it otherwise: counted from the present cluster (R195). -/
def Mach.toLost (m : Mach) (a : Nat) : Mach :=
  let m := m.updComm everyLane a (fun c => if c.state = 1 then c else { c with state := 1, since := m.sys.cluster })
  m.raisePh (.ttp (Fin.ofNat 16 (nodePort a))) I.TTP_NODE_LOST

/-- A lost marker in the lanes for which `p` holds. -/
def Mach.lostMarker (m : Mach) (p : LaneId → Bool) (a : Nat) : Mach :=
  m.updComm p a (fun c => if c.joined then { c with lost := min (c.lost + 1) 255, restore := 0 } else c)

/-- An accepted frame presented to the lanes for which `p` holds: each takes it while it holds the node as IN_COMM or LOST. -/
def Mach.present (m : Mach) (p : LaneId → Bool) (a : Nat) (pay : List Byte) : Mach :=
  let st := bitsOf (ofBe (pay.take 1)) 3 0
  let m := laneIds.foldl (fun (m : Mach) l => if p l then m.updLane l (fun x =>
    if (Store.get NodeComm.absent x.live.node a).joined then { x with live := setInputs x.live (payloadEntries pay) } else x) else m) m
  m.updComm p a (fun c => if c.joined then
    { c with lost := 0, restore := min (c.restore + 1) 255, since := m.sys.cluster, nodeState := st } else c)

/-- A condition on a node's state holds in some lane: each lane decides by its own copy (R12). -/
def Mach.anyComm (m : Mach) (a : Nat) (p : NodeComm → Bool) : Bool :=
  laneIds.any (fun l => p (Store.get NodeComm.absent (m.lane l).live.node a))

/-- The port snoop of the lanes for which `f` holds has failed a frame of port `p` (R367, R368). -/
def Mach.portFails (m : Mach) (p : Nat) (f : LaneId → Bool) : Mach :=
  laneIds.foldl (fun (m : Mach) l => if f l then
    (m.updLane l (fun x => { x with regs := (x.regs.put F.CRC_PORT_SNOOP_PORT p).inc F.CRC_PORT_SNOOP_FAILS })).raiseLane l
      .crc I.CRC_PORT_FAIL else m) m

/-- The end of a node's input window: the presentation of the accepted frame, a lost marker or the quarantine marker. A lane
whose port snoop fails takes a lost marker (R367). -/
def Mach.windowEnd (m : Mach) (p idx : Nat) (snoop : BitVec 3) : Mach :=
  let a := nodeAddr p idx
  let poll := decide (m.portImg.portMode p = 2)
  let n := m.node a
  let mine := n.copies.filter (fun c => decide (c.type = (if poll then 12 else 3)))
  let best := bestCopy mine
  let m := m.updNode a (fun n => { n with copies := (n.copies.filter (fun c => decide (c.type ≠ (if poll then 12 else 3)))),
                                          silent := if best.isSome then 0 else n.silent + 1 })
  let failed := fun (l : LaneId) => bitOf snoop.toNat (laneIx l)
  let m := if n.quarantined then m.updComm everyLane a (fun c => { c with state := 4 }) else match best with
    | some c =>
      let fl := ofBe (c.payload.take 1)
      let m := m.updNode a (fun n => { n with
        ack := bitOf fl 7 && !poll, ackSched := bitsOf fl 6 4, ackAt := m.sys.cluster * 32 + (m.port p).bc,
        event := if poll then 0 else ofBe ((c.payload.drop 2).take 1),
        diag := if poll then 0 else ofBe ((c.payload.drop 3).take 1),
        maint := if poll then 0 else ofBe ((c.payload.drop 4).take 1) })
      let m := if poll && m.anyComm a (fun c => decide (c.state = 2)) then
          (m.updComm everyLane a (fun c => if c.state = 2 then { c with state := 1, since := m.sys.cluster } else c)).raisePh
            (.ttp (Fin.ofNat 16 p)) I.TTP_NODE_LOST
        else m
      if m.anyComm a NodeComm.joined then
        let m := m.wrapPh F.PHB_PRESENTED_COUNT
        ((m.present (fun l => !failed l) a c.payload).lostMarker failed a).portFails p failed
      else m
    | none =>
      -- no demand was reported in this cycle's input frames (R183)
      let m := m.updNode a (fun n => { n with event := 0, diag := 0, maint := 0 })
      if m.anyComm a NodeComm.joined then (m.lostMarker everyLane a).incPh (F.TTP_LOST_WINDOWS_COUNT p) else m
  m.portRegs p

/-! ### Grants, join index and the beacon (R183, R198) -/

/-- A frame's time on the link in byte times (R167). -/
def frameUnits (len : Nat) : Nat := 43 + len

/-- What stands before a grant in an arbitrating window: nothing, a module frame or a node frame. -/
inductive Before where
  | nothing | module | node
  deriving DecidableEq, Repr

/-- The gap in units of 8 ns before the next frame (R176). -/
def Img.grantGap (i : Img) (p : Nat) (b : Before) (isNode : Bool) : Nat :=
  match b, isNode with
  | .nothing, _ => 0
  | .module, false => 0
  | .module, true => ceilDiv (i.ringMax p * 1000 + i.gap p) 8
  | .node, _ => ceilDiv (i.gap p) 8

/-- What is left of an arbitrating window: where the next grant may start, the end, and what stands before. -/
structure Span where
  pos : Nat
  stop : Nat
  prev : Before
  deriving DecidableEq, Repr

/-- The grants being placed in the arbitrating windows of a port basic cycle. -/
structure Arb where
  spans : List Span
  grants : List Grant
  /-- byte times of diagnostic and maintenance grants, and their limit -/
  diag : Nat
  limit : Nat
  ptr : Store Nat
  /-- demand of events not granted -/
  waiting : Bool
  deriving DecidableEq, Repr

/-- Where the next grant may start in what is left of a window. -/
def Span.next (i : Img) (p : Nat) (w : Span) (isNode : Bool) : Nat := w.pos + i.grantGap p w.prev isNode

/-- Take `len` byte times of the first window that holds them: what is left then, and where the grant starts. -/
def takeSpan (i : Img) (p : Nat) (isNode : Bool) (len : Nat) : List Span → Option (List Span × Nat)
  | [] => none
  | w :: t =>
    let s := w.next i p isNode
    if s + len ≤ w.stop then some (⟨s + len, w.stop, if isNode then .node else .module⟩ :: t, s)
    else (takeSpan i p isNode len t).map (fun r => (w :: r.1, r.2))

/-- Place a grant of `len` byte times where it fits. -/
def Arb.place (i : Img) (p : Nat) (b : Arb) (node cls len : Nat) : Arb × Bool :=
  let isDiag := decide (cls = 2) || decide (cls = 3)
  if b.grants.length < 16 ∧ (!isDiag ∨ b.diag + len ≤ b.limit) then
    match takeSpan i p (decide (node ≠ 0)) len b.spans with
    | some (ws, s) => ({ b with spans := ws, grants := b.grants ++ [⟨node, cls, s, len⟩],
                                diag := if isDiag then b.diag + len else b.diag }, true)
    | none => (b, false)
  else (b, false)

/-- A node's grant of a class: room for the waiting bytes in one frame of at most 2,048 B, cut to what is left of the windows and
never below a frame of 64 B. The manual gives the grant no length (DESIGN CHOICE, assumption 123). -/
def Arb.placeNode (i : Img) (p : Nat) (b : Arb) (node cls demand : Nat) : Arb × Bool :=
  let most := (b.spans.map (fun w => w.stop - w.next i p true)).foldl max 0
  let room := if cls = 1 then most else min most (b.limit - b.diag)
  let want := frameUnits (min (64 * demand) 2048)
  if room < frameUnits 64 then (b, false) else b.place i p node cls (min want room)

/-- The length of the grant placed last. -/
def Arb.lastLen (b : Arb) : Nat := (b.grants.getLast?.map (fun (g : Grant) => g.len)).getD 0

/-- Nodes of a priority, starting after the one last served. -/
def rotate (last : Nat) (l : List Nat) : List Nat := l.filter (fun k => decide (last < k)) ++ l.filter (fun k => decide (k ≤ last))

/-- The nodes' part of a class: ascending PRIORITY, within it from the node after the one last served. -/
def Mach.arbNodes (m : Mach) (p cls : Nat) (demand : Node → Nat) (b : Arb) : Arb :=
  let i := m.portImg
  let want := (m.nodesOf p).filter (fun k => (m.comm (nodeAddr p k)).joined && decide (demand (m.node (nodeAddr p k)) ≠ 0))
  (List.range 8).foldl (fun b pr =>
    (rotate (Store.get zeroNat b.ptr (cls * 8 + pr)) (want.filter (fun k => decide (i.priority p k = pr)))).foldl (fun b k =>
      let d := demand (m.node (nodeAddr p k))
      let r := b.placeNode i p k cls d
      if r.2 then { r.1 with ptr := Store.set zeroNat r.1.ptr (cls * 8 + pr) k,
                             waiting := r.1.waiting || (decide (cls = 1) && decide (r.1.lastLen < frameUnits (64 * d))) }
      else { r.1 with waiting := r.1.waiting || decide (cls = 1) }) b) b

/-- The module's own frames of a class come first. -/
def Mach.arbOwn (m : Mach) (p cls : Nat) (b : Arb) : Arb :=
  ((m.port p).own.filter (fun e => decide (e.1 = cls))).foldl (fun b e =>
    (b.place m.portImg p 0 cls (frameUnits e.2.2.2.length)).1) b

/-- The grants of a port basic cycle in all its arbitrating windows: class 4, events, diagnostic, maintenance; DIAG_SHARE binds
while event demand waits. -/
def Mach.arbitrate (m : Mach) (p : Nat) : List Grant × Store Nat :=
  let q := m.port p
  let ws := (m.portImg.windowsIn p q.sched q.bc).filter (fun (w : Win) => decide (w.kind = 4))
  let total := (ws.map (fun (w : Win) => w.len)).foldl (· + ·) 0
  let b : Arb := ⟨ws.map (fun (w : Win) => ⟨w.start, w.start + w.len, .nothing⟩), [], 0, total, q.arbPtr, false⟩
  let b := m.arbNodes p 1 (·.event) (m.arbOwn p 1 (m.arbOwn p 4 b))
  let b := if b.waiting then { b with limit := total * m.ph.regs.fld (F.TTP_ARB_CFG_DIAG_SHARE p) / 100 } else b
  let b := m.arbNodes p 2 (·.diag) (m.arbOwn p 2 b)
  let b := m.arbNodes p 3 (·.maint) (m.arbOwn p 3 b)
  (b.grants, b.ptr)

/-- The join index of a join window: the next ABSENT index, ascending and wrapping; 0 while joins are not offered. -/
def Mach.joinNext (m : Mach) (p : Nat) : Nat :=
  let q := m.port p
  let absent := (m.nodesOf p).filter (fun k => decide ((m.comm (nodeAddr p k)).state = 2))
  if m.ph.regs.fld (F.TTP_PORT_CFG_JOIN_OPEN p) = 0 || !q.checked || q.split then 0
  else (rotate q.joinPtr absent).headD 0

def grantBytes (g : Grant) : List Byte := be 1 g.node ++ be 1 g.cls ++ be 2 g.start ++ be 2 g.len ++ be 2 0

/-- The BEACON payload (R183). -/
def Mach.beaconPayload (m : Mach) (p : Nat) : List Byte :=
  let q := m.port p
  let i := m.portImg
  be 8 m.sys.cluster ++ be 8 (m.cycleStart p) ++ be 1 (i.portCycle p) ++
  be 1 (m.ph.regs.fld (F.TTP_PORT_CFG_JOIN_OPEN p) + 2 * b2n q.both) ++ be 1 q.joinIndex ++ be 1 q.grants.length ++
  be 2 q.joinStart ++ be 2 0 ++ be 4 q.measured ++ be 1 m.sys.mode ++ be 3 0 ++ q.grants.flatMap grantBytes

/-- The module's own frames that have no step of their own (LEAVE, DIAG, MAINT) leave in their grants. -/
def Mach.sendOwn (m : Mach) (p : Nat) : Mach :=
  let q := m.port p
  let own := q.own
  let grants := q.grants.filter (fun g => decide (g.node = 0))
  let step := fun (acc : Mach × List Grant × List (Nat × Nat × Nat × List Byte)) (e : Nat × Nat × Nat × List Byte) =>
    match acc.2.1.find? (fun g => decide (g.cls = e.1) && decide (g.len = frameUnits e.2.2.2.length)) with
    | some g =>
      if e.2.2.1 = 8 ∨ e.2.2.1 = 10 then (acc.1, acc.2.1.erase g, acc.2.2 ++ [e])
      else (acc.1.sendFrame p e.2.2.1 (decide (e.2.1 = p * 128)) e.2.1 (m.cycleStart p + 8 * g.start) e.2.2.2, acc.2.1.erase g, acc.2.2)
    | none => (acc.1, acc.2.1, acc.2.2 ++ [e])
  let r := own.foldl step (m, grants, [])
  r.1.updPort p (fun q => { q with own := r.2.2 })

/-- The port basic cycle before met R229: both links held sync, each link's beacon came once to the other receiver, and the two
latencies agree within 100 ns. -/
def Port.ringGood (q : Port) (seen : RingSeen) : Bool :=
  q.both && q.eastUp && q.westUp && (match seen.eastBeacon, seen.westBeacon with
    | some a, some b => decide (max a b ≤ min a b + 100)
    | _, _ => false)

/-- Sync returns on the links that `seen` names (R206, R282). -/
def Mach.linksBack (m : Mach) (p : Nat) (seen : RingSeen) : Mach :=
  (m.updPort p (fun q => { q with eastUp := q.eastUp || seen.eastSync, westUp := q.westUp || seen.westSync })).portRegs p

/-- RING_SPLIT: cause 1 loss of sync, 2 echo, 3 two missing returns. The interrupt and the record follow in the next port basic
cycle. -/
def Mach.ringSplit (m : Mach) (p cause : Nat) : Mach :=
  if (m.port p).split then m
  else
    let m := m.updPort p (fun q => { q with split := true, sinceChange := 0, good := 0, missed := 0, splitDue := cause })
    (m.incPh F.STG_HEALS_SPLITS).portRegs p

/-- The interrupt and the record of a split declared in the port basic cycle before (R226). -/
def Mach.splitNotice (m : Mach) (p : Nat) : Mach :=
  let c := (m.port p).splitDue
  if c = 0 then m
  else ((m.updPort p (fun q => { q with splitDue := 0 })).raisePh .stg I.STG_SPLIT).record 0x4003 p 1 c 0

/-- RING_RESTORED (R229): at the cluster boundary after 16 good port basic cycles, the last of which `seen` shows. -/
def Mach.ringRestored (m : Mach) (p : Nat) (seen : RingSeen) : Mach :=
  let q := m.port p
  if !q.running || !q.split || decide (q.good < 15) || !q.ringGood seen then m
  else
    let m := m.updPort p (fun q => { q with split := false, healing := false, both := false, good := 0, missed := 0, sinceChange := 0,
                                             splitDue := 0 })
    ((((m.incPh F.STG_HEALS_RESTORES).raisePh .stg I.STG_RESTORED).record 0x4003 p 2 0 0)).portRegs p

/-- A port starts healing (R227). -/
def Mach.ringHealing (m : Mach) (p : Nat) : Mach :=
  if (m.port p).healing then m
  else ((m.updPort p (fun q => { q with healing := true })).raisePh .stg I.STG_HEALING).portRegs p

/-- The start of a port basic cycle (R183): counters, arbitration, the join index, the BEACON, then the module's own frames.
A poll-mode port sends no beacon and offers nothing (R231). How TTP.ARB counts what was granted: assumption 124. -/
def Mach.portBasic (m : Mach) (p : Nat) (seen : RingSeen) : Mach :=
  let bc := m.portNext p
  let m := (if bc = 0 then m.ringRestored p seen else m).splitNotice p
  let leaves := (m.port p).leaves
  let m := m.mapPortNodes p (fun n => { n with copies := [], charged := [], quarWin := none })
  let m := m.updPort p (fun q => { q with
    bc := bc, commanding := m.sending, started := q.started + 1, sinceChange := min (q.sinceChange + 1) 65535,
    good := if q.split && q.ringGood seen then q.good + 1 else 0, both := q.split, healing := q.healing && !q.split,
    returned := false, grants := [], joinIndex := 0, joinStart := 0, leaves := leaves - 1 })
  let m := m.linksBack p seen
  if m.portImg.portMode p = 2 then m
  else
    -- R287 step 4: an ALL-addressed LEAVE with REASON 1 in each of the first 16 port basic cycles after TAKEOVER began
    let m := if leaves = 0 then m else m.queueOwn p 4 (p * 128) 9 (leavePayload 1)
    let g := m.arbitrate p
    let q := m.port p
    let join := (m.portImg.windowsIn p q.sched q.bc).find? (fun (w : Win) => decide (w.kind = 5))
    let idx := if join.isSome then m.joinNext p else 0
    let m := m.updPort p (fun q => { q with grants := g.1, arbPtr := g.2, joinIndex := idx,
                                            joinPtr := if idx = 0 then q.joinPtr else idx,
                                            joinStart := match join with | some w => w.start | none => 0 })
    let total := (m.nodesOf p).foldl (fun s k => let n := m.node (nodeAddr p k); s + n.event + n.diag + n.maint) 0
    let m := (m.putPh (F.TTP_ARB_DEMAND p) (min total 65535)).putPh (F.TTP_ARB_GRANTED p)
      (min (ceilDiv ((g.1.map (fun (e : Grant) => e.len)).foldl (· + ·) 0) 64) 65535)
    let m := m.sendFrame p 1 true (p * 128) (m.cycleStart p) (m.beaconPayload p)
    (m.sendOwn p).portRegs p

/-! ### Command and POLL frames (R184, R217, R233) -/

/-- The payload of a COMMAND frame from what the lanes handed over. -/
def commandPayload (codes : List W32) (part : List Byte) (correction : Nat) : List Byte :=
  codes.flatMap (fun c => be 4 c.toNat) ++ part ++ be 2 correction ++ be 6 0

/-- What the Port Hub has assembled for a node in the present port basic cycle: coded part, LAUNCH and the three codes. -/
def Mach.assembled (m : Mach) (p idx : Nat) : Option (List Byte × Nat × List W32) :=
  let q := m.port p
  let cyc := m.portImg.portCycle p
  let slot := if cyc = 0 then q.bc / 2 % 2 else q.bc % 2
  (Store.get noFrame m.ph.frames (nodeAddr p idx + 2048 * slot)).map (fun f =>
    (f.1, f.2.1, if cyc = 0 ∧ q.bc % 2 = 1 then (f.2.2.drop 3).take 3 else f.2.2.take 3))

/-- CORRECTION of a node's COMMAND frame (R217): the start error measured in the port basic cycle before `now`, else 0x8000. -/
def Node.correctionAt (n : Node) (now : Nat) : Nat :=
  match n.correction.find? (fun c => decide (c.2 + 1 = now)) with
  | some c => wrapSigned 16 c.1
  | none => 0x8000

/-- The COMMAND frame of a node in its window, with the correction measured in the port basic cycle before (R217). -/
def Mach.sendCommand (m : Mach) (p idx : Nat) : Mach :=
  match m.assembled p idx with
  | none => m
  | some (part, launch, codes) =>
    let a := nodeAddr p idx
    m.sendFrame p 2 false a launch (commandPayload codes part ((m.node a).correctionAt (m.cycleNo p)))

/-- The POLL frame of a node on its poll link (R232, R236). -/
def Mach.sendPoll (m : Mach) (p idx : Nat) : Mach :=
  match m.assembled p idx with
  | none => m
  | some (part, launch, codes) =>
    let q := m.port p
    let i := m.portImg
    let a := nodeAddr p idx
    let pay := commandPayload codes part 0x8000
    let env : HuskEnv := ⟨0, false, 0, 0, q.bc, m.fld F.RED_EPOCH_EPOCH, moduleSeq m.sys.cluster (i.perCluster p) q.bc,
      i.imageId, launch⟩
    let w := (m.node a).pollWest
    m.emit (.frame p (!w) w (frameBytes (huskBytes env 11 false a (p * 128) pay.length) pay))

/-! ### Joining (R198, R199) -/

/-- The module's side of OBJECT_LIST_CRC. -/
def Img.objectListCrc (i : Img) (a : Nat) : W32 :=
  crc32c ((sortBy id (i.nodeObjects a)).flatMap (fun o => be 2 o ++ be 1 (i.cls o)))

/-- RESULT of a JOIN_REQUEST: conditions in the order 5, 1, 4, 3, 2. -/
def Mach.joinResult (m : Mach) (p idx : Nat) (pay : List Byte) : Nat :=
  let i := m.portImg
  let a := nodeAddr p idx
  if m.ph.regs.fld (F.TTP_PORT_CFG_JOIN_OPEN p) = 0 then 5
  else if !i.hasNode p idx then 1
  else if (m.comm a).state ≠ 2 then 4
  else if i.nodeType p idx ≠ 0 ∧ i.nodeType p idx ≠ ofBe (pay.take 2) then 3
  else if ofBe ((pay.drop 12).take 1) ≠ (i.nodeObjects a).length ∨ ofBe ((pay.drop 16).take 4) ≠ (i.objectListCrc a).toNat then 2
  else 0

/-- The windows of a node in the eight schedules, 8 B each. -/
def Img.grantWindows (i : Img) (p idx : Nat) : List Byte :=
  (List.range 8).flatMap (fun s =>
    if s < i.schedCount p then
      match i.winOf p s 2 idx, i.winOf p s 3 idx with
      | some c, some n => be 2 c.start ++ be 2 c.len ++ be 2 n.start ++ be 2 n.len
      | _, _ => be 8 0
    else be 8 0)

/-- The JOIN_GRANT payload; ADMIT_CLUSTER is the cluster of the grant plus 2. -/
def Mach.grantPayload (m : Mach) (p idx result : Nat) : List Byte :=
  let i := m.portImg
  be 1 result ++ be 1 (i.portNum p 7 1) ++ be 2 (i.leaveLimit p) ++ be 8 (m.sys.cluster + 2) ++ i.grantWindows p idx

/-! ### Schedule switches (R201 to R205) -/

/-- The copy of SCHED_REQ with GO: the announcement starts or the request is refused (R201), on a port that does not run too
(assumption 124). -/
def Mach.schedStart (m : Mach) (p : Nat) : Mach :=
  if m.ph.regs.fld (F.TTP_SCHED_REQ_GO p) = 0 then m
  else
    let s := m.ph.regs.fld (F.TTP_SCHED_REQ_SCHED p)
    let q := m.port p
    let m := m.putPh (F.TTP_SCHED_REQ_GO p) 0
    let b : Blk := .ttp (Fin.ofNat 16 p)
    if q.announcing ∨ s = q.sched ∨ m.portImg.schedCount p ≤ s ∨ m.portImg.portMode p = 2 ∨ !q.running then
      ((m.putPh (F.TTP_SCHED_STATE p) 4).err b).raisePh b I.TTP_SCHED_ABANDONED
    else
      let t := m.sys.cluster + 3
      let m := m.updPort p (fun q => { q with announcing := true, next := s, target := t % 16, decided := none })
      (((m.putPh (F.TTP_SCHED_STATE p) 1).putPh (F.TTP_SCHED_NEXT p) s).putPh (F.TTP_SCHED_TARGET_CLUSTER p) t).portRegs p

/-- The nodes that count in a switch and did not acknowledge (R203). -/
def Mach.nacks (m : Mach) (p : Nat) : List Nat :=
  let q := m.port p
  let last := m.sys.cluster * 32 + (m.portImg.perCluster p - 1)
  (m.nodesOf p).filter (fun k =>
    let n := m.node (nodeAddr p k)
    (m.comm (nodeAddr p k)).joined && !(n.ack && decide (n.ackSched = q.next) && decide (n.ackAt = last)))

/-- SCHED_DECISION in the last port basic cycle of cluster c + 2. TTP.NACK keeps the nodes that blocked the last switch that was blocked, over
later ones that are not (assumption 136). -/
def Mach.schedDecide (m : Mach) (p : Nat) : Mach :=
  let q := m.port p
  if !q.announcing || decide ((m.sys.cluster + 1) % 16 ≠ q.target) || decide (q.bc + 1 ≠ m.portImg.perCluster p) ||
      q.decided.isSome then m
  else
    let ns := m.nacks p
    let bits := bitmap 64 (fun k => ns.contains (k + 1))
    let m := m.updPort p (fun q => { q with decided := some ns.isEmpty })
    if ns.isEmpty then m
    else
      let m := ((m.putPh (F.TTP_SCHED_STATE p) 3).putPh (F.TTP_NACK_LO_NODES p) bits).putPh (F.TTP_NACK_HI_NODES p)
        (bits / 2 ^ 32)
      (m.raisePh (.ttp (Fin.ofNat 16 p)) I.TTP_SCHED_ABANDONED).record 0x4004 p 3 q.next ns.length

/-- The boundary of the target cluster: the decision takes effect and the announcement ends. -/
def Mach.schedApply (m : Mach) (p : Nat) : Mach :=
  let q := m.port p
  if !q.announcing || decide (m.sys.cluster % 16 ≠ q.target) then m
  else if q.decided = some true then
    let m := m.updPort p (fun q => { q with sched := q.next, announcing := false, decided := none, target := 0 })
    ((m.putPh (F.TTP_SCHED_STATE p) 2).raisePh (.ttp (Fin.ofNat 16 p)) I.TTP_SCHED_SWITCHED).portRegs p
  else (m.updPort p (fun q => { q with announcing := false, decided := none, target := 0 })).portRegs p

/-! ### Start and end of ports (R166, R197, R211, R222) -/

/-- The Hem a port starts with: the stored one, clamped to GAP − 200 ns (R222). -/
def Mach.hemStart (m : Mach) (p : Nat) : Mach :=
  let f := F.STG_HEMn_HEM_NS p
  let stored := match Store.get noSetting m.sc.settingsNow f.addr with
    | some v => v.toNat % 8192
    | none => (resetValue f.addr).toNat % 8192
  let gap := m.portImg.gap p
  if gap - 200 < stored then
    ((m.putPh f (gap - 200)).err .stg).record 0x4005 p stored (gap - 200) gap
  else m.putPh f stored

/-- The registers a port takes from its descriptor in the active image. -/
def Mach.portConfig (m : Mach) (p : Nat) : Mach :=
  let i := m.portImg
  let m := m.updPort p (fun q => { q with sched := i.defaultSched p })
  let r := ((((m.ph.regs.put (F.TTP_CONFIG_NODE_COUNT p) (i.portNodes p)).put (F.TTP_CONFIG_LOSS_LIMIT p)
    (i.lossLimit p)).put (F.TTP_CONFIG_RESTORE_COUNT p) (i.restoreCount p)).put (F.TTP_CONFIG_BASIC_CYCLE p)
    (i.portCycle p)).put (F.TTP_CONFIG_MODE p) (i.portMode p)
  { m with ph := { m.ph with regs := r.put (F.TTP_RING_LATENCY_LIMIT_NS p) (i.ringMax p * 1000) } }

/-- What the Port Hub keeps of a node whose port stops or starts: RESULT of its last grant (R207), the quarantines since LOAD, and the third of
them as it is held (R224). -/
def Node.kept (n : Node) : Node :=
  { Node.init 0 with result := n.result, quars := n.quars, quarAt := if n.held then n.quarAt else 0, quarantined := n.held, held := n.held }

/-- Every node that `p` names is ABSENT, but for one that a third quarantine holds, which is QUARANTINED; of those that become so the ports
report it (R207). -/
def Mach.dropNodes (m : Mach) (p : Nat → Bool) : Mach :=
  let held := fun (a : Nat) => (m.node a).held
  let left := dedup ((m.leadLane.live.node.filter (fun e => p e.1 && decide (e.2.state ≠ 2) && !held e.1)).map (fun e => nodePort e.1))
  let m := { m with ph := { m.ph with nodes :=
    (m.ph.nodes.map (fun (e : Nat × Node) => if p e.1 then (e.1, e.2.kept) else e)).filter (fun e => decide (e.2 ≠ Node.init e.1)) } }
  let keep := fun (s : Store NodeComm) =>
    (s.filter (fun e => !p e.1 || held e.1)).map (fun (e : Nat × NodeComm) => if p e.1 then (e.1, { e.2 with state := 4 }) else e)
  let m := m.mapLanes (fun x => { x with live := { x.live with node := keep x.live.node } })
  left.foldl (fun (m : Mach) k => m.raisePh (.ttp (Fin.ofNat 16 k)) I.TTP_NODE_LEFT) m

/-- PORT_START: DEFAULT_SCHED, every node ABSENT, beacons with JOIN_INDEX 0 while the latency is measured; the latency last measured stands until
then (R211). -/
def Mach.portStart (m : Mach) (p : Nat) : Mach :=
  let i := m.portImg
  if i.portMode p = 0 ∨ (m.port p).running ∨ (m.port p).refused ∨ m.sys.rtm = none then m
  else
    let m := m.hemStart p
    let m := m.updPort p (fun q => { Port.init p with
      running := true, commanding := m.sending, sched := i.defaultSched p, eastUp := q.eastUp, westUp := q.westUp, measured := q.measured,
      bc := i.perCluster p - 1, checked := decide (i.portMode p = 2) })
    (m.dropNodes (fun a => decide (nodePort a = p))).portRegs p

def Mach.portsStart (m : Mach) : Mach := (List.range 16).foldl Mach.portStart m

/-- Every port's descriptor registers, once LOAD has built the tables: a port runs or not (R207). -/
def Mach.portsConfig (m : Mach) : Mach :=
  (List.range 16).foldl (fun (m : Mach) p => (m.portConfig p).portRegs p) m

/-- An announcement that ends with its port: SCHED.STATE shows none. -/
def Mach.endAnnounce (m : Mach) (p : Nat) : Mach :=
  if m.ph.regs.fld (F.TTP_SCHED_STATE p) = 1 then m.putPh (F.TTP_SCHED_STATE p) 0 else m

/-- A port stops: no frame of the module goes out on it. Its links stay as they are, and the latency last measured (R211). -/
def Mach.portStop (m : Mach) (p : Nat) : Mach :=
  (m.updPort p (fun q => { Port.init p with
    eastUp := q.eastUp, westUp := q.westUp, measured := q.measured, sched := m.portImg.defaultSched p })).endAnnounce p

def Mach.portsStop (m : Mach) : Mach :=
  let m := ((List.range 16).foldl Mach.portStop m).dropNodes (fun _ => true)
  let m := { m with ph := { m.ph with frames := [] } }
  let m := m.mapLanes (fun x => { x with live := { x.live with obj := [] } })
  (List.range 16).foldl Mach.portRegs m

end Sys2Proof.Machine
end

