-- ==== Sys2Proof/Machine/PowerOps.lean ====
section
/-!
DEFINITION. Machine/PowerOps.lean: BIST judgement and its registers (R302, R303, R324), what a reset takes and what the
always-on domain keeps (R309, R320, R428), the settings and fuses filled at BOOT (R429), the restart (R309, R310), and the
on-die memory map (R28).
-/
namespace Sys2Proof.Machine

/-! ### BIST (R302, R303) -/

/-- A limit was broken: the run is void, whatever the MISR shows. -/
def bistVoid (r : BistRun) : Bool :=
  decide (r.vMin.toNat < 810) || decide (890 < r.vMax.toNat) || decide (r.fMin.toNat < 19800) || decide (20200 < r.fMax.toNat)

/-- A step of the run failed. `scope`: 1 logic, 2 memory, 3 both and, for a lane, the DRAM interface test. -/
def bistFail (r : BistRun) (golden : W64) (scope : Nat) (isLane : Bool) : Bool :=
  (bitOf scope 0 && decide (r.misr ≠ golden)) || (bitOf scope 1 && decide (r.memFails ≠ 0)) ||
  (decide (scope = 3) && isLane && !r.dramOk)

/-- BST.RESULT.RESULT of a run: 1 pass, 2 fail, 3 void. -/
def bistResult (r : BistRun) (golden : W64) (scope : Nat) (isLane : Bool) : Nat :=
  if bistVoid r then 3 else if bistFail r golden scope isLane then 2 else 1

/-- The BST registers after a run; `source` as BST.RESULT.SOURCE. -/
def Regs.bist (r : Regs) (b : BistRun) (source scope result : Nat) : Regs :=
  let r := ((r.put F.BST_RESULT_RESULT result).put F.BST_RESULT_SOURCE source).put F.BST_RESULT_DURATION_MS b.durationMs.toNat
  let r := if bitOf scope 0 then (r.put F.BST_MISR_LO_MISR b.misr.toNat).put F.BST_MISR_HI_MISR (b.misr.toNat / 2 ^ 32) else r
  let r := if bitOf scope 1 then
      (r.put F.BST_MEM_FAIL_COUNT (min b.memFails 255)).put F.BST_MEM_FAIL_WORD (if b.memFails = 0 then 0 else b.firstFail.toNat)
    else r
  let r := (((r.put F.BST_LIMITS_V_VMAX_MV b.vMax.toNat).put F.BST_LIMITS_V_VMIN_MV b.vMin.toNat).put F.BST_LIMITS_F_FMAX
    b.fMax.toNat).put F.BST_LIMITS_F_FMIN b.fMin.toNat
  let r := r.inc F.BST_RUNS_RUNS
  if result = 3 then r.inc F.BST_RUNS_VOIDS else r

/-- Result of a run on a device. -/
def Mach.bistOf (m : Mach) (d : Device) (b : BistRun) (scope : Nat) : Nat :=
  match d with
  | .lane l => bistResult b (m.lane l).golden scope true
  | .portHub => bistResult b m.ph.golden scope false

/-- The registers of a run, in the device that ran it: a lane's own BST page, and for the Port Hub its own copy, which every
lane shows while BST.CTRL.DEVICE selects it (R324). -/
def Mach.bistRegs (m : Mach) (d : Device) (b : BistRun) (source scope : Nat) : Mach :=
  let res := m.bistOf d b scope
  match d with
  | .lane l => m.updLane l (fun x => { x with regs := (((((x.regs.bist b source scope res).put F.BST_STATUS_RUNNING 0).put
      F.BST_STATUS_ISOLATED 0).put F.BST_CTRL_START 0).put F.CLK_STATUS_BIST_CLOCK 0) })
  | .portHub => (m.setPhRegs (m.ph.regs.bist b source scope res)).putAll F.BST_CTRL_START 0

/-- DONE, and FAIL or VOID, of a run. -/
def Mach.bistRaise (m : Mach) (d : Device) (res : Nat) : Mach :=
  let raise := fun (m : Mach) (i : Nat) => match d with
    | .lane l => m.raiseLane l .bst i
    | .portHub => m.raiseAll .bst i
  let m := raise m I.BST_DONE
  if res = 2 then raise m I.BST_FAIL else if res = 3 then raise m I.BST_VOID else m

/-- A run ends with its registers and interrupts. -/
def Mach.bistKeep (m : Mach) (d : Device) (b : BistRun) (source scope : Nat) : Mach :=
  (m.bistRegs d b source scope).bistRaise d (m.bistOf d b scope)

/-- SCOPE of a run that software started: of the lane's own BST.CTRL, for the Port Hub that of the write which started it. -/
def Mach.bistScope (m : Mach) (d : Device) : Nat :=
  match d with
  | .lane l => (m.lane l).regs.fld F.BST_CTRL_SCOPE
  | .portHub => m.sys.hubScope

/-- A device is isolated and its run begins (R304); `host`: software started it. One that runs already goes on. -/
def Mach.bistBegin (m : Mach) (d : Device) (host : Bool) : Mach :=
  if m.sys.bistRun.contains d then m
  else
    let m := match d with
      | .lane l => m.updLane l (fun x => { x with regs := (((x.regs.put F.BST_STATUS_RUNNING 1).put
          F.BST_STATUS_ISOLATED 1).put F.CLK_STATUS_BIST_CLOCK 1) })
      | .portHub => m
    m.updSys (fun s => { s with bistRun := s.bistRun ++ [d], bistHost := if host then s.bistHost ++ [d] else s.bistHost })

/-- A run of a device is over. -/
def Mach.bistEnd (m : Mach) (d : Device) : Mach :=
  m.updSys (fun s => { s with bistRun := s.bistRun.filter (fun e => decide (e ≠ d)), bistHost := s.bistHost.filter (fun e => decide (e ≠ d)) })

/-- The registers of BST that describe the device selected by BST.CTRL.DEVICE (R324). -/
def bistResultReg (off : Nat) : Bool := decide (0x44 ≤ off) && decide (off < 0x68)

/-- A read of a lane's BST page: while DEVICE selects the Port Hub its results, START while it runs, and whether it runs and is isolated
(R324). -/
def Mach.bistRead (m : Mach) (l : LaneId) (off : Nat) : W32 :=
  let r := (m.lane l).regs
  if r.fld F.BST_CTRL_DEVICE ≠ 1 then r.get (blkBase .bst + off)
  else if bistResultReg off then m.ph.regs.get (blkBase .bst + off)
  else if off = 0x40 then (r.put F.BST_CTRL_START (b2n m.hubTested)).get (blkBase .bst + off)
  else if off = 0x0C then
    let on := b2n m.hubTested
    ((r.put F.BST_STATUS_RUNNING on).put F.BST_STATUS_ISOLATED on).get (blkBase .bst + off)
  else r.get (blkBase .bst + off)

/-! ### On-die memory (R28): the regions in the table's order (assumption 35) -/

def sramConflict : Nat := 0x200000
def sramZvl : Nat := 0x600000
/-- Evaluation contexts, input image and command staging, housekeeping core, unit buffers: from here to the end. -/
def sramUnits : Nat := 0x6C0000

def noByte : Nat → Option Byte := fun _ => none

/-- Housekeeping core, whose firmware step 4 of R302 loads, and unit buffers: from here to the end. -/
def sramCore : Nat := 0x780000

/-- Event staging in DRAM, where a lane keeps records from its start on (R29, assumption 65). -/
def dramEvents : Nat := 0x160000000

/-- The key lies in a part that has been zeroed and that no unit has written since: contexts, input image and staging, ZVL's table on the die,
working tables and queues in DRAM (assumption 140). -/
def Lane.zeroed (x : Lane) (key : Nat) : Bool :=
  if key < 2 ^ 40 then x.zeroDram && decide (key < dramEvents) else x.zeroDie && decide (key < 2 ^ 40 + sramCore)

/-- A byte of a memory part whose layout the manual leaves open: what DMA or a scan wrote there, zero after its zeroing, else a free
value (assumptions 65 and 140). -/
def Lane.unitByte (x : Lane) (key : Nat) : Byte :=
  (Store.get noByte x.own key).getD
    (if x.zeroed key then 0 else Config.unitByte (x.regs.fld F.VOT_LANE_LANE) key x.time.count)

/-- On-die SRAM is set to zero (step 4 of R302, step 2 of R159). -/
def Lane.zeroSram (x : Lane) : Lane :=
  { x with sram := [], own := x.own.filter (fun e => decide (e.1 < 2 ^ 40)), zeroDie := true }

def Lane.putUnit (x : Lane) (key : Nat) (b : Byte) : Lane := { x with own := Store.set noByte x.own key (some b) }

/-- The key of an on-die address in `own`. -/
def dieKey (a : Nat) : Nat := 2 ^ 40 + a

/-- A byte of the locked-route table (R116): the check words of a slot, 256 bytes each; an empty slot's are left open. -/
def Lane.routeTableByte (x : Lane) (a : Nat) : Byte :=
  match Store.get (fun _ => (none : Option Slot)) x.zvl.slots (a / 256) with
  | some s => (be 4 (Store.get (fun _ => (0 : W32)) s.words (a % 256 / 4)).toNat).getD (a % 4) 0
  | none => x.unitByte (dieKey (sramZvl + 0x21000 + a))

/-- A byte of the forbid set: four codes, the lowest object in the lowest bits (assumption 65). -/
def Lane.forbidByte (x : Lane) (a : Nat) : Byte :=
  BitVec.ofNat 8 ((List.range 4).foldl (fun v k => v + Store.get (fun _ => 0) x.zvl.forbid (4 * a + k) % 4 * 4 ^ k) 0)

/-- A byte of the restriction copy: object bitmap, area bitmap, module flag, reserved zeros (assumption 65). -/
def Lane.restrictByte (x : Lane) (a : Nat) : Byte :=
  if a < 0x800 then BitVec.ofNat 8 (bitmap 8 (fun k => Store.get (fun _ => false) x.zvl.rObj (8 * a + k)))
  else if a < 0x808 then (be 8 x.zvl.rArea.toNat).getD (a - 0x800) 0
  else if a = 0x808 then BitVec.ofNat 8 (b2n x.zvl.rAll)
  else 0

/-- A byte of the ZVL region, its parts in the order of R116. -/
def Lane.zvlByte (x : Lane) (a : Nat) : Byte :=
  if a < 0x21000 then x.sram.byte (sramZvl + a)
  else if a < 0xA1000 then x.routeTableByte (a - 0x21000)
  else if a < 0xB1000 then x.unitByte (dieKey (sramZvl + a))
  else if a < 0xB9000 then
    (be 2 (Store.get (fun _ => (0 : BitVec 16)) x.zvl.claims ((a - 0xB1000) / 2)).toNat).getD ((a - 0xB1000) % 2) 0
  else if a < 0xBA000 then x.forbidByte (a - 0xB9000)
  else if a < 0xBB000 then x.restrictByte (a - 0xBA000)
  else 0

/-- The parts of the locked-route table, the forbid set and the restriction copy after a byte has been written (R116). -/
def Lane.routeTablePut (x : Lane) (a : Nat) (b : Byte) : Lane :=
  match Store.get (fun _ => (none : Option Slot)) x.zvl.slots (a / 256) with
  | none => x.putUnit (dieKey (sramZvl + 0x21000 + a)) b
  | some s =>
    let k := a % 256 / 4
    let w := ofBe ((be 4 (Store.get (fun _ => (0 : W32)) s.words k).toNat).set (a % 4) b)
    let s' := { s with words := Store.set (fun _ => 0) s.words k (BitVec.ofNat 32 w) }
    { x with zvl := { x.zvl with slots := Store.set (fun _ => none) x.zvl.slots (a / 256) (some s') } }

def Lane.forbidPut (x : Lane) (a : Nat) (b : Byte) : Lane :=
  let f := (List.range 4).foldl (fun f k => Store.set (fun _ => 0) f (4 * a + k) (b.toNat / 4 ^ k % 4)) x.zvl.forbid
  { x with zvl := { x.zvl with forbid := f } }

def Lane.restrictPut (x : Lane) (a : Nat) (b : Byte) : Lane :=
  let z := x.zvl
  let objs := (List.range 8).foldl (fun f k => Store.set (fun _ => false) f (8 * a + k) (bitOf b.toNat k)) z.rObj
  if a < 0x800 then { x with zvl := { z with rObj := objs } }
  else if a < 0x808 then { x with zvl := { z with rArea := BitVec.ofNat 64 (ofBe ((be 8 z.rArea.toNat).set (a - 0x800) b)) } }
  else if a = 0x808 then { x with zvl := { z with rAll := bitOf b.toNat 0 } }
  else x

/-- A byte of the route state, whose bit layout is left open: a slot whose 32 bytes have all been written zero is empty (assumption
65). -/
def Lane.routeStatePut (x : Lane) (a : Nat) (b : Byte) : Lane :=
  let y := x.putUnit (dieKey (sramZvl + 0xA1000 + a)) b
  if (List.range 32).all (fun k => decide (Store.get noByte y.own (dieKey (sramZvl + 0xA1000 + a / 32 * 32 + k)) = some 0)) then
    { y with zvl := { y.zvl with slots := Store.set (fun _ => none) y.zvl.slots (a / 32) none } }
  else y

/-- Write one byte of the ZVL region (R28, R116); the reserved part keeps nothing. -/
def Lane.zvlPut (x : Lane) (a : Nat) (b : Byte) : Lane :=
  if a < 0x21000 then { x with sram := x.sram.put (sramZvl + a) b }
  else if a < 0xA1000 then x.routeTablePut (a - 0x21000) b
  else if a < 0xB1000 then x.routeStatePut (a - 0xA1000) b
  else if a < 0xB9000 then
    let k := (a - 0xB1000) / 2
    let v := ofBe ((be 2 (Store.get (fun _ => (0 : BitVec 16)) x.zvl.claims k).toNat).set ((a - 0xB1000) % 2) b)
    { x with zvl := { x.zvl with claims := Store.set (fun _ => 0) x.zvl.claims k (BitVec.ofNat 16 v) } }
  else if a < 0xBA000 then x.forbidPut (a - 0xB9000) b
  else if a < 0xBB000 then x.restrictPut (a - 0xBA000) b
  else x

/-- A byte of a lane's on-die SRAM (R28): the State Image records, the conflict bitset, the ZVL region, and the parts whose layout is
open. -/
def Lane.sramByte (x : Lane) (a : Nat) : Byte :=
  if a < sramConflict then ((SI.at x.si (a / 128)).bytes).getD (a % 128) 0
  else if a < sramZvl then x.sram.byte a
  else if a < sramUnits then x.zvlByte (a - sramZvl)
  else x.unitByte (dieKey a)

/-- The DRAM regions in the table's order of R29 (assumption 65): working tables, queues and Seedbank staging, event staging lie between
these addresses and hold what the lane's units keep in a layout left open; from the second on the reserved region reads zero. -/
def dramUnits : Nat := 0x100000000
def dramReserved : Nat := 0x180000000

/-- A byte of a lane's DRAM (R29). -/
def Lane.dramByte (x : Lane) (a : Nat) : Byte :=
  if a < dramUnits then x.dram.byte a else if a < dramReserved then x.unitByte a else 0

def Lane.dramRead (x : Lane) (a n : Nat) : List Byte := (List.range n).map (fun k => x.dramByte (a + k))

/-- Write one byte of DRAM; the reserved region keeps nothing. -/
def Lane.dramPut (x : Lane) (a : Nat) (b : Byte) : Lane :=
  if a < dramUnits then { x with dram := x.dram.put a b } else if a < dramReserved then x.putUnit a b else x

def Lane.dramWrite (x : Lane) (a : Nat) : List Byte → Lane
  | [] => x
  | b :: t => (x.dramPut a b).dramWrite (a + 1) t

/-- `n` bytes of on-die SRAM. -/
def Lane.sramRead (x : Lane) (a n : Nat) : List Byte := (List.range n).map (fun k => x.sramByte (a + k))

/-- Bytes of a section of an image, as a memory from address 0. -/
def Img.secMem (i : Img) (t : Nat) : Mem :=
  match i.sec t with
  | some s => (i.mem.filter (fun e => decide (i.base + s.off ≤ e.1) && decide (e.1 < i.base + s.off + s.len))).map
      (fun e => (e.1 - (i.base + s.off), e.2))
  | none => []

/-- The on-die copies of step 6 of R62: the conflict bitset, the ZVL object and global parameters. -/
def Lane.copyOnDie (x : Lane) : Lane :=
  let i := x.img
  { x with sram := (((x.sram.splice sramConflict 0x400000 (i.secMem 4)).splice sramZvl 0x20000 (i.secMem 15)).splice
      (sramZvl + 0x20000) 0x1000 (i.secMem 17)) }

/-- The entries of a memory in a range, moved to address 0. -/
def Mem.slice (m : Mem) (base len : Nat) : Mem :=
  (m.filter (fun e => decide (base ≤ e.1) && decide (e.1 < base + len))).map (fun e => (e.1 - base, e.2))

/-- Whether the on-die copies equal DRAM (step 6 of R62, R67). -/
def Lane.onDieOk (x : Lane) : Bool :=
  let i := x.img
  decide (x.sram.slice sramConflict 0x400000 = i.secMem 4) && decide (x.sram.slice sramZvl 0x20000 = i.secMem 15) &&
  decide (x.sram.slice (sramZvl + 0x20000) 0x1000 = i.secMem 17)

/-! ### What a reset takes (R309, R428) -/

/-- Registers the always-on domain or the holdup controller keeps across a reset: those R309 and R163 name, and every
counter said to run since power-on (assumption 36). -/
def keptRegs : List Nat :=
  [0x4000004C, 0x40000050, 0x40000054, 0x40000058, 0x4000005C, 0x40001040, 0x40001050, 0x40009064, 0x4000A05C]

/-- The strapped IDs of a register file (R415). -/
def Regs.straps (r : Regs) : Regs := r.filter (fun e => decide (e.1 % 0x1000 = 0))

/-- A register file after a reset: the strapped IDs, the kept registers, and the bits of SYS.STATUS, RED.STATUS and DIO.REPLACE_PIN that show
what the always-on domain and the holdup controller hold. -/
def Regs.afterReset (r : Regs) : Regs :=
  let k : Regs := keptRegs.foldl (fun (q : Regs) a => Regs.set q a (Regs.get r a)) r.straps
  let k := ((k.put F.SYS_STATUS_FEED_A (r.fld F.SYS_STATUS_FEED_A)).put F.SYS_STATUS_FEED_B (r.fld F.SYS_STATUS_FEED_B)).put
    F.SYS_STATUS_HOLDUP_READY (r.fld F.SYS_STATUS_HOLDUP_READY)
  let k := (k.put F.CLK_STATUS_PLL_LOCKED (r.fld F.CLK_STATUS_PLL_LOCKED)).put F.CLK_STATUS_MONITOR_OK
    (r.fld F.CLK_STATUS_MONITOR_OK)
  let k := (k.put F.SYS_STATUS_RESET_STUCK (r.fld F.SYS_STATUS_RESET_STUCK)).put F.SYS_STATUS_MODE (r.fld F.SYS_STATUS_MODE)
  (k.put F.RED_STATUS_REPLACE (r.fld F.RED_STATUS_REPLACE)).put F.DIO_REPLACE_PIN_ENERGISED (r.fld F.DIO_REPLACE_PIN_ENERGISED)

/-- EVL.STAGED and HOLDING over a reset of the lane: its staging region stays, and records held are held on (R412). -/
def Lane.evlKept (x : Lane) (r : Regs) : Regs :=
  (r.put F.EVL_STAGED_KBYTES (x.events.length * 32 / 1024)).put F.EVL_STATUS_HOLDING (x.regs.fld F.EVL_STATUS_HOLDING)

/-- A lane after a reset: fuses, the counter and the timebase values, the event staging and DRAM stay; everything else is as
after power-on (R309, R320). -/
def Lane.afterReset (x : Lane) : Lane :=
  { Lane.reset with
    hostLink := x.hostLink, regs := x.evlKept x.regs.afterReset, evLost := x.evLost, dram := x.dram, sram := x.sram, own := x.own,
    zeroDie := x.zeroDie, zeroDram := x.zeroDram, time := x.time,
    events := x.events,
    lifecycle := x.lifecycle, serial := x.serial, golden := x.golden }

/-- Registers of the Service Controller that show what flash or the link holds. -/
def Regs.ctlKept (r : Regs) (up : Nat) : Regs :=
  let k : Regs := []
  let k := Regs.put k F.EVR_CLEAR_MARK_UPTO (r.fld F.EVR_CLEAR_MARK_UPTO)
  let k := Regs.put k F.UPD_PROBATION_BOOTS (r.fld F.UPD_PROBATION_BOOTS)
  let k := Regs.put k F.EVR_LOST_FLASH (r.fld F.EVR_LOST_FLASH)
  let k := (Regs.put k F.HBR_LINK_WIDTH (r.fld F.HBR_LINK_WIDTH)).put F.HBR_LINK_SPEED (r.fld F.HBR_LINK_SPEED)
  Regs.put k F.HBR_STATUS_LINK_UP up

/-- The Service Controller after a reset: what its flash and fuses hold stays. -/
def Sc.afterReset (c : Sc) : Sc :=
  { Sc.reset with
    host := c.host, slotA := c.slotA, slotB := c.slotB, store := c.store, settings := c.settings, snapshot := c.snapshot,
    running := c.running, fallback := c.fallback, patchKey := c.patchKey, dram := c.dram,
    pending := c.pending, probation := c.probation, serviceS := c.serviceS, falling := c.falling, linkUp := c.linkUp,
    abandoned := c.abandoned, lostRuns := c.lostRuns, perst := c.perst, clearing := c.clearing, regs := c.regs.ctlKept (b2n c.linkUp) }

/-- What the module keeps beside: feeds, holdup, reset inputs, fuses, the commissioning key, the seconds and microseconds of
the always-on time, and the counter of free values. -/
def Sys.afterReset (s : Sys) : Sys :=
  { Sys.reset with
    mode := s.mode, feedA := s.feedA, feedB := s.feedB, powerLoss := s.powerLoss, holdupReady := s.holdupReady,
    front := s.front, rear := s.rear, fuse := s.fuse, key := s.key, keySet := s.keySet,
    refusals := s.refusals, lockout := s.lockout, us := s.us, seconds := s.seconds, slot := s.slot, free := s.free }

/-- The DIO hardware after a reset: what conducted is switched off (R374, R379). -/
def Dio.afterReset (d : Dio) : Dio :=
  { Dio.reset with demag := d.demag ||| (d.prevWord &&& ~~~d.deferred &&& ~~~d.overload) }

/-- The Port Hub after a reset: its fuses, and the runs of its BIST since power-on (R324). -/
def Ph.afterReset (h : Ph) : Ph :=
  { Ph.reset with golden := h.golden, regs := Regs.set [] 0x40009064 (h.regs.get 0x40009064) }

/-- Step 2 of R309: every device except the always-on domains and the holdup controller is reset; the Service Controller
flushes first (step 3). The mode becomes BOOT, where Sprout begins (R405); its MODE_CHANGE
record still names the cluster the reset found. -/
def Mach.deviceReset (m : Mach) : Mach :=
  let tag := m.sys.bootTag
  let m := ((m.settleWaiting).flushAll).storeSettings
  let m := m.mapLanes Lane.afterReset
  let m := { m with ph := m.ph.afterReset, sc := m.sc.afterReset, fed := Fed.reset,
                    dio := m.dio.afterReset, clk := Clks.reset, msi := Msix.reset,
                    sys := { m.sys.afterReset with cluster := m.sys.cluster } }
  (((m.setMode 2 tag).putAll F.SYS_MODE_HIST_COUNT 0).updSys (fun s => { s with cluster := 0 })).enterBoot

/-- The fuse and strap values filled during BOOT (R301, R428). -/
def Lane.fillFuses (ix : Nat) (x : Lane) : Lane :=
  let r := x.regs.replacePin
  { x with regs := ((((((r.put F.SYS_STATUS_LIFECYCLE x.lifecycle).put F.SYS_SERIAL_LO_SERIAL x.serial.toNat).put
      F.SYS_SERIAL_HI_SERIAL (x.serial.toNat / 2 ^ 32)).put F.VOT_LANE_LANE ix).put F.BST_GOLDEN_LO_GOLDEN x.golden.toNat).put
      F.BST_GOLDEN_HI_GOLDEN (x.golden.toNat / 2 ^ 32)) }

def Mach.fillFuses (m : Mach) : Mach :=
  let m := laneIds.foldl (fun (m : Mach) l => m.updLane l (Lane.fillFuses (laneIx l))) m
  m.setPhRegs ((m.ph.regs.put F.BST_GOLDEN_LO_GOLDEN m.ph.golden.toNat).put F.BST_GOLDEN_HI_GOLDEN (m.ph.golden.toNat / 2 ^ 32))

/-- The settings of R429 and the interface numbers of the running RTE microcode (R114), filled into one lane. -/
def Mach.fillLane (m : Mach) (x : Lane) : Lane :=
  let v := (Store.get FwStore.factory m.sc.running 2).version
  { x with regs := (((fillSettings m.sc.settingsNow laneSettings x.regs).put F.RTE_RULE_IF_MIN (Config.ruleIfMin v)).put
      F.RTE_RULE_IF_MAX (Config.ruleIfMax v)) }

/-- The Service Controller fills the settings into every lane, the Port Hub and its own pages. -/
def Mach.fillSettings (m : Mach) : Mach :=
  let m := m.mapLanes m.fillLane
  let m := m.setPhRegs (Machine.fillSettings m.sc.settingsNow hubSettings m.ph.regs)
  { m with sc := { m.sc with regs := Machine.fillSettings m.sc.settingsNow ctlSettings m.sc.regs } }

/-- A challenge is offered (R297): 16 random bytes. -/
def Mach.offerChallenge (m : Mach) : Mach :=
  let f := m.fresh
  let m := f.2
  let c := (List.range 16).map (Config.challengeByte f.1)
  let m := m.updSys (fun s => { s with challenge := some c })
  m.mapLanes (fun x => { x with regs := ((List.range 4).foldl (fun r k =>
    r.put (F.SYS_AUTH_CHALLENGEk_BYTES k) (ofBe ((c.drop (4 * k)).take 4))) x.regs) })

/-- No challenge is offered. -/
def Mach.dropChallenge (m : Mach) : Mach :=
  let m := m.updSys (fun s => { s with challenge := none })
  m.mapLanes (fun x => { x with regs := (List.range 4).foldl (fun r k => r.put (F.SYS_AUTH_CHALLENGEk_BYTES k) 0) x.regs })

/-- A new challenge replaces the used or expired one, unless the lockout holds or the lifecycle needs none. -/
def Mach.nextChallenge (m : Mach) : Mach :=
  if m.sys.lockout || decide (m.a.lifecycle ≠ 4) then m.dropChallenge else m.offerChallenge

/-! ### A restart (R309, R310) -/

/-- Step 1 of R309 for one lane: the guard gate substitutes every command, the DIO lines go off. -/
def Lane.resetStep1 (x : Lane) : Lane := { x with zvl := { x.zvl with gating := true }, dioNext := 0 }

/-- An honoured reset, of source 1 front, 2 rear, 3 software, 4 power recovery, 5 the end of UPDATE. During BOOT, SELF_TEST
and LOAD BOOT starts at once; elsewhere the reset waits for RESET_ENACT, and in DORMANT for the PLLs (R320). A request that waits is
overtaken only where the reset takes effect first (R294). -/
def Mach.startReset (m : Mach) (source : Nat) : Mach :=
  if m.sys.rst.isSome ∨ m.sys.mode = 0 then m
  else
    let old := m.sys.mode
    let m := m.updSys (fun s => { s with bootTag := if source = 3 then s.bootTag else 0 })
    let m := m.mapLanes (fun x => { x with regs := (x.regs.put F.SYS_RESET_SOURCE source).inc F.SYS_RESET_COUNT })
    let m := (m.record 0x0002 source old 0 0).startFlush
    if old = 2 ∨ old = 3 ∨ old = 4 then m.deviceReset
    else (m.mapLanes Lane.resetStep1).updSys (fun s => { s with rst := some source, rstAt := m.upUs })

/-! ### The outcome of a command -/

/-- R407: a module whose probation has run out of service time is restarted at the first moment it stops being active; where it
stops by a reset, that BOOT is the restart. -/
def Mach.settle (old new : Mach) : Mach :=
  if new.sc.falling && modeActive old.sys.mode && !modeActive new.sys.mode && decide (new.sys.mode ≠ 2) then new.startReset 3
  else new

/-- The outcome of a command: the module changed, the queue as it stands. -/
def State.run (s : State) (f : Mach → Mach) : Host.Outcome State Fault Refusal := .next { s with m := s.m.settle (f s.m) }

end Sys2Proof.Machine
end

