-- ==== Sys2Proof/Machine/LoadOps.lean ====
section
/-!
DEFINITION. Machine/LoadOps.lean: LOAD as the steps of R62: its entry with the header check, the judgement of the lanes'
outcomes (R63) and of the working-table seals (R141), the State Image as built (R41), the end of step 6 with the cluster
origin (R242, R273), the pair's listen (R280) and the proving demands of step 7 (R68).
-/
namespace Sys2Proof.Machine

/-- A failed step (R62): the fault in IMG_LOAD and in an event record, and MAINTENANCE with everything restrictive. -/
def Mach.loadFault (m : Mach) (code lanes : Nat) : Mach :=
  let step := m.fld F.SYS_IMG_LOAD_STEP
  let m := (m.putAll F.SYS_IMG_LOAD_FAULT code).putSc F.UPD_IMG_SLOT_STATUS_LOADING 0
  let m := m.record 0x0010 code step m.sys.slot lanes
  (m.updSys (fun s => { s with step6 := 0, retried := false })).toMaintenance 0

/-! ### The entry into LOAD -/

/-- Lane counters that run since LOAD. -/
def sinceLoad : List Field :=
  [F.RTE_REJECTS_COUNT, F.RTE_OVERRUNS_COUNT, F.ZVL_PASS_MAX_US, F.ZVL_PASS_COUNT_COUNT, F.ZVL_DISC_COUNT_COUNT,
   F.ZVL_FAULT_CAUSE, F.ZVL_STATUS_FAULT,
   F.VOT_COMPARES_COUNT, F.VOT_MISMATCHES_COUNT, F.VOT_EXCLUSION_COUNT, F.VOT_WT_SCAN_FAULT, F.VOT_WT_SCAN_PASSES,
   F.TSU_LANE_ERR_MAX_ABS, F.TSU_PTP_OUTLIERS, F.CLK_WAKES_LATE, F.DMA_PREEMPTED_COUNT laneDma, F.DMA_KBYTES_KBYTES laneDma] ++
  [F.CRC_PORT_SNOOP_FAILS, F.DIO_PULSE_FAILS, F.DIO_PULSE_TESTS, F.DIO_IN_DISAGREE_COUNT]

/-- Port Hub counters that run since LOAD. -/
def sinceLoadHub : List Field := [F.PHB_MARK_SKEW_MAX_NS, F.STG_HEALS_RESTORES, F.STG_HEALS_SPLITS]

def Regs.zero (r : Regs) (fs : List Field) : Regs := fs.foldl (fun r f => r.put f 0) r

/-- A lane at the entry into LOAD: its image is not usable until LOAD has completed. -/
def Lane.enterLoad (x : Lane) : Lane :=
  { x with role := .serving, probation := false, loaded := false, outcome := none, selfFaults := [],
           live := { x.live with node := [] }, regs := x.regs.zero sinceLoad }

/-- The selected slot. -/
def Mach.slotOf (m : Mach) (k : Nat) : FlashSlot := if k = 0 then m.sc.slotA else m.sc.slotB

/-- LOAD_ENTRY (R62 step 1): the header check; step 2, the stream, then runs. -/
def Mach.enterLoad (m : Mach) (tag : Nat) : Mach :=
  let k := m.sc.regs.fld F.UPD_IMG_SELECT_SLOT
  let m := (m.portsStop).mapLanes Lane.enterLoad
  let nodes := (m.ph.nodes.map (fun (e : Nat × Node) => (e.1, { Node.init e.1 with result := e.2.result }))).filter
    (fun e => decide (e.2 ≠ Node.init e.1))
  let m := { m with ph := { m.ph with nodes := nodes } }
  let m := m.setPhRegs (m.ph.regs.zero sinceLoadHub)
  let m := (m.putSc (F.DMA_PREEMPTED_COUNT scDma) 0).putSc (F.DMA_KBYTES_KBYTES scDma) 0
  let m := ((m.refreshServing).lowerReplace).stopDegraded
  let m := (m.putAll F.RED_STATUS_DARN_BARRED 0).putAll F.RED_DARN_STATUS_ATTEMPTS 0
  let m := m.updSys (fun s => { s with
    slot := k, retried := false, step6 := 0, originAgreed := false, preOrigin := false, boundary := false,
    pendingHalt := none, pendingExcl := [], holdupWait := false, active := false })
  let m := { m with fed := ({ m.fed with startState := if m.fed.startState = 6 then 6 else 0, unaligned := false,
                                         listenPartner := false, healthAt := none, seenAt := none, partnerFit := false,
                                         sources := m.fed.sources.map (fun (e : Nat × Source) => (e.1, { e.2 with heard := [], dupAt := 0 })) }) }
  let m := (((m.putAll F.RED_PAIR_STATUS_FIT 0).putAll F.SDB_STATUS_GATING 0).putAll F.FED_STATE_START m.fed.startState).putAll F.FED_STATUS_UNALIGNED 0
  -- R380: a channel with SWITCH_FAULT is forced off until the next LOAD
  let m := ({ m with dio := { m.dio with switchFault := 0, fails := [] } }).dioRegs
  let m := (((m.setMode 4 tag).setCluster 0).updSys (fun s => { s with bc := 0 })).cycleRegs 0
  let m := ((m.putAll F.SYS_IMG_LOAD_SLOT k).putAll F.SYS_IMG_LOAD_FAULT 0).putAll F.SYS_IMG_LOAD_STEP 1
  let m := (m.putSc F.UPD_IMG_SLOT_STATUS_LOADING 1).dropMaster.ptpSelect none
  let s := m.slotOf k
  match if s.state = 2 then Img.step1 ⟨s.bytes, 0⟩ s.len else some 1 with
  | some f => m.loadFault f 0
  | none => m.putAll F.SYS_IMG_LOAD_STEP 2

/-! ### Steps 2 to 5 -/

/-- Base of the staging region (R29). -/
def Lane.stagingBase (x : Lane) : Nat := if x.activeHi then 0 else 0x80000000

/-- The image as it arrived in a lane's staging region; `differing` are bytes that arrived otherwise. -/
def Lane.stream (x : Lane) (s : FlashSlot) (differing : List (Nat × Byte)) : Lane :=
  let d := x.dram.splice x.stagingBase 0x80000000 (s.bytes.filter (fun e => decide (e.1 < s.len)))
  { x with dram := differing.foldl (fun d e => if e.1 < min s.len 0x80000000 then d.put (x.stagingBase + e.1) e.2 else d) d }

def Mach.imageStreamDone (m : Mach) (differing : List (LaneId × Nat × Byte)) : Mach :=
  if m.sys.mode ≠ 4 ∨ m.fld F.SYS_IMG_LOAD_STEP ≠ 2 then m
  else
    let s := m.slotOf m.sys.slot
    let m := laneIds.foldl (fun (m : Mach) l => m.updLane l (fun x =>
      if x.outcome.isNone && x.hostLink then
        x.stream s ((differing.filter (fun e => decide (e.1 = l))).map (fun e => e.2))
      else x)) m
    m.putAll F.SYS_IMG_LOAD_STEP 3

/-- A lane's outcome, with the fault code first (R63). -/
def Lane.scanOutcome (x : Lane) : Nat × W64 :=
  let o := x.stagingImg.outcome (x.regs.fld F.RTE_RULE_IF_MIN) (x.regs.fld F.RTE_RULE_IF_MAX)
  (o.1, o.2.2)

/-- Outcomes that are equal: the same fault code, or no fault with equal pairs of IMAGE_ID and seal. -/
def sameOutcome (x y : Lane) : Bool :=
  match x.outcome, y.outcome with
  | some u, some v => decide (u.1 = v.1) && (decide (u.1 ≠ 0) ||
      (decide (u.2 = v.2) && decide (x.stagingImg.imageId = y.stagingImg.imageId)))
  | _, _ => false

/-- What LANE_OUTCOME_COMPARE decides. -/
inductive LoadVerdict where
  | pass
  | fault (code : Nat)
  | retry (l : LaneId)
  deriving DecidableEq, Repr

/-- What two equal outcomes stand for: a fault, fault 3 where the seal is not the stored one, or none. -/
def Lane.outcomeFault (x : Lane) : Nat :=
  match x.outcome with
  | some (0, s) => if s.toNat = x.stagingImg.storedSeal then 0 else 3
  | some (f, _) => f
  | none => 9

/-- R63. -/
def Mach.judgeLoad (m : Mach) : LoadVerdict × Nat :=
  let ab := sameOutcome m.a m.b
  let bc := sameOutcome m.b m.c
  let ac := sameOutcome m.a m.c
  let odd := fun (x : Lane) (l : LaneId) =>
    let f := x.outcomeFault
    (if f ≠ 0 then LoadVerdict.fault f else if m.sys.retried then .fault 9 else .retry l, laneSet (fun k => k == l))
  if ab && bc then (if m.a.outcomeFault = 0 then .pass else .fault m.a.outcomeFault, 0)
  else if ab then odd m.a .c
  else if ac then odd m.a .b
  else if bc then odd m.b .a
  else (.fault 9, 7)

/-- The step at which a judged fault was found: 3 or 4 where lanes agree on the code they found, else 5. -/
def Mach.judgedStep (m : Mach) (f : Nat) : Nat :=
  match (if sameOutcome m.a m.b || sameOutcome m.a m.c then m.a else m.b) with
  | x =>
    match x.outcome with
    | some (g, _) => if g ≠ 0 ∧ g = f then (if (firstFault x.stagingImg.step3).isSome then 3 else 4) else 5
    | none => 5

def Mach.imageScanDone (m : Mach) (l : LaneId) : Mach :=
  if m.sys.mode ≠ 4 ∨ m.fld F.SYS_IMG_LOAD_STEP ≠ 3 ∨ (m.lane l).outcome.isSome then m
  else
    let m := m.updLane l (fun x => { x with outcome := some x.scanOutcome })
    if laneIds.any (fun k => (m.lane k).outcome.isNone) then m
    else
      let m := m.putAll F.SYS_IMG_LOAD_STEP 5
      match m.judgeLoad with
      | (.pass, _) => m.putAll F.SYS_IMG_LOAD_STEP 6
      | (.fault f, ls) => (m.putAll F.SYS_IMG_LOAD_STEP (m.judgedStep f)).loadFault f ls
      | (.retry k, _) =>
        ((m.updLane k (fun x => { x with outcome := none })).updSys (fun s => { s with retried := true })).putAll
          F.SYS_IMG_LOAD_STEP 2

/-! ### Step 6 -/

/-- A State Image record at LOAD (R41). -/
def Img.firstRec (i : Img) (o : Nat) : ObjRec :=
  let v := i.restrReading o
  let comm : W32 := if i.cls o = 9 ∨ i.onDio o then 0x10000000 else if i.onNode o then 0x20000000 else 0
  { ObjRec.zero 0 with
    object := o, cls := i.cls o, area := i.area o, commanded := BitVec.ofNat 32 (i.restrictive o),
    detected := BitVec.ofNat 32 v.det, inputs := v.inputs, comm := comm }

def Img.firstSi (i : Img) : SI := i.objects.foldl (fun s o => SI.upd s o (fun _ => i.firstRec o)) ([] : SI)

/-- Output channels as DIO.DIR shows them (R371). -/
def Img.dioDir (i : Img) : Nat :=
  bitmap 64 (fun ch => i.objects.any (fun o => i.onDio o && (List.range 8).any (fun k => i.isOutput o k && decide (i.channel o k = ch))))

/-- Step 6 in one lane: the roles of the regions swap, the State Image is built, and the engines start from nothing. -/
def Lane.buildTables (x : Lane) (ws : W64) : Lane :=
  let y := { x with activeHi := !x.activeHi, wtSeal := ws }
  let i := y.img
  let dir := i.dioDir
  let r := ((y.regs.put F.SYS_IMG_ID_IMAGE_ID i.imageId).put F.SYS_IMG_SEAL_LO_SEAL_LO i.storedSeal).put
    F.SYS_IMG_SEAL_HI_SEAL_HI (i.storedSeal / 2 ^ 32)
  { y with regs := (r.put F.DIO_DIR_LO_OUTPUT dir).put F.DIO_DIR_HI_OUTPUT (dir / 2 ^ 32), si := i.firstSi, rte := Rte.reset,
           zvl := Zvl.reset, live := InputSet.empty, latched := InputSet.empty, payloads := [], staged := [], fedOut := [],
           dioNext := 0, zeroDie := false, zeroDram := false }.imageRegs.zvlRegs

/-- Whether three values agree: all, or two with the odd lane, or none. -/
def oddOf (a b c : W64) : Option (Option LaneId) :=
  if a = b ∧ b = c then some none
  else if a = b then some (some .c)
  else if a = c then some (some .b)
  else if b = c then some (some .a)
  else none

/-- WORKING_TABLES_BUILT (R62 step 6, R141): `step6` is 2 after a rebuild of one lane. -/
def Mach.tablesBuilt (m : Mach) (sa sb sc : W64) : Mach :=
  if m.sys.mode ≠ 4 ∨ m.fld F.SYS_IMG_LOAD_STEP ≠ 6 ∨ (m.sys.step6 ≠ 0 ∧ m.sys.step6 ≠ 2) then m
  else
    let again := decide (m.sys.step6 = 2)
    let m := if again then ({ m with a := { m.a with wtSeal := sa }, b := { m.b with wtSeal := sb }, c := { m.c with wtSeal := sc } })
      else { m with a := m.a.buildTables sa, b := m.b.buildTables sb, c := m.c.buildTables sc }
    match oddOf sa sb sc with
    | none => m.loadFault 9 7
    | some (some l) =>
      if again then m.loadFault 9 (laneSet (fun k => k == l)) else m.updSys (fun s => { s with step6 := 2 })
    | some none =>
      let m := (m.mapLanes Lane.copyOnDie).updSys (fun s => { s with step6 := 1 })
      let m := (m.putAll F.FED_STATE_MODULE m.leadLane.img.moduleNumber).portsConfig
      if m.leadLane.img.federates && decide (m.fed.startState = 0) then m.startListen else m

/-! ### The end of step 6, the listen, step 7 -/

/-- The demands of an object (R68). A PROVING_THROW other than 1 is no throw demand (DEDUCED, assumption 130). -/
def Img.setDemands (i : Img) (o : Nat) (r : ObjRec) : ObjRec :=
  { r with proving := BitVec.ofNat 8 ((i.proving o).1 &&& i.inputMask o),
           release := BitVec.ofNat 8 (putBit r.release.toNat 7 (decide (i.cls o = 2) && decide ((i.proving o).2 = 1))) }

/-- PROVING_DEMANDS_SET (R68) in one lane. -/
def Lane.setDemands (x : Lane) : Lane :=
  let i := x.img
  let s := i.objects.foldl (fun s o => SI.upd s o (i.setDemands o)) x.si
  { x with si := s, regs := x.regs.put F.SYS_IMG_PROVING_OUTSTANDING (outstanding s) }

/-- LOAD is complete: the lanes hold a verified image, and REQ_SEQ starts from 1 (R79). -/
def Mach.loadDone (m : Mach) : Mach :=
  let m := (m.mapLanes (fun x => { x with loaded := true })).putAll F.SYS_IMG_LOAD_STEP 8
  let m := (m.putSc F.UPD_IMG_SLOT_STATUS_LOADING 0).updSys (fun s => { s with step6 := 0 })
  { m with nextSeq := 1, lastSeq := 0 }

/-- Step 7: the demands and PROVING. -/
def Mach.step7 (m : Mach) : Mach :=
  let m := ((m.putAll F.SYS_IMG_LOAD_STEP 7).mapLanes Lane.setDemands).loadDone
  let m := { m with fed := { m.fed with listenPartner := false, sentQueue := [] } }
  m.setMode 5 0

/-- A unit enters STANDBY (R280, R288): it runs no port, holds no Seedbank yet, and its lanes count as not tested. -/
def Mach.enterStandby (m : Mach) : Mach :=
  let m := { m with fed := ({ m.fed with
    listenPartner := false, sentQueue := [], partnerFit := false, ready := false, decided := none, handback := none, final := false,
    finalApplied := false, testLane := none, testedAt := [], testTurn := 0, voids := 0, pairOffset := 0 }) }
  let m := m.mapLanes (fun x => { x with sb := Seedbank.empty })
  let m := (((m.putAll F.SDB_ROLE_ROLE 2).putAll F.SDB_STATUS_CURRENT 0).putAll F.SDB_STATUS_STALE 1).putAll F.SDB_STATUS_GATING 0
  let m := ((m.putAll F.RED_PAIR_STATUS_FIT 0).putAll F.RED_PAIR_STATUS_UNFIT 0).putAll F.RED_PAIR_STATUS_HOLD_ELAPSED 0
  let m := ((m.putAll F.RED_STANDBY_BIST_TESTING 0).putAll F.RED_STANDBY_BIST_PASSES 0).putAll F.RED_STANDBY_BIST_LANE 0
  m.setMode 8 0

/-- A paired unit that finds an active partner during the listen enters STANDBY, with no demands (R280). -/
def Mach.toStandby (m : Mach) : Mach := m.loadDone.enterStandby

/-- The middle of three proposals. -/
def median3 (a b c : Nat) : Nat := max (min a b) (min (max a b) c)

/-- End of step 6: each lane proposes its module time plus 1 ms, and the median is CLUSTER_ORIGIN (R242). `aligned`: at the
first instant at which that is a multiple of 4 ms (R273). No step is allowed from here on (R241). -/
def Mach.endStep6 (m : Mach) (aligned : Bool) : Mach :=
  let prop := fun (x : Lane) => x.time.at x.time.count + 1000000
  let o := median3 (prop m.a) (prop m.b) (prop m.c)
  let o := if aligned then ceilDiv o 4000000 * 4000000 else o
  let m := m.mapLanes (fun x => { x with
    time := { x.time with origin := o }
    regs := (x.regs.put F.TSU_ORIGIN_LO_ORIGIN o).put F.TSU_ORIGIN_HI_ORIGIN (o / 2 ^ 32) })
  let m := ((m.setCluster 0).updSys (fun s => { s with originAgreed := true, preOrigin := true, bc := 0 })).cycleRegs 0
  let m := m.putAll F.TSU_STATUS_STEP_ALLOWED 0
  if m.paired then
    { (m.updSys (fun s => { s with step6 := 4 })) with fed := { m.fed with listenPartner := true } }
  else m.step7

/-- ON_DIE_COMPARE_DONE. -/
def Mach.onDieDone (m : Mach) : Mach :=
  if m.sys.mode ≠ 4 ∨ m.fld F.SYS_IMG_LOAD_STEP ≠ 6 ∨ m.sys.step6 ≠ 1 then m
  else
    let bad := laneSet (fun l => !(m.lane l).onDieOk)
    if bad ≠ 0 then m.loadFault 13 bad
    else if m.leadLane.img.federates then m.updSys (fun s => { s with step6 := 3 })
    else m.endStep6 false

/-- FED_TIME_ALIGNED (R273): federation time is valid. -/
def Mach.fedAligned (m : Mach) : Mach :=
  if m.sys.mode = 4 ∧ m.sys.step6 = 3 ∧ m.fed.ptpValid then m.endStep6 true else m

/-- START_WAIT_EXPIRY (R273): the module counts as unaligned until a later LOAD. -/
def Mach.startWaitOver (m : Mach) : Mach :=
  if m.sys.mode = 4 ∧ m.sys.step6 = 3 ∧ !m.fed.ptpValid then
    let m := { m with fed := { m.fed with unaligned := true } }
    (m.putAll F.FED_STATUS_UNALIGNED 1).endStep6 false
  else m

/-- PAIR_LISTEN_END (R280). -/
def Mach.pairListenEnd (m : Mach) : Mach := if m.sys.mode = 4 ∧ m.sys.step6 = 4 then m.step7 else m

/-- A sign of an active partner during the listen. -/
def Mach.partnerHeard (m : Mach) : Mach := if m.sys.mode = 4 ∧ m.sys.step6 = 4 then m.toStandby else m

end Sys2Proof.Machine
end

