-- ==== Sys2Proof/Machine/Power.lean ====
section
/-!
DEFINITION. Machine/Power.lean: the commands of power, reset, BOOT and SELF_TEST (chapters 10 and 16), of a host BIST run's end
(R303 to R305) and of probation (R403, R407).
-/
namespace Sys2Proof.Machine

/-! ### Feeds and holdup (R300, R311 to R315, R430 to R436) -/

/-- SYS.FEEDS. -/
def Mach.feedVolts (m : Mach) (a b : Nat) : Mach := (m.putAll F.SYS_FEEDS_FEED_A a).putAll F.SYS_FEEDS_FEED_B b

def Mach.setFeed (m : Mach) (f : Feed) (on : Bool) : Mach :=
  match f with
  | .feedA => (m.updSys (fun s => { s with feedA := on })).putAll F.SYS_STATUS_FEED_A (b2n on)
  | .feedB => (m.updSys (fun s => { s with feedB := on })).putAll F.SYS_STATUS_FEED_B (b2n on)

/-- OFF to DORMANT (R300): a power-on reset, which BOOT follows once the PLLs have locked. R7 gives OFF no code: the transition
reports 0 as the mode left (DESIGN CHOICE, assumption 64). The event recorder's sequences go on from flash (R392). -/
def Mach.powerOn (m : Mach) : Mach := ((m.setMode 1 0).updSys (fun s => { s with rst := some 0 })).evrHead

def voltsOf (f : Feed) (a b : Nat) : Nat := match f with | .feedA => a | .feedB => b

/-- FEED_PRESENT (R311): at or above 16.8 V. -/
def Mach.feedPresent (m : Mach) (f : Feed) (a b : Nat) : Mach :=
  let m := m.feedVolts a b
  if voltsOf f a b < 168 then m
  else
    let m := (m.setFeed f true).updSys (fun s => { s with powerLoss := false })
    if m.sys.mode = 0 then m.powerOn else m

def execFeedPresent (f : Feed) (voltsA voltsB : W16) (s : State) : Host.Outcome State Fault Refusal :=
  s.run (fun m => m.feedPresent f voltsA.toNat voltsB.toNat)

/-- POWER_LOSS (R312, R314): both feeds are lost. A loss declared in UPDATE is marked there, for Sprout and the recovery go by it. -/
def Mach.declareLoss (m : Mach) (a b : Nat) : Mach :=
  let quiet := decide (m.sys.mode = 1) || decide (m.sys.mode = 13)
  let m := (m.updSys (fun s => { s with powerLoss := true, rideOver := s.rideOver || decide (s.mode = 13) })).raiseAll .sys I.SYS_POWER_LOSS
  let m := m.putAll F.SYS_HOLDUP_TESTING 0
  let m := if quiet then m.scRecord 0x0004 a b 0 0 else m.record 0x0004 a b 0 0
  m.startFlush

/-- FEED_LOST (R311): below 16.0 V. -/
def Mach.feedLost (m : Mach) (f : Feed) (a b : Nat) : Mach :=
  if m.sys.mode = 0 then m
  else
    let m := m.feedVolts a b
    if 160 ≤ voltsOf f a b then m
    else
      let m := m.setFeed f false
      if m.sys.feedA || m.sys.feedB || m.sys.powerLoss then m else m.declareLoss a b

def execFeedLost (f : Feed) (voltsA voltsB : W16) (s : State) : Host.Outcome State Fault Refusal :=
  s.run (fun m => m.feedLost f voltsA.toNat voltsB.toNat)

/-- RIDE_THROUGH_EXPIRY (R312, R314). -/
def Mach.rideExpiry (m : Mach) : Mach :=
  if !m.sys.powerLoss then m else (m.updSys (fun s => { s with rideOver := s.rideOver || decide (s.mode = 13) })).safeHalt 10

def execRideThroughExpiry (s : State) : Host.Outcome State Fault Refusal := s.run Mach.rideExpiry

/-- POWER_RECOVERY (R313, R314): a feed has been present for 1 s, in SAFE_HALT with cause 10 or after a loss in UPDATE. -/
def Mach.powerRecovery (m : Mach) : Mach :=
  if (m.sys.feedA || m.sys.feedB) &&
      ((decide (m.sys.mode = 13) && m.sys.rideOver) || (decide (m.sys.mode = 14) && decide (m.fld F.SYS_HALT_CAUSE = 10)))
  then (m.updSys (fun s => { s with rideOver := false })).startReset 4 else m

def execPowerRecovery (s : State) : Host.Outcome State Fault Refusal := s.run Mach.powerRecovery

/-- A lane without power: its straps and fuses. -/
def Lane.off (x : Lane) : Lane := { Lane.reset with regs := x.regs.straps, lifecycle := x.lifecycle, serial := x.serial, golden := x.golden }

/-- The module without power (R435): what flash, fuses and the host hold stays. While the host asserts PERST# the links of all three lanes stay
failed (R440, R31). -/
def Mach.powerOff (m : Mach) : Mach :=
  let m := if m.sys.mode = 13 then m.updateInterrupted else m
  let m := (m.settleWaiting).flushNewest
  let sc := { m.sc with linkUp := false, perst := m.sc.perst.map (fun _ => 7) }.afterReset
  let m := { (m.mapLanes (fun x => { x.off with hostLink := m.sc.perst.isNone })) with
    ph := { Ph.reset with golden := m.ph.golden }, sc := { sc with dram := [] }, fed := Fed.reset, dio := Dio.reset,
    clk := Clks.reset, msi := Msix.reset, sys := { Sys.reset with mode := 0, fuse := m.sys.fuse, key := m.sys.key, keySet := m.sys.keySet, free := m.sys.free } }
  m.putAll F.SYS_STATUS_MODE 0

/-- HOLDUP_EXHAUSTED (R435): with both feeds lost. -/
def execHoldupExhausted (s : State) : Host.Outcome State Fault Refusal :=
  s.run (fun m => if m.sys.powerLoss && decide (m.sys.mode ≠ 0) then m.powerOff else m)

/-- Entry into LOAD under R306: at once when the holdup is ready, else when it becomes so. The TAG is that of the request that
asked for it. -/
def Mach.loadWhenReady (m : Mach) : Mach :=
  if m.sys.holdupReady then
    let m := m.updSys (fun s => { s with holdupWait := false, returning := false })
    if m.sys.mode = 12 then (m.putAll F.SYS_MODE_RESULT_RESULT 2).enterLoad (m.fld F.SYS_MODE_RESULT_TAG) else m.enterLoad 0
  else m.updSys (fun s => { s with holdupWait := true })

/-- SYS.HOLDUP with a capacity; 40 ms or more is ready (R306). -/
def Mach.holdupRegs (m : Mach) (capacity pct : Nat) : Mach :=
  let ready := decide (40 ≤ capacity)
  let m := m.mapLanes (fun x => { x with regs :=
    (((((x.regs.put F.SYS_HOLDUP_CAPACITY_MS capacity).put F.SYS_HOLDUP_CHARGE_PCT pct).put F.SYS_HOLDUP_TESTING 0).put
      F.SYS_HOLDUP_READY (b2n ready)).put F.SYS_STATUS_HOLDUP_READY (b2n ready)) })
  m.updSys (fun s => { s with holdupReady := ready })

/-- The holdup controller reports a capacity: an entry into LOAD that waits proceeds with READY (R306), and READY falling in a mode that
serves is reported (R315). -/
def Mach.holdupReport (m : Mach) (capacity pct : Nat) : Mach :=
  let was := m.sys.holdupReady
  let m := m.holdupRegs capacity pct
  if m.sys.holdupWait && m.sys.holdupReady then m.loadWhenReady
  else if was && !m.sys.holdupReady && modeActive m.sys.mode then
    (m.raiseAll .sys I.SYS_HOLDUP_LOW).record 0x0005 capacity pct 0 0
  else m

/-- HOLDUP_READY (R306). During a power loss, which has abandoned the measurement, it brings the charge alone (R436, R433). -/
def Mach.holdupNow (m : Mach) (capacity pct : Nat) : Mach :=
  if m.sys.mode = 0 then m
  else if m.sys.powerLoss then m.putAll F.SYS_HOLDUP_CHARGE_PCT pct
  else m.holdupReport capacity pct

def execHoldupReady (capacityMs : W16) (chargePct : BitVec 8) (s : State) : Host.Outcome State Fault Refusal :=
  s.run (fun m => m.holdupNow capacityMs.toNat chargePct.toNat)

/-- HOLDUP_READY_TIMEOUT (R306): READY has not been reached. -/
def execHoldupReadyTimeout (s : State) : Host.Outcome State Fault Refusal :=
  s.run (fun m => if m.sys.holdupWait && !m.sys.holdupReady then m.safeHalt 13 else m)

/-- HOLDUP_MEASUREMENT (R315, R322): with no capacity the partial discharge begins and TESTING shows it; with one it ends with that
result. One that power loss has abandoned gives none (R436); the charge shows whenever one is brought
(R433). -/
def Mach.holdupMeasured (m : Mach) (capacity : Option Nat) (pct : Nat) : Mach :=
  let n := m.putAll F.SYS_HOLDUP_CHARGE_PCT pct
  if m.sys.mode = 0 then m
  else if m.sys.powerLoss then n
  else match capacity with
    | none => n.putAll F.SYS_HOLDUP_TESTING 1
    | some c => if m.fld F.SYS_HOLDUP_TESTING = 0 then n else m.holdupReport c pct

def execHoldupMeasurement (capacityMs : Option W16) (chargePct : BitVec 8) (s : State) : Host.Outcome State Fault Refusal :=
  s.run (fun m => m.holdupMeasured (capacityMs.map (·.toNat)) chargePct.toNat)

/-! ### Reset (R300, R307 to R310, R320) -/

/-- PLL_LOCKED: BOOT follows a power-on, an edge or a wake request in DORMANT. -/
def Mach.pllLocked (m : Mach) (us : Nat) : Mach :=
  if m.sys.mode = 0 then m
  else
    let m := if m.sys.mode = 1 && m.sys.rst.isSome then m.deviceReset else m
    let m := m.mapLanes (fun x => { x with regs := (((x.regs.put F.CLK_PLL_LOCK_US us).put F.CLK_STATUS_PLL_LOCKED 1).put
      F.CLK_STATUS_MONITOR_OK 1) })
    m.raiseAll .clk I.CLK_PLL_LOCK

def execPllLocked (lockUs : BitVec 8) (s : State) : Host.Outcome State Fault Refusal := s.run (fun m => m.pllLocked lockUs.toNat)

def Mach.input (m : Mach) : ResetInput → InputState
  | .front => m.sys.front
  | .rear => m.sys.rear

def Mach.setInput (m : Mach) (i : ResetInput) (v : InputState) : Mach :=
  let m := match i with
    | .front => m.updSys (fun s => { s with front := v })
    | .rear => m.updSys (fun s => { s with rear := v })
  m.mapLanes (fun x => { x with regs := (((x.regs.put F.SYS_RESET_FRONT_STUCK (b2n m.sys.front.stuck)).put
    F.SYS_RESET_REAR_STUCK (b2n m.sys.rear.stuck)).put F.SYS_STATUS_RESET_STUCK (b2n (m.sys.front.stuck || m.sys.rear.stuck))) })

def inputSource : ResetInput → Nat
  | .front => 1
  | .rear => 2

/-- RESET_EDGE (R307): while released; a second edge during a reset is ignored (R309). -/
def Mach.resetEdge (m : Mach) (i : ResetInput) : Mach :=
  if m.sys.mode = 0 ∨ !(m.input i).released ∨ (m.input i).stuck then m
  else (m.setInput i ⟨false, false⟩).startReset (inputSource i)

def execResetEdge (i : ResetInput) (s : State) : Host.Outcome State Fault Refusal := s.run (fun m => m.resetEdge i)

/-- RESET_STUCK (R308). -/
def Mach.resetStuck (m : Mach) (i : ResetInput) : Mach :=
  if m.sys.mode = 0 ∨ (m.input i).stuck then m
  else
    let m := (m.setInput i ⟨false, true⟩).incAll F.SYS_RESET_STUCK_COUNT
    (m.raiseAll .sys I.SYS_RESET_STUCK).record 0x0003 (inputSource i) 0 0 0

def execResetStuck (i : ResetInput) (s : State) : Host.Outcome State Fault Refusal := s.run (fun m => m.resetStuck i)

/-- RESET_RELEASED (R307). -/
def execResetReleased (i : ResetInput) (s : State) : Host.Outcome State Fault Refusal :=
  s.run (fun m => if m.sys.mode = 0 then m else m.setInput i ⟨true, false⟩)

/-- RESET_ENACT (R309): at the first cluster boundary at least 1 ms after the edge, or, while no origin is agreed, 1 ms after it. -/
def Mach.resetEnact (m : Mach) : Mach :=
  if 2 ≤ m.sys.mode ∧ m.resetDue then (if m.sys.mode = 13 then m.updateInterrupted else m).deviceReset else m

def execResetEnact (s : State) : Host.Outcome State Fault Refusal := s.run Mach.resetEnact

/-! ### BOOT (R301) -/

/-- Slots left in WRITING or ERASING are FAILED (R61). -/
def FlashSlot.afterBoot (s : FlashSlot) : FlashSlot := if s.state = 1 ∨ s.state = 4 then { s with state := 3, closing := false } else s

/-- The registers that show the slots. -/
def Mach.slotRegs (m : Mach) : Mach :=
  let id := fun (s : FlashSlot) => if s.state = 2 then Img.imageId ⟨s.bytes, 0⟩ else 0
  let c := m.sc
  { m with sc := ({ c with regs := (((((c.regs.put F.UPD_IMG_SLOT_STATUS_A_STATE c.slotA.state).put F.UPD_IMG_SLOT_STATUS_B_STATE
    c.slotB.state).put F.UPD_IMG_SLOT_STATUS_SELECTED (c.regs.fld F.UPD_IMG_SELECT_SLOT)).put F.UPD_IMG_A_ID_IMAGE_ID
    (id c.slotA)).put F.UPD_IMG_B_ID_IMAGE_ID (id c.slotB)) }) }

/-- Every TTP page raises LINK (R439). -/
def Mach.rtmLink (m : Mach) : Mach := (List.finRange 16).foldl (fun (m : Mach) p => m.raisePh (.ttp p) I.TTP_LINK) m

/-- The bytes of the RTM's EEPROM (R439): identity, 32 delays of two bytes, CRC-32C of all before it, each number with its most significant
byte first (assumption 141). -/
def rtmOf (l : List Byte) : Option Rtm :=
  let n := l.length - 68
  if 68 ≤ l.length ∧ ofBe (l.drop (n + 64)) = (crc32c (l.take (n + 64))).toNat then
    some ⟨l.take n, (List.range 32).map (fun k => ofBe ((l.drop (n + 2 * k)).take 2))⟩
  else none

/-- RTM_TABLE_READ (R439), no byte where the RTM is absent: without the table no port starts, and every TTP page raises LINK; the manual
gives the event record no code, so its content is a free value. -/
def Mach.readRtm (m : Mach) (eeprom : List Byte) : Mach :=
  let t := rtmOf eeprom
  let m := m.updSys (fun s => { s with rtm := t })
  if t.isSome then m
  else
    let m := m.rtmLink
    let f := m.fresh
    let g := f.2.fresh
    (g.2).scRecord ((Config.freeWord f.1).toNat % 65536) (Config.freeWord g.1).toNat 0 0 0

/-- The three lanes read the same lifecycle state and serial number. -/
def Mach.fusesAgree (m : Mach) : Bool :=
  decide (m.a.lifecycle = m.b.lifecycle) && decide (m.a.lifecycle = m.c.lifecycle) && decide (m.a.serial = m.b.serial) &&
  decide (m.a.serial = m.c.serial)

def allDevices : List Device := [.lane .a, .lane .b, .lane .c, .portHub]

/-- A BIST run of every device starts (R302). -/
def Mach.startSelfTest (m : Mach) (ds : List Device) : Mach :=
  let m := m.updSys (fun s => { s with bistBad := 0, bistDone := [] })
  ds.foldl (fun (m : Mach) d => m.bistBegin d false) m

/-- The lanes that a return to service has still to test: excluded or tested by software since the last SELF_TEST, and not tested since
it was asked for (R318). -/
def Mach.toRetest (m : Mach) : List LaneId :=
  laneIds.filter (fun l => (m.sys.retest.contains l || decide ((m.lane l).role ≠ .serving)) && !m.sys.bistDone.contains (.lane l))

/-- BOOT_COMPLETE. -/
def Mach.bootComplete (m : Mach) (eeprom : List Byte) : Mach :=
  if m.sys.mode ≠ 2 then m
  else
    let m := (((m.fillFuses).evrRestore).sproutStage 0).updRegs
    let m : Mach := { m with sc := { m.sc with slotA := m.sc.slotA.afterBoot, slotB := m.sc.slotB.afterBoot } }
    let m := (((m.fillSettings).fillBuild).slotRegs).readRtm eeprom
    let m := (m.putSc F.HBR_STATUS_KEY_SET (b2n m.sys.keySet)).mapLanes (fun x => { x with
      regs := x.regs.put F.EVL_STATUS_RUNNING (b2n x.hostLink) })
    let m : Mach := (m.putAll F.TSU_STATUS_RUNNING 1).ptpCfg
    let life : Nat := m.a.lifecycle
    if !m.fusesAgree || decide (life = 1) || decide (life = 5) then m.safeHalt 11
    else if !m.sc.verified then m.safeHalt 12
    else ((m.nextChallenge).setMode 3 0).startSelfTest allDevices

def execBootComplete (eeprom : List Byte) (s : State) : Host.Outcome State Fault Refusal := s.run (fun m => m.bootComplete eeprom)

/-- BOOT_TIMEOUT (R301). -/
def execBootTimeout (s : State) : Host.Outcome State Fault Refusal :=
  s.run (fun m => if m.sys.mode = 2 then m.safeHalt 12 else m)

/-! ### BIST runs (R302 to R305, R318) -/

/-- What the registers of the servo and of PTP hold: they stand in the always-on domain and go on through a lane's test. -/
def servoReg (a : Nat) : Bool :=
  decide (a / 0x1000 = blkBase .tsu / 0x1000) && (decide (0x40 ≤ a % 0x1000) || decide (a % 0x1000 = 0x0C))

/-- The registers of SYS and BST that the re-initialisation leaves: what the always-on domain and the holdup controller hold and what the
module shows of its mode and requests (R309, R322), and the results it has just kept (R303). -/
def heldReg (a : Nat) : Bool :=
  let o := a % 0x1000
  (decide (a / 0x1000 = blkBase .sys / 0x1000) && (decide (o = 0x0C) || (decide (0x44 ≤ o) && decide (o < 0x80)))) ||
  (decide (a / 0x1000 = blkBase .bst / 0x1000) && (decide (o = 0x0C) || (decide (0x44 ≤ o) && decide (o < 0x68))))

/-- A lane re-initialised (R302 step 4): every register at its reset value but for what the always-on domain holds and the results kept,
on-die SRAM zero, and the BOOT values written again. -/
def Mach.reinit (m : Mach) (l : LaneId) : Mach :=
  let x := m.lane l
  let own := x.regs.filter (fun e => heldReg e.1 || servoReg e.1)
  let k := own.foldl (fun r e => Regs.set r e.1 e.2) x.regs.afterReset
  let y : Lane := { Lane.reset with
    role := x.role, hostLink := x.hostLink, regs := k, dram := x.dram, own := x.own, zeroDram := x.zeroDram, time := x.time,
    events := x.events, evLost := x.evLost, lifecycle := x.lifecycle, serial := x.serial, golden := x.golden, activeHi := x.activeHi }
  let y := m.fillLane (Lane.fillFuses (laneIx l) y.zeroSram)
  let r := (((x.evlKept y.regs).put F.TSU_STATUS_RUNNING 1).put F.EVL_STATUS_RUNNING (b2n x.hostLink)).put F.CRC_STATUS_CHANNELS
    (b2n (modeSteps m.sys.mode))
  (m.setLane l { y with regs := r }).refreshServing

/-- The Port Hub re-initialised; the pages of an absent RTM raise LINK again. -/
def Mach.reinitHub (m : Mach) : Mach :=
  let own := m.ph.regs.filter (fun e => heldReg e.1)
  let m := { m with ph := { Ph.reset with golden := m.ph.golden, regs := own } }
  let m := m.setPhRegs (Machine.fillSettings m.sc.settingsNow hubSettings m.ph.regs)
  if m.sys.rtm.isSome then m else m.rtmLink

/-- The worse of two results: 8 failed, 9 void, 0 neither (R303). -/
def worseBist (bad res : Nat) : Nat := if res = 2 ∨ bad = 8 then 8 else if res = 3 ∨ bad = 9 then 9 else 0

/-- The lane of a device. -/
def laneOfDevice : Device → Option LaneId
  | .lane l => some l
  | .portHub => none

/-- A return to service when no test runs: what is left to test is tested; a failed or void run ends it as at power-up (R303), else it goes
on to LOAD (R318). -/
def Mach.goOn (m : Mach) : Mach :=
  if m.sys.bistBad ≠ 0 then m.safeHalt m.sys.bistBad
  else if m.toRetest.isEmpty then m.loadWhenReady
  else m.toRetest.foldl (fun (m : Mach) l => m.bistBegin (.lane l) false) m

/-- BIST_DONE: the result is kept and the device re-initialised. -/
def Mach.bistDone (m : Mach) (d : Device) (r : BistRun) : Mach :=
  if !m.sys.bistRun.contains d then m
  else
    let host := m.sys.bistHost.contains d
    let src := if host then 4 else 1
    let scope := if host then m.bistScope d else 3
    let res := m.bistOf d r scope
    let m := m.bistRegs d r src scope
    let m := match laneOfDevice d with
      | some l => m.reinit l
      | none => m.reinitHub
    let m := ((m.bistEnd d).updSys (fun s => { s with
      bistDone := if host then s.bistDone.filter (fun e => decide (e ≠ d)) else s.bistDone ++ [d],
      bistBad := if host then s.bistBad else worseBist s.bistBad res,
      retest := (match laneOfDevice d with
        | some l => if host && !s.retest.contains l then s.retest ++ [l] else s.retest
        | none => s.retest) })).bistRaise d res
    if decide (m.sys.mode = 12) && m.sys.returning && m.sys.bistRun.isEmpty then m.goOn else m

def execBistDone (d : Device) (r : BistRun) (s : State) : Host.Outcome State Fault Refusal := s.run (fun m => m.bistDone d r)

/-- SELF_TEST_COMPLETE (R302, R303, R306). -/
def Mach.selfTestComplete (m : Mach) : Mach :=
  if m.sys.mode ≠ 3 ∨ !m.sys.bistRun.isEmpty ∨ m.sys.holdupWait then m
  else if m.sys.bistBad ≠ 0 then m.safeHalt m.sys.bistBad
  else if m.a.lifecycle = 2 then m.setMode 12 0
  else m.loadWhenReady

def execSelfTestComplete (s : State) : Host.Outcome State Fault Refusal := s.run Mach.selfTestComplete

/-! ### The end of UPDATE, and probation (R403, R407) -/

/-- PATCH_WRITE_DONE: UPDATE ends with BOOT, source 5. From the declaration of a power loss on Sprout starts no further write and marks
nothing more (R314). -/
def Mach.patchWriteDone (m : Mach) : Mach :=
  if m.sys.mode ≠ 13 ∨ m.sys.rst.isSome ∨ m.sys.rideOver then m
  else
    let m := match m.patchForm with
      | some (reason, k) => m.patchRefused reason k m.patchVersion m.patchComponents
      | none =>
        let mask := m.patchComponents
        let old := versionOf m.sc.running mask
        let m := (m.patchWrite (fun _ => some true)).updLast 1 0 mask
        (m.sproutRecord 0x7003 mask m.patchVersion old 0).raiseSc .upd I.UPD_WRITTEN
    let m := m.mapLanes (fun x => { x with regs := (x.regs.put F.SYS_RESET_SOURCE 5).inc F.SYS_RESET_COUNT })
    (m.record 0x0002 5 13 0 0).deviceReset

def execPatchWriteDone (s : State) : Host.Outcome State Fault Refusal := s.run Mach.patchWriteDone

/-- PATCH_CONFIRM (R407). -/
def Mach.patchConfirm (m : Mach) : Mach :=
  match m.sc.probation with
  | none => m
  | some mask =>
    if m.sc.falling ∨ m.sc.regs.fld F.UPD_PROBATION_CONFIRM_S < 300 ∨ !m.confirming then m
    else
      let v := versionOf m.sc.running mask
      let boots := m.sc.regs.fld F.UPD_PROBATION_BOOTS
      let s := m.sc.serviceS
      let m := { m with sc := { m.sc with probation := none, snapshot := none, serviceS := 0 } }
      let m := ((m.putSc F.UPD_PROBATION_BOOTS 0).putSc F.UPD_PROBATION_CONFIRM_S 0).updLast 3 0 mask
      ((m.updRegs).scRecord 0x7005 v boots s 0).raiseSc .upd I.UPD_CONFIRMED

def execPatchConfirm (s : State) : Host.Outcome State Fault Refusal := s.run Mach.patchConfirm

/-- PROBATION_EXPIRY (R407): stored while the module is active; elsewhere it restarts at once. -/
def Mach.probationExpiry (m : Mach) : Mach :=
  match m.sc.probation with
  | none => m
  | some mask =>
    if m.sc.falling ∨ m.sc.serviceS < 1800 then m
    else
      let m := { m with sc := { m.sc with falling := true } }
      if modeActive m.sys.mode then
        let m := (m.scRecord 0x7007 (versionOf m.sc.running mask) m.sc.serviceS m.sys.mode 0).updLast 5 7 mask
        m.raiseSc .upd I.UPD_PROBATION_EXPIRED
      else m.startReset 3

def execProbationExpiry (s : State) : Host.Outcome State Fault Refusal := s.run Mach.probationExpiry

end Sys2Proof.Machine
end

