-- ==== Sys2Proof/Machine/FedOps.lean ====
section
/-!
DEFINITION. Machine/FedOps.lean: what a module does with received federation and pair messages (chapter 9): the checks of
R264, boundary imports (R269, R271), STATUS and duplicates (R275), START (R276), single-network operation (R272), and of a
pair the fitness of the standby (R282), the Seedbank it builds (R284), takeover (R286, R287) and handback (R288).
-/
namespace Sys2Proof.Machine

/-! ### A received message (R260, R261) -/

/-- A message as its bytes spell it; `whole`: the frame check sequence and the length of the frame are right. -/
structure FedMsg where
  whole : Bool
  etherType : Nat
  type : Nat
  version : Nat
  fedId : Nat
  source : Nat
  dest : Nat
  epoch : Nat
  imageId : Nat
  seq : Nat
  time : Nat
  head : List Byte
  payload : List Byte
  codes : List Byte
  deriving DecidableEq, Repr

def readMsg (l : List Byte) : FedMsg :=
  let n := l.length
  let len := rd l 34 2
  { whole := decide (62 ≤ n) && decide (n = len + 62) && decide (l.drop (n - 4) = fcs (l.take (n - 4))),
    etherType := rd l 12 2, type := rd l 14 1, version := rd l 15 1, fedId := rd l 16 2, source := rd l 18 1 % 16,
    dest := rd l 19 1, epoch := rd l 20 2, imageId := rd l 22 4, seq := rd l 30 4, time := rd l 38 8,
    head := (l.drop 14).take 32, payload := (l.drop 46).take len, codes := (l.drop (46 + len)).take 12 }

/-- The number that stands for a network: as FED.LAST_DISCARD.NET. -/
def netIx : Net → Nat
  | .netA => 1
  | .netB => 2
  | .pair => 3

/-- A type on a network that carries it. -/
def typeOnNet (n : Net) (t : Nat) : Bool :=
  if n = .pair then decide (4 ≤ t) && decide (t ≤ 7) else decide (1 ≤ t) && decide (t ≤ 3)

/-- The entries of a BOUNDARY payload: object, BLOCKED, RESTRICTED, LEVEL (R268). -/
def boundaryEntries (p : List Byte) : List (Nat × Bool × Bool × Nat) :=
  (List.range (rd p 0 2)).map (fun k =>
    let w := rd p (4 + 4 * k) 4
    (bitsOf w 29 16, bitOf w 31, bitOf w 30, w % 16))

/-- LENGTH and, of a BOUNDARY, the entries are those of the type (R268, R279, R283). -/
def Img.payloadFits (i : Img) (m : FedMsg) : Bool :=
  let n := m.payload.length
  if m.type = 1 then
    decide (n = 4 + 4 * rd m.payload 0 2) &&
    decide ((boundaryEntries m.payload).map (fun e => e.1) = sortBy id ((i.importsFrom m.source).map (·.obj)))
  else if m.type = 6 then decide (n = 1040)
  else if m.type = 7 then decide (n = 8)
  else decide (n = 16)

/-- The key that the receiver verifies with (R262, R264): of a pair message, the IMAGE_ID its header names (assumption 49). -/
def Img.rxKey (i : Img) (m : FedMsg) : Nat :=
  if m.type = 1 then i.importId m.source else if m.type ≤ 3 then i.federationId else m.imageId

/-- At least two slots verify. -/
def Img.codesOk (i : Img) (m : FedMsg) : Bool :=
  let k := BitVec.ofNat 32 (i.rxKey m)
  let good := fun (l : LaneId) => decide ((m.codes.drop (4 * laneIx l)).take 4 = be 4 (laneCode (laneSeed l) k (m.head ++ m.payload)).toNat)
  decide (2 ≤ (laneIds.filter good).length)

def noSeq : Nat → Option Nat := fun _ => none

def Mach.source (m : Mach) (s : Nat) : Source := Store.get Source.init m.fed.sources s
def Mach.updSource (m : Mach) (s : Nat) (f : Source → Source) : Mach :=
  { m with fed := { m.fed with sources := Store.upd Source.init m.fed.sources s f } }

/-- SEQUENCE is not newer than the last accepted for the type on the network. The SEED messages of one basic cycle share
theirs, so of these only an older one is (assumption 50). -/
def stale (s : Source) (n : Net) (m : FedMsg) : Bool :=
  match Store.get noSeq s.seqs (m.type * 4 + netIx n) with
  | none => false
  | some q => if m.type = 6 then newer 32 q m.seq else !newer 32 m.seq q

/-- The first check of R264 that fails: 1 malformed, 2 code, 3 epoch, 4 sequence, 5 age. -/
def Mach.fedReason (m : Mach) (n : Net) (g : FedMsg) (arrival : Nat) : Option Nat :=
  let i := m.leadLane.img
  let s := m.source g.source
  let age : Int := (arrival : Int) - g.time
  if !g.whole || decide (g.etherType ≠ m.fld F.FED_CFG_ETHERTYPE) || decide (g.version ≠ 1) || !typeOnNet n g.type ||
      !i.payloadFits g then some 1
  else if decide (g.fedId ≠ i.federationId) ||
      !(decide (g.dest = i.moduleNumber) || (decide (g.dest = 0xFF) && (decide (g.type = 2) || decide (g.type = 3)))) then some 1
  else if !i.codesOk g then some 2
  else if (match s.epoch with | some e => newer 16 e g.epoch | none => false) then some 3
  else if (match s.epoch with | some e => !newer 16 g.epoch e | none => true) && stale s n g then some 4
  else if g.type ≠ 3 ∧ (age < -10000 ∨ (m.fld F.FED_CFG_MAX_AGE : Int) * 1000 < age ∨ g.time % 250000 ≠ 0) then some 5
  else none

/-- A copy is discarded, counted under its reason (R264, R289, R290). -/
def Mach.fedDiscard (m : Mach) (n : Net) (g : FedMsg) (reason : Nat) : Mach :=
  let m := match reason with
    | 2 => m.incAll F.FED_RX_DISCARD_CODE
    | 3 => m.incAll F.FED_RX_DISCARD_EPOCH
    | 5 => m.incAll F.FED_RX_DISCARD_AGE
    | _ => m.incAll F.FED_RX_DISCARD_OTHER
  let m := (((m.putAll F.FED_LAST_DISCARD_REASON reason).putAll F.FED_LAST_DISCARD_SOURCE g.source).putAll
    F.FED_LAST_DISCARD_TYPE g.type).putAll F.FED_LAST_DISCARD_NET (netIx n)
  if n = .pair ∧ g.type = 6 then m.errAt .sdb (rd g.payload 4 4) else m

/-- A copy is accepted: the count, the highest epoch, the sequence, and the network's delivery (R264, R272). -/
def Mach.fedAccept (m : Mach) (n : Net) (g : FedMsg) : Mach :=
  let s := m.source g.source
  let new := match s.epoch with | some e => newer 16 g.epoch e | none => true
  let m := m.mapLanes (fun x => { x with regs := x.regs.addWrap F.FED_RX_ACCEPTED_COUNT 1 })
  let m := m.updSource g.source (fun s => { s with
    epoch := if new then some g.epoch else s.epoch,
    seqs := Store.set noSeq (if new then [] else s.seqs) (g.type * 4 + netIx n) (some g.seq) })
  let m := { m with fed := ({ m.fed with
    gotA := m.fed.gotA || decide (n = .netA), gotB := m.fed.gotB || decide (n = .netB),
    linkLostA := m.fed.linkLostA && decide (n ≠ .netA), linkLostB := m.fed.linkLostB && decide (n ≠ .netB) }) }
  if new && s.epoch.isSome then m.raiseAll .fed I.FED_EPOCH_CHANGE else m

/-- A partner message is accepted (R291): the pair link holds sync. -/
def Mach.partnerIn (m : Mach) : Mach :=
  (({ m with fed := { m.fed with seenAt := some m.sys.cluster } }).putAll F.RED_PAIR_STATUS_PARTNER_SEEN 1).putAll F.RED_PAIR_STATUS_LINK_UP 1

/-- An image stands in the lanes: loaded, or built at step 6 of LOAD. -/
def Mach.hasImage (m : Mach) : Bool := m.leadLane.loaded || decide (m.sys.step6 ≠ 0)

/-- A message of a type that a row is for: checked, then `f` on what was accepted. Without an image, or with the federation
not enabled, none is received. -/
def Mach.fedReceive (m : Mach) (n : Net) (bytes : List Byte) (arrival type : Nat) (f : Mach → FedMsg → Mach) : Mach :=
  let g := readMsg bytes
  if !m.hasImage || (decide (n ≠ .pair) && decide (m.fld F.FED_CFG_ENABLE = 0)) || (decide (n = .pair) && !m.paired) then m
  else
    match m.fedReason n g arrival with
    | some r => m.fedDiscard n g r
    | none =>
      let m := (m.fedAccept n g).wakeForFrame
      let m := if n = .pair then m.partnerIn else m
      if g.type = type then f m g else m

/-! ### Boundary imports (R269, R271) -/

/-- DETECTED[5:0] of an import in a lane: BLOCKED until something was received. -/
def Lane.import (x : Lane) (o : Nat) : Nat := match Store.get noIn x.imports o with | some v => v.det | none => 1

def Lane.setImport (x : Lane) (o det : Nat) : Lane := { x with imports := Store.set noIn x.imports o (some ⟨0, det⟩) }

/-- Rule 1: BLOCKED 1 and RESTRICTED 1 at once; a blocked entry's LEVEL is 0 (R267, assumption 51). -/
def Lane.importRestrict (x : Lane) (e : Nat × Bool × Bool × Nat) : Lane :=
  if !e.2.1 && !e.2.2.1 then x
  else
    let d := x.import e.1
    let d := if e.2.1 then setBits (putBit d 0 true) 4 1 0 else d
    { x.setImport e.1 (if e.2.2.1 then putBit d 5 true else d) with
      early := e.1 :: x.early.filter (fun o => decide (o ≠ e.1)) }

/-- Rule 2: a confirmed entry. -/
def Lane.importConfirm (x : Lane) (e : Nat × Bool × Bool × Nat) : Lane :=
  { x.setImport e.1 (b2n e.2.1 + 2 * (e.2.2.2 % 16) + 32 * b2n e.2.2.1) with
    early := x.early.filter (fun o => decide (o ≠ e.1)) }

/-- The same change in what a lane keeps of a source. -/
def Lane.updSrc (x : Lane) (s : Nat) (f : SrcComm → SrcComm) : Lane := { x with src := Store.upd SrcComm.init x.src s f }

/-- Single-network operation lets one copy do (R269, R272). -/
def Mach.oneCopy (m : Mach) : Bool := decide (m.fld F.FED_NETS_SINGLE = 1) && decide (m.fld F.FED_NETS_EXPIRED = 0)

/-- BOUNDARY: the copies of each SEQUENCE from one source combined (R269). -/
def Mach.boundary (m : Mach) (n : Net) (arrival : Nat) (g : FedMsg) : Mach :=
  let es := boundaryEntries g.payload
  let s := m.source g.source
  let m := m.mapLanes (es.foldl Lane.importRestrict)
  let other := s.copies.find? (fun c => decide (c.2.1 ≠ netIx n))
  let m := m.updSource g.source (fun s => { s with
    copies := (s.copies.filter (fun c => decide (c.2.1 ≠ netIx n))) ++ [(g.seq, netIx n, arrival, g.payload)] })
  let confirm := fun (m : Mach) =>
    m.mapLanes (fun x => (es.foldl Lane.importConfirm x).updSrc g.source (fun s => { s with confirmed := true }))
  match other with
  | some (q, _, t, p) =>
    if q = g.seq then
      if p ≠ g.payload then (m.incAll F.FED_COPY_MISMATCH_COUNT).raiseAll .fed I.FED_COPY_MISMATCH
      else if ((arrival : Int) - t).natAbs ≤ m.fld F.FED_WINDOW_ACCEPT_US * 1000 then confirm m
      else m
    else if m.oneCopy && !newer 32 q g.seq then confirm m else m
  | none => if m.oneCopy then confirm m else m

/-! ### STATUS, START and single-network operation (R272, R275, R276) -/

/-- The modes of a module that serves. -/
def modeServes (k : Nat) : Bool := k == 6 || k == 7 || k == 10 || k == 11

/-- A number is marked duplicate (R275): `other`, whether the other SERIAL is not the pair partner's. -/
def Mach.markDuplicate (m : Mach) (k : Nat) (own other : Bool) : Mach :=
  let was := bitOf (m.fld F.FED_DUPLICATE_MODULES) k
  let m := m.putAll F.FED_DUPLICATE_MODULES (putBit (m.fld F.FED_DUPLICATE_MODULES) k true)
  let m := m.updSource k (fun s => { s with dupAt := m.sys.cluster })
  let m := if own && other then { m with fed := { m.fed with ownDup := true } } else m
  if was then m else (m.raiseAll .fed I.FED_DUPLICATE).record 0x5003 2 k 0 0

/-- What STATUS messages of a number within the last 16 clusters report, and of the own number what this unit reports: role,
epoch, serial. -/
def Mach.statusHeard (m : Mach) (k : Nat) : List (Nat × Nat × Nat) :=
  let l := ((m.source k).heard.filter (fun e => decide (m.sys.cluster < e.1 + 16))).map (fun e => e.2)
  if k = m.leadLane.img.moduleNumber then
    (m.unit + 4 * b2n (modeActive m.sys.mode), m.fld F.RED_EPOCH_EPOCH, m.leadLane.serial.toNat) :: l
  else l

/-- Two SERIALs with one UNIT. -/
def twoSerials (l : List (Nat × Nat × Nat)) (unit : Bool) : Bool :=
  let us := l.filter (fun e => bitOf e.1 0 == unit)
  us.any (fun a => us.any (fun b => decide (a.2.2 ≠ b.2.2)))

/-- Both units ACTIVE with one EPOCH. -/
def bothActive (l : List (Nat × Nat × Nat)) : Bool :=
  l.any (fun a => l.any (fun b => !bitOf a.1 0 && bitOf b.1 0 && bitOf a.1 2 && bitOf b.1 2 && decide (a.2.1 = b.2.1)))

/-- FED.STATE.HEARD. -/
def Mach.heardRegs (m : Mach) : Mach :=
  m.putAll F.FED_STATE_HEARD (bitmap 16 (fun k => (m.source k).heard.any (fun e => decide (m.sys.cluster < e.1 + 16))))

/-- STATUS (R275, R276). -/
def Mach.statusMsg (m : Mach) (g : FedMsg) : Mach :=
  let k := g.source
  let mode := rd g.payload 0 1
  let role := rd g.payload 1 1
  let m := m.updSource k (fun s => { s with
    mode := mode % 16, role := role % 8,
    heard := (m.sys.cluster, role, g.epoch, rd g.payload 4 8) :: s.heard.filter (fun e => decide (m.sys.cluster < e.1 + 16)) })
  let l := m.statusHeard k
  let own := decide (k = m.leadLane.img.moduleNumber)
  let mine := decide (m.unit = 1)
  let two := twoSerials l false || twoSerials l true
  let both := bothActive l
  -- a partner's SERIAL is the one heard with the other UNIT of a pair
  let other := !m.paired || twoSerials l mine || twoSerials l (!mine)
  let m := if two || both then m.markDuplicate k own other else m
  let m := m.heardRegs.fedRegs
  if m.fed.startState = 1 && modeServes mode then m.fedJoin 4 else m

/-- START (R276 steps 2, 4 and 6): heard in a listen, it begins the listen again; in a claim it decides the claim. -/
def Mach.startMsg (m : Mach) (g : FedMsg) : Mach :=
  let rank := rd g.payload 0 1
  let own := m.leadLane.img.moduleNumber
  if m.fed.startState ≠ 2 then m
  else if 15 - own < rank then m.startTo 3
  else if rank = 15 - own ∧ rd g.payload 8 8 ≠ m.leadLane.serial.toNat then (m.startTo 6).markDuplicate own true true
  else m

/-- A source becomes LOST in the lanes in which LOSS_LIMIT latches took in no confirmed message, or IN_COMM again in those in which 16 in a
row each took in one (R270). -/
def Mach.sourceLost (m : Mach) (s : Nat) : Mach :=
  let due := fun (x : Lane) => decide (m.fld F.FED_CFG_LOSS_LIMIT ≤ (x.srcOf s).silent)
  if laneIds.any (fun l => due (m.lane l)) then (m.mapIf due (fun x => x.updSrc s (fun c => { c with inComm := false }))).fedRegs else m

def Mach.sourceRestored (m : Mach) (s : Nat) : Mach :=
  let due := fun (x : Lane) => decide (16 ≤ (x.srcOf s).run)
  if laneIds.any (fun l => due (m.lane l)) then (m.mapIf due (fun x => x.updSrc s (fun c => { c with inComm := true }))).fedRegs else m

/-- SINGLE_NETWORK_ENTER (R272). The pair link's loss of sync, and its return where `linkLost` is false, show in LINK_UP only (R291,
assumption 85). -/
def Mach.singleEnter (m : Mach) (silent : Net) (linkLost : Bool) : Mach :=
  let f := m.fed
  let m := if linkLost then { m with fed := ({ f with linkLostA := f.linkLostA || decide (silent = .netA),
                                                      linkLostB := f.linkLostB || decide (silent = .netB) }) } else m
  let m := if silent = .pair then m.putAll F.RED_PAIR_STATUS_LINK_UP (b2n (!linkLost)) else m
  let due := linkLost || (match silent with
    | .netA => decide (16 ≤ f.silA) && decide (f.silB < 16)
    | .netB => decide (16 ≤ f.silB) && decide (f.silA < 16)
    | .pair => false)
  if silent = .pair ∨ !due ∨ m.fld F.FED_NETS_SINGLE = 1 then m.fedRegs
  else
    let m := ((m.putAll F.FED_NETS_SINGLE 1).putAll F.FED_STATUS_SINGLE 1).putAll F.FED_SINGLE_ELAPSED_SECONDS 0
    ((m.raiseAll .fed I.FED_SINGLE_NET).record 0x5003 3 m.leadLane.img.moduleNumber 0 0).fedRegs

/-- SINGLE_NETWORK_LEAVE (R272). -/
def Mach.singleLeave (m : Mach) : Mach :=
  if m.fld F.FED_NETS_SINGLE = 1 ∧ 16 ≤ m.fed.runA ∧ 16 ≤ m.fed.runB then
    (((m.putAll F.FED_NETS_SINGLE 0).putAll F.FED_STATUS_SINGLE 0).putAll F.FED_NETS_EXPIRED 0).putAll
      F.FED_SINGLE_ELAPSED_SECONDS 0
  else m

/-- SINGLE_NETWORK_EXPIRY (R272): timed against RED.DEGRADED_LIMIT.HOURS. -/
def Mach.singleExpiry (m : Mach) : Mach :=
  if m.fld F.FED_NETS_SINGLE = 1 ∧ m.fld F.FED_NETS_EXPIRED = 0 ∧
      m.fld F.RED_DEGRADED_LIMIT_HOURS * 3600 ≤ m.fld F.FED_SINGLE_ELAPSED_SECONDS then
    ((m.putAll F.FED_NETS_EXPIRED 1).raiseAll .fed I.FED_SINGLE_EXPIRED).record 0x5003 4 m.leadLane.img.moduleNumber 0 0
  else m

/-- DUPLICATE_CLEAR (R275). -/
def Mach.duplicateClear (m : Mach) (k : Nat) : Mach :=
  if bitOf (m.fld F.FED_DUPLICATE_MODULES) k && decide ((m.source k).dupAt + 64 ≤ m.sys.cluster) then
    let m := m.putAll F.FED_DUPLICATE_MODULES (putBit (m.fld F.FED_DUPLICATE_MODULES) k false)
    (if k = m.leadLane.img.moduleNumber then { m with fed := { m.fed with ownDup := false } } else m).fedRegs
  else m

/-- START_SEND (R276, R279). -/
def Mach.startSend (m : Mach) : Mach :=
  if m.fed.startState ≠ 2 ∨ m.fld F.FED_CFG_ENABLE = 0 then m
  else
    let n := m.fed.startSeq + 1
    let own := m.leadLane.img.moduleNumber
    ({ m with fed := { m.fed with startSeq := n } }).sendNow 3 0xFF n m.nowNs
      (be 1 (15 - own) ++ be 7 0 ++ be 8 m.leadLane.serial.toNat)

/-- FED_LISTEN_END: a standby unit never claims (R276). -/
def Mach.listenEnd (m : Mach) : Mach :=
  if m.fed.startState = 1 ∧ !(m.paired && decide (m.fld F.RED_PAIR_CFG_UNIT = 1)) then
    ({ m with fed := { m.fed with startSeq := 0 } }).startTo 2
  else m

/-- FED_CLAIM_END: the start has succeeded, and the PTP master role is enabled. -/
def Mach.claimEnd (m : Mach) : Mach :=
  if m.fed.startState = 2 then (((m.fedJoin 5).takeMaster .netA).takeMaster .netB).ptpSelect none else m

/-! ### The fitness of a standby (R282) -/

/-- The causes of RED.PAIR_STATUS.UNFIT in STANDBY. -/
def Mach.unfitBits (m : Mach) : Nat :=
  let f := m.fed
  let overdue := laneIds.any (fun l =>
    let t := Store.get zeroNat f.testedAt (laneIx l)
    decide (t = 0) || decide (t + 90 < m.sys.seconds + 1))
  b2n (match f.partnerImage with | some k => decide (k ≠ m.leadLane.img.imageId) | none => false) + 2 * b2n overdue +
  4 * b2n (!m.leadLane.sb.full || (match m.leadLane.sb.cluster with | some c => decide (c + 16 < f.beatCluster) | none => true)) +
  8 * b2n (decide (1000 < ratAbs f.pairOffset)) + 16 * b2n (!m.anySync) +
  32 * b2n (decide (m.serving.length ≠ 3)) + 64 * b2n (decide (32 ≤ f.beatSilence))

/-- FIT and UNFIT as they stand, in STANDBY. -/
def Mach.updFit (m : Mach) : Mach :=
  if m.sys.mode ≠ 8 then m
  else
    let was := m.fld F.RED_PAIR_STATUS_FIT
    let u := m.unfitBits
    let fit := b2n (decide (u = 0))
    let m := (m.putAll F.RED_PAIR_STATUS_FIT fit).putAll F.RED_PAIR_STATUS_UNFIT u
    let m := (m.putAll F.SDB_STATUS_CURRENT (b2n (!bitOf u 2))).putAll F.SDB_STATUS_STALE (b2n (!m.leadLane.sb.full))
    if was = 1 ∧ fit = 0 then
      (({ m with fed := { m.fed with ready := false } }).putAll F.RED_PAIR_STATUS_HOLD_ELAPSED 0).raiseAll .sdb I.SDB_PARTNER_UNFIT
    else m

/-! ### Lane tests in STANDBY (R281) -/

/-- The pages a re-initialised lane takes over from a lane that went on: what the lanes hold alike. -/
def sharedPages : List Nat := [blkBase .tsu, blkBase .rte, blkBase .zvl, blkBase .red, blkBase .sdb, blkBase .fed, blkBase .dio]

/-- Registers of these pages that are a lane's own: its measured offsets and latched reads of TSU (R246, R258); LANE_ALIGNED of TSU.STATUS
is its own too. -/
def ownReg (a : Nat) : Bool :=
  decide (a / 0x1000 * 0x1000 = blkBase .tsu) &&
  ((decide (0x40 ≤ a % 0x1000) && decide (a % 0x1000 ≤ 0x64)) || decide (a % 0x1000 = 0x70) || decide (a % 0x1000 = 0x74))

/-- A lane whose test ends, or is abandoned, is re-initialised (R304) and takes what the other two hold; its image stays. -/
def Mach.rejoin (m : Mach) (l : LaneId) : Mach :=
  let y := m.lane ((m.serving.find? (fun k => decide (k ≠ l))).getD l)
  let m := m.reinit l
  m.updLane l (fun x =>
    let r := (y.regs.filter (fun e => sharedPages.contains (e.1 / 0x1000 * 0x1000) && !ownReg e.1 &&
        (decide (0x40 ≤ e.1 % 0x1000) || decide (e.1 % 0x1000 = 0x0C)))).foldl
      (fun r e => Regs.set r e.1 e.2) x.regs
    let r := r.put F.TSU_STATUS_LANE_ALIGNED (x.regs.fld F.TSU_STATUS_LANE_ALIGNED)
    ({ x with zeroDie := false, loaded := y.loaded, wtSeal := y.wtSeal, si := y.si, rte := y.rte, zvl := y.zvl, live := y.live,
              latched := y.latched, imports := y.imports, early := y.early, src := y.src, sb := y.sb, regs := r } : Lane).copyOnDie)

/-- STANDBY_LANE_TEST: the next lane in turn is isolated. -/
def Mach.laneTest (m : Mach) : Mach :=
  if m.sys.mode ≠ 8 ∨ m.fed.testLane.isSome ∨ m.fed.decided.isSome then m
  else
    match ([0, 1, 2].map (fun k => laneOf ((m.fed.testTurn + k) % 3))).find? (fun l => (m.lane l).isServing) with
    | none => m
    | some l =>
      let m := { m with fed := { m.fed with testLane := some l, testTurn := (laneIx l + 1) % 3, voids := 0 } }
      ((m.putAll F.RED_STANDBY_BIST_LANE (laneIx l)).putAll F.RED_STANDBY_BIST_TESTING 1).bistBegin (.lane l) false

/-- The lane is no longer under test. -/
def Mach.testOver (m : Mach) (l : LaneId) : Mach :=
  let m := m.bistEnd (.lane l)
  (({ m with fed := { m.fed with testLane := none, voids := 0 } }).rejoin l).putAll F.RED_STANDBY_BIST_TESTING 0

/-- The scan of the active image and of the working tables against their seals (R141, R67); `wtFault`: a block of the working
tables differs from its seal (assumption 65). -/
def Mach.scanOk (m : Mach) (l : LaneId) (wtFault : Bool) : Bool :=
  let x := m.lane l
  (x.img.secs.all x.img.secCrcOk) && !wtFault &&
  decide (x.wtSeal = (m.lane ((m.serving.find? (fun k => decide (k ≠ l))).getD l)).wtSeal)

/-- STANDBY_TEST_DONE (R281, R303, R304): a first void run is repeated at once. A lane that fails is excluded: with cause 8
where the scan fails, else with a cause the manual does not give, a free value. -/
def Mach.testDone (m : Mach) (r : BistRun) (wtFault : Bool) : Mach :=
  match m.fed.testLane with
  | none => m
  | some l =>
    if m.sys.mode ≠ 8 then m
    else
      let res := m.bistOf (.lane l) r 3
      if res = 3 ∧ m.fed.voids = 0 then
        (({ m with fed := { m.fed with voids := 1 } }.bistKeep (.lane l) r 2 3).bistEnd (.lane l)).bistBegin (.lane l) false
      else
        let scan := m.scanOk l wtFault
        let m := (((m.bistRegs (.lane l) r 2 3).testOver l).bistRaise (.lane l) res).incAll F.RED_STANDBY_BIST_PASSES
        if res = 1 ∧ scan then
          ({ m with fed := { m.fed with testedAt := Store.set zeroNat m.fed.testedAt (laneIx l) (m.sys.seconds + 1) } }).updFit
        else if res = 1 then (m.excludeLane l 8 0).updFit
        else
          let f := m.fresh
          (f.2.excludeLane l ((Config.freeByte f.1).toNat % 16) 0).updFit

/-! ### The Seedbank (R283, R284) -/

/-- A full snapshot is taken into the Seedbank. -/
def Seedbank.takeFull (k : Seedbank) (c : Nat) (l : List Byte) : Seedbank :=
  let n := rd l 24 4
  let q := (l.drop (64 + 2097152))
  { k with si := readSi (l.drop 64), queue := readReqs n q, deferred := readNums 2 (rd l 28 2) (q.drop (16 * n)),
           epoch := rd l 8 2, mode := rd l 10 1, origin := rd l 12 8, seq := rd l 20 4, ptp := rd l 30 1,
           hold := rd l 31 2, cluster := some c, full := true }

/-- An increment is applied (R284). Its deferred supervisions are what stands before the seal. -/
def Seedbank.takeIncrement (k : Seedbank) (i : Img) (c : Nat) (l : List Byte) : Seedbank :=
  let r := readEntries (rd l 24 4) (l.drop 64)
  let n2 := rd l 28 4
  let n3 := rd l 32 4
  let l3 := r.2.drop (16 * n2)
  let l4 := l3.drop (4 * n3)
  { k with si := applyIncrement i k.si r.1 c, queue := applyQueue k.queue (readReqs n2 r.2) (readNums 4 n3 l3),
           deferred := readNums 2 ((l4.length - 8) / 2) l4, epoch := rd l 8 2, mode := rd l 10 1,
           origin := rd l 12 8, seq := rd l 20 4, ptp := rd l 36 1, hold := rd l 37 2, cluster := some c }

/-- The Seedbank is current to the Press before that of cluster `c`. -/
def Seedbank.follows (k : Seedbank) (c : Nat) : Bool := k.full && decide (k.cluster.map (· + 1) = some c)

/-- FINAL applied: the increment of the Press of H − 1 stands in the Seedbank (R288). -/
def Mach.finalCheck (m : Mach) : Mach :=
  let f := m.fed
  let k := m.leadLane.sb
  let done := match f.handback, k.cluster with
    | some h, some c => f.final && k.full && decide ((c + 1) % 2 ^ 32 = h % 2 ^ 32)
    | _, _ => false
  { m with fed := { f with finalApplied := done } }

/-- An interrupt of the SDB block in one lane. -/
def Lane.raiseSdb (x : Lane) (i : Nat) : Lane := { x with regs := x.regs.setBit (blkBase .sdb + 0x10) i true }

/-- A lane's Seedbank goes stale (R284). -/
def Lane.seedStale (x : Lane) (gap : Bool) : Lane :=
  let y := { x with regs := if gap then x.regs.inc F.SDB_ERRORS_GAPS else x.regs, sb := { x.sb with full := false } }
  if x.sb.full then y.raiseSdb I.SDB_STALE else y

/-- A lane applies an increment to its own copy, and acknowledges it. -/
def Lane.seedApply (x : Lane) (c : Nat) (l : List Byte) : Lane :=
  { x with
    sb := x.sb.takeIncrement x.img c l
    regs := (x.regs.put F.SDB_CURRENT_CLUSTER c).put F.SDB_LAST_INCR_BYTES (min l.length 16777215)
    fedOut := byDest (x.fedOut ++ [(x.img.moduleNumber, 7, be 8 c)]) }

/-- A complete increment: applied to a Seedbank current to the Press before it; else kept for the full snapshot being
received, and of a Seedbank that was not stale it is a gap. -/
def Lane.seedIncrement (x : Lane) (c : Nat) (l : List Byte) : Lane :=
  if x.sb.follows c then x.seedApply c l
  else
    let y := { x with sb := { x.sb with incs := (x.sb.incs ++ [(c, l)]).drop (x.sb.incs.length + 1 - 64) } }
    if x.sb.full then y.seedStale true else y

/-- A complete full snapshot: what was kept since is applied on top of it; an increment missing among them leaves the
Seedbank stale. -/
def Lane.seedFull (x : Lane) (c : Nat) (l : List Byte) : Lane :=
  let x := ({ x with regs := x.regs.put F.SDB_FULL_CLUSTER c } : Lane).raiseSdb I.SDB_FULL_DONE
  if x.sb.full then { x with sb := { x.sb with incs := [] } }
  else
    let later := sortBy (fun (e : Nat × List Byte) => e.1) (x.sb.incs.filter (fun e => decide (c < e.1)))
    let x := { x with sb := { (x.sb.takeFull c l) with incs := [] }, regs := x.regs.put F.SDB_CURRENT_CLUSTER c }
    later.foldl (fun (x : Lane) e =>
      if x.sb.follows e.1 then x.seedApply e.1 e.2 else { x with sb := { x.sb with full := false } }) x

/-- A stream is complete in a lane: its seal, and the image it is of (R66). -/
def Lane.seedWhole (x : Lane) (kind c : Nat) (l : List Byte) : Lane :=
  if !sealOk l then
    let x := ({ x with regs := x.regs.inc F.SDB_ERRORS_SEAL } : Lane).raiseSdb I.SDB_SEAL_FAIL
    if kind = 2 then x.seedStale false else x
  else if kind = 1 then x.seedFull c l
  else x.seedIncrement c l

/-- A block of a stream in a lane, which builds the stream itself (R284): it continues the stream of its KIND, or begins one. -/
def Lane.seedBlock (x : Lane) (kind block c : Nat) (data : List Byte) : Lane :=
  let rest := x.sb.rx.filter (fun e => decide (e.1 ≠ kind))
  let had := match x.sb.rx.find? (fun e => decide (e.1 = kind)) with
    | some e => if e.2.1 = c ∧ e.2.2.length = 1024 * block then some e.2.2 else none
    | none => none
  match if block = 0 then some [] else had with
  | none =>
    let y := { x with sb := { x.sb with rx := rest } }
    if kind = 2 ∧ x.sb.full then y.seedStale true else y
  | some d =>
    let d := d ++ data
    let len := streamLength kind d
    if len ≤ d.length then ({ x with sb := { x.sb with rx := rest } } : Lane).seedWhole kind c (d.take len)
    else { x with sb := { x.sb with rx := rest ++ [(kind, c, d)] } }

/-- SEED (R284): a block of a stream, of the own image only (R66), in every lane that is not excluded or under test. -/
def Mach.seedMsg (m : Mach) (g : FedMsg) : Mach :=
  let kind := rd g.payload 0 1
  if m.sys.mode ≠ 8 ∨ g.imageId ≠ m.leadLane.img.imageId ∨ (kind ≠ 1 ∧ kind ≠ 2) then m
  else
    (m.vectored [.sdb] (m.voters.foldl (fun (a : Mach) l =>
      a.updLane l (fun x => x.seedBlock kind (rd g.payload 4 4) (rd g.payload 8 8) (g.payload.drop 16))) m)).finalCheck.updFit

/-! ### Takeover (R286, R287) -/

/-- The unit has decided a takeover by itself (R286): a hand-over expected in a handback is none. -/
def Fed.ownDecision (f : Fed) : Bool :=
  match f.decided with
  | some (_, k) => decide (k ≠ 3)
  | none => false

/-- The hand-over of a handback is no longer expected (R288 step 4). -/
def Fed.dropHandover (f : Fed) : Fed := if f.ownDecision then f else { f with decided := none }

/-- A takeover is decided at the end of the present basic cycle: at the first cluster boundary at least 20 ms later. -/
def Mach.decideTakeover (m : Mach) (kind : Nat) : Mach :=
  if m.sys.mode ≠ 8 ∨ m.fed.ownDecision ∨ m.fld F.RED_PAIR_STATUS_FIT = 0 then m
  else
    let at' := m.sys.cluster * 16 + m.sys.bc + 1 + 80
    let m := match m.fed.testLane with | some l => m.testOver l | none => m
    ({ m with fed := { m.fed with decided := some (ceilDiv at' 16, kind) } }).raiseAll .sdb I.SDB_TAKEOVER

/-- A timer slot at takeover: STATE 1 with the full DURATION. -/
def Timer.restart (t : Timer) (n : Nat) : Timer := if t.state = 0 then t else { t with state := 1, remaining := n }

/-- The same change, by object, in every record of a list. -/
def SI.mapObjs (s : SI) (os : List Nat) (f : Nat → ObjRec → ObjRec) : SI := os.foldl (fun s o => SI.upd s o (f o)) s

/-- LOCK_KIND 1 on a route not yet entered becomes 2, and the timers restart (R287 step 3, R288). -/
def Img.reLock (i : Img) (s : SI) : SI :=
  let rs := (i.lockedRoutes s).filter (fun r => decide ((SI.at s (i.rEntry r)).lockKind = 1) && !i.entered s r)
  let s := rs.foldl (fun s r => i.setKind s r 2) s
  SI.mapObjs s i.objects (fun o x => { x with
    timer0 := x.timer0.restart (i.timerClusters o 0), timer1 := x.timer1.restart (i.timerClusters o 1) })

/-- The State Image formed from the Seedbank (R287 step 3). -/
def Img.takeoverSi (i : Img) (cluster : Nat) (s : SI) : SI :=
  i.restated cluster s (SI.mapObjs (i.reLock s) i.objects (fun o x =>
    let x := x.restrictCommand i o
    if i.cls o = 9 then { x with comm := 0x10000000 } else if i.onNode o then { x with comm := 0x20000000 } else x))

/-- The registers of a hand-over, and its event record (R291, R389). -/
def Mach.handover (m : Mach) (last epoch : Nat) : Mach :=
  let m := ((m.putAll F.RED_HANDOVER_LAST last).putAll F.RED_HANDOVER_EPOCH epoch).putAll F.RED_HANDOVER_CLUSTER_CLUSTER m.sys.cluster
  m.record 0x1003 last epoch (m.sys.cluster % 2 ^ 32) 0

/-- A lane at takeover, from its own Seedbank (R287 steps 2 and 3, R136). -/
def Lane.takeover (time cluster : Nat) (x : Lane) : Lane :=
  let si := x.img.takeoverSi cluster x.sb.si
  let r := x.regs.put F.SYS_IMG_PROVING_OUTSTANDING (outstanding si)
  (({ x with regs := r, si := si, rte := { Rte.reset with queue := x.sb.queue, deferred := x.sb.deferred, moved := x.img.objects },
             live := InputSet.empty, latched := InputSet.empty, payloads := [], staged := [], fedOut := [] } : Lane).zvlTakeover
    time).imageRegs

/-- Epoch and origin, in every lane (R243, R287 step 2). -/
def Mach.adopt (m : Mach) (epoch origin : Nat) : Mach :=
  (((m.putAll F.RED_EPOCH_EPOCH epoch).putAll F.TSU_ORIGIN_LO_ORIGIN origin).putAll F.TSU_ORIGIN_HI_ORIGIN (origin / 2 ^ 32)).mapLanes
    (fun x => { x with time := { x.time with origin := origin } })

/-- The nodes that were IN_COMM in the Seedbank. -/
def Img.nodesInComm (i : Img) (s : SI) : List Nat :=
  dedup ((i.objects.filter (fun o => i.onNode o && decide (commState (SI.at s o).comm = 0))).map i.node)

/-- A cluster stamp of the own count `was` in a count that stands at `c` (R243): as long ago as it was. -/
def reCount (was c stamp : Nat) : Nat := stamp + c - was

/-- What was heard of a number within the new count (R275); what came before its first cluster is forgotten. -/
def Source.reCount (was c : Nat) (s : Source) : Source :=
  { s with heard := (s.heard.filter (fun e => decide (was ≤ e.1 + c))).map (fun e => (Machine.reCount was c e.1, e.2)),
           dupAt := Machine.reCount was c s.dupAt }

/-- TAKEOVER_ENTRY at a boundary (R287): epoch, origin and cluster count, the State Image, and the ports. -/
def Mach.takeover (m : Mach) (kind : Nat) : Mach :=
  let k := m.leadLane.sb
  let now := m.nowNs
  let was := m.sys.cluster
  let c := ceilDiv (now - k.origin) 4000000
  let epoch := (k.epoch + 1) % 65536
  let m := (((m.setCluster c).updSys (fun s => { s with active := true })).cycleRegs m.sys.bc).adopt epoch k.origin
  let m := m.vectored [.rte, .zvl] (m.mapIf (fun x => x.isServing) (Lane.takeover now c))
  let m := m.mapLanes (fun x => { x with src := x.src.map (fun (e : Nat × SrcComm) => (e.1, { e.2 with inComm := false, run := 0, silent := 255 })),
                                         sb := { x.sb with rx := [], incs := [] } })
  let m := { m with
    nextSeq := nextReqSeq k.seq, lastSeq := k.seq,
    fed := ({ m.fed with
      decided := none, handback := none, final := false, finalApplied := false, ready := false, released := false,
      partnerFit := false, acked := false, takeoverAt := c, takeComm := m.leadLane.img.nodesInComm k.si, testLane := none,
      healthAt := none, seenAt := m.fed.seenAt.map (reCount was c), sources := m.fed.sources.map (fun (e : Nat × Source) => (e.1, e.2.reCount was c)) }) }
  let m := (((m.putAll F.SDB_ROLE_ROLE 1).putAll F.SDB_STATUS_CURRENT 0).putAll F.SDB_STATUS_STALE 0).putAll F.RED_PAIR_STATUS_FIT 0
  let m := ((m.setMode 9 0).handover kind epoch).ptpTakeover
  let m := if kind = 3 then m.raiseAll .sdb I.SDB_HANDBACK else m
  let m := m.portsStop.portsStart
  -- R287 step 4
  (List.range 16).foldl (fun (m : Mach) p => if (m.port p).running then m.updPort p (fun q => { q with leaves := 16 }) else m) m

/-- In a handback the command itself says that the active unit has accepted the HEALTH with FINAL applied (R288 step 4, assumption
80). -/
def Mach.takeoverEntry (m : Mach) : Mach :=
  match m.fed.decided with
  | some (t, kind) =>
    if m.sys.mode ≠ 8 ∨ !m.sys.boundary ∨ m.sys.cluster < t ∨ m.preempted then m
    else m.takeover kind
  | none => m

/-! ### Pair messages (R279, R286, R288) -/

/-- PAIR_BEAT: a sign of an active partner; in STANDBY, its cluster, the announced handback, the offset, and a decision by
relinquish. -/
def Mach.pairBeat (m : Mach) (arrival : Nat) (stamp : Option Int) (g : FedMsg) : Mach :=
  let mode := rd g.payload 0 1
  let flags := rd g.payload 1 1
  let m := { m with fed := ({ m.fed with beatSilence := 0, quiet := 0, beatMode := mode, beatCluster := rd g.payload 8 8,
                                         partnerImage := some g.imageId }) }
  let m := (m.putAll F.RED_PAIR_STATUS_PARTNER_MODE (mode % 16)).partnerHeard
  if m.sys.mode ≠ 8 then m
  else
    let gone := m.fed.handback.isSome && !bitOf flags 0
    let m := { m with fed := ({ m.fed with handback := if bitOf flags 0 then some (rd g.payload 4 4) else none,
                                           final := bitOf flags 1 }) }
    let m := if gone then ({ m with fed := { m.fed.dropHandover with ready := false } }).putAll F.RED_PAIR_STATUS_HOLD_ELAPSED 0 else m
    let m := match stamp with
      | some a => m.pairTime ((((arrival : Int) - a : Int) : Rat) / 2)
      | none => m
    let m := m.finalCheck.updFit
    if mode = 14 ∨ mode = 12 ∨ mode = 13 then m.decideTakeover 1 else m

/-- The standby's fitness as the active unit holds it. -/
def Mach.setPartnerFit (m : Mach) (fit : Bool) (unfit : Nat) : Mach :=
  let was := m.fed.partnerFit
  let m := (({ m with fed := { m.fed with partnerFit := fit, partnerUnfit := unfit } }).putAll F.RED_PAIR_STATUS_FIT (b2n fit)).putAll
    F.RED_PAIR_STATUS_UNFIT unfit
  if was && !fit then m.raiseAll .sdb I.SDB_PARTNER_UNFIT else m

/-- HEALTH, at the active unit. -/
def Mach.healthMsg (m : Mach) (g : FedMsg) : Mach :=
  let flags := rd g.payload 0 1
  let m := m.putAll F.RED_PAIR_STATUS_PARTNER_MODE 8
  if !modeActive m.sys.mode then m
  else
    let m := { m with fed := ({ m.fed with healthAt := some m.sys.cluster, ready := bitOf flags 1, finalApplied := bitOf flags 2 }) }
    m.setPartnerFit (bitOf flags 0) (rd g.payload 1 1)

/-- The changes of a Press acknowledged in time for the Emit of the cluster go out in it: the frames of basic cycle 15 are built again. Overrides
of the last cluster have been compared at the first build. -/
def Mach.reEmit (m : Mach) : Mach :=
  let m := m.mapFollow (fun x => let y := x.release; { y with zvl := { y.zvl with over15 := [] } })
  m.heldRegs.buildNext

/-- SEED_ACK (R285): it covers its Press and those before. By 3,690 µs after the boundary of the cluster in which it arrives it lets their
changes into the Emit of that cluster, later into the next Emit. The commit ends 3,490 µs after the cluster boundary (R22). -/
def Mach.seedAck (m : Mach) (arrival : Nat) (g : FedMsg) : Mach :=
  let k := rd g.payload 0 8
  if !modeActive m.sys.mode ∨ m.fed.sentCluster < k then m
  else
    let m := m.mapFollow (fun x => { x with rte := { x.rte with unacked := x.rte.unacked.filter (fun u => decide (k < u.cluster)) } })
    let first := decide (k = m.fed.sentCluster) && !m.fed.acked
    let late := decide (m.boundaryNs m.sys.cluster + 3690000 < arrival)
    let us := (arrival - (m.boundaryNs k + 3490000)) / 1000
    let gated := m.gated
    let m := if first then ({ m with fed := { m.fed with acked := true } }).putAll F.SDB_ACK_ACK_US (min us 65535) else m
    if m.sys.bc ≠ 14 then m
    else if late then if first && gated && decide (k = m.sys.cluster) then m.raiseAll .sdb I.SDB_GATE_LATE else m
    else if m.fed.emitted && m.cycling then m.reEmit
    else m

/-- HEALTH_TIMEOUT (R282): two clusters without an accepted HEALTH. -/
def Mach.healthTimeout (m : Mach) : Mach :=
  if modeActive m.sys.mode && m.paired && decide (2 ≤ m.healthAge) then m.setPartnerFit false m.fed.partnerUnfit
  else m

/-- A beacon of the pair's IMAGE_ID, seen on a port (R280, R286). -/
def Mach.beaconSeen (m : Mach) (imageId epoch : Nat) : Mach :=
  if !m.hasImage || !m.paired || decide (imageId ≠ m.leadLane.img.imageId) then m
  else if m.sys.mode = 8 then
    if (m.source m.leadLane.img.moduleNumber).epoch = some epoch then { m with fed := { m.fed with quiet := 0 } } else m
  else m.partnerHeard

/-- PARTNER_BEACON: the frame passes on, and a whole beacon is a sign of the partner. -/
def Mach.partnerBeacon (m : Mach) (p : Nat) (link : Link) (bytes : List Byte) : Mach :=
  if !m.forwards p then m
  else
    let h := readHusk bytes
    let n := m.forward p link bytes
    if frameWhole bytes && decide (h.type = 1) then n.beaconSeen h.imageId h.epoch else n

/-- PAIR_SILENCE (R286). -/
def Mach.pairSilence (m : Mach) : Mach := if 8 ≤ m.fed.quiet then m.decideTakeover 2 else m

/-! ### Handback (R288) -/

/-- HANDBACK_READY, at unit 0. -/
def Mach.handbackReady (m : Mach) : Mach :=
  if m.sys.mode = 8 ∧ m.paired ∧ m.fld F.RED_PAIR_CFG_UNIT = 0 ∧ m.fld F.RED_PAIR_STATUS_FIT = 1 ∧
      m.fld F.RED_PAIR_CFG_RETURN_HOLD ≤ m.fld F.RED_PAIR_STATUS_HOLD_ELAPSED ∧
      laneIds.all (fun l => Store.get zeroNat m.fed.testedAt (laneIx l) ≠ 0) ∧ m.leadLane.sb.full
  then { m with fed := { m.fed with ready := true } } else m

/-- HANDBACK_ENTRY, at the active unit, at a boundary: H is announced. -/
def Mach.handbackEntry (m : Mach) : Mach :=
  if m.handbackDue && !m.preempted then
    let m := { m with fed := ({ m.fed with handback := some (m.sys.cluster + 64), final := false, finalApplied := false,
                                           released := false }) }
    m.setMode 11 0
  else m

/-- HANDBACK_FINAL, at boundary H: no Press runs from here (RTE.STATUS.RUNNING). A unit 0 that became unfit before H gets none. -/
def Mach.handbackFinal (m : Mach) : Mach :=
  match m.fed.handback with
  | some h => if m.sys.mode = 11 ∧ m.sys.boundary ∧ h ≤ m.sys.cluster ∧ !m.fed.final ∧ m.fed.partnerFit
      then ({ m with fed := { m.fed with final := true } }).putAll F.RTE_STATUS_RUNNING 0 else m
  | none => m

/-- HANDBACK_HANDOVER: at the boundary after FINAL applied was accepted, the unit forwards on its ports and enters STANDBY. -/
def Mach.handbackHandover (m : Mach) : Mach :=
  if m.sys.mode = 11 ∧ m.sys.boundary ∧ m.fed.final ∧ m.fed.finalApplied ∧ 1 ≤ m.healthAge ∧ !m.preempted then
    let epoch := (m.fld F.RED_EPOCH_EPOCH + 1) % 65536
    let m := ((m.portsStop.updSys (fun s => { s with active := false })).enterStandby).handover 3 epoch
    let m := m.mapLanes (fun x => { x with fedOut := x.fedOut.filter (fun e => decide (e.2.1 ≠ 4)) })
    m.raiseAll .sdb I.SDB_HANDBACK
  else m

/-- A lane resumes its interlocking cycle after an abandoned handback: every signal at entry 0, LOCK_KIND and timers as at a
takeover, taken by ZVL as a commit. -/
def Lane.resume (time cluster : Nat) (x : Lane) : Lane :=
  let i := x.img
  let s := SI.mapObjs (i.reLock x.si) (i.objects.filter (fun o => decide (i.cls o = 3))) (fun o r => r.restrictCommand i o)
  let s := i.restated cluster x.si s
  ({ x with si := s } : Lane).zvlCommit x.si time (changedIn i.objects x.si s) []

/-- HANDBACK_ABANDON: unit 0 unfit before H, at the next boundary; or no FINAL applied by H + 64. -/
def Mach.handbackAbandon (m : Mach) : Mach :=
  match m.fed.handback with
  | none => m
  | some h =>
    if m.sys.mode ≠ 11 ∨ !m.sys.boundary ∨ m.preempted then m
    else
      let late := m.abandonLate h
      if !m.abandonEarly && !late then m
      else
        let time := m.nowNs
        let m := if late then m.vectored [.zvl] (m.mapFollow (Lane.resume time m.sys.cluster)) else m
        let m := { m with fed := ({ m.fed with handback := none, final := false, finalApplied := false, ready := false }) }
        let m := (m.toService 0).handover 4 (m.fld F.RED_EPOCH_EPOCH)
        m.raiseAll .sdb I.SDB_HANDBACK

/-- What a cluster boundary brings to a pair: PARTNER_SEEN, the fitness, and at unit 0 the hand-over that may follow from the next
boundary while its HEALTH with FINAL applied leaves at each. -/
def Mach.pairBoundary (m : Mach) : Mach :=
  if !m.paired then m
  else
    let seen := match m.fed.seenAt with | some c => decide (m.sys.cluster < c + 2) | none => false
    let m := m.putAll F.RED_PAIR_STATUS_PARTNER_SEEN (b2n seen)
    let told := m.leadLane.fedOut.any (fun e => decide (e.2.1 = 5) && bitOf (rd e.2.2 0 1) 2)
    let missed := match m.fed.decided with | some (t, _) => decide (t < m.sys.cluster) | none => false
    let m := if m.sys.mode = 8 && told && m.fed.decided.isNone then
        { m with fed := { m.fed with decided := some (m.sys.cluster + 1, 3) } }
      else if missed && !told then { m with fed := m.fed.dropHandover }
      else m
    m.updFit

end Sys2Proof.Machine
end

