-- ==== Sys2Proof/Machine/CheckOps.lean ====
section
/-!
DEFINITION. Machine/CheckOps.lean: the check units of a lane (R364 to R368): the two scan engines, the start-up channels that tap
a byte stream, and the service snoop context.
-/
namespace Sys2Proof.Machine

/-! ### The two CRCs by ALG (R365) -/

/-- The initial value of RUNNING. -/
def crcInit (alg : Nat) : Nat := if alg = 1 then 0xFFFFFFFF else 0

/-- RUNNING after more bytes. -/
def crcFeed (alg running : Nat) (l : List Byte) : Nat :=
  if alg = 1 then (crc32cFrom (BitVec.ofNat 32 running) l).toNat else (crc64From (BitVec.ofNat 64 running) l).toNat

/-- RESULT: RUNNING with the final XOR applied. -/
def crcFinal (alg running : Nat) : Nat :=
  if alg = 1 then (BitVec.ofNat 32 running ^^^ 0xFFFFFFFF#32).toNat else running

/-- A pair of LO and HI fields. -/
def Regs.pair (r : Regs) (lo hi : Field) : Nat := r.fld lo + r.fld hi * 2 ^ 32
def Regs.putPair (r : Regs) (lo hi : Field) (v : Nat) : Regs := (r.put lo v).put hi (v / 2 ^ 32)

/-! ### On-die memory as bytes (R28, R41) -/

/-- An address of the active Station Image region (R32). -/
def Lane.inActive (x : Lane) (a : Nat) : Bool := if x.activeHi then decide (0x80000000 ≤ a) && decide (a < 0x100000000) else decide (a < 0x80000000)

/-- Write one byte of on-die SRAM; the State Image is the State Image records, and what R116 lays out of the ZVL region is ZVL's. -/
def Lane.sramPut (x : Lane) (a : Nat) (b : Byte) : Lane :=
  if a < sramConflict then
    let l := (SI.at x.si (a / 128)).bytes
    { x with si := SI.upd x.si (a / 128) (fun _ => ObjRec.ofBytes (l.set (a % 128) b)) }
  else if a < sramZvl then { x with sram := x.sram.put a b }
  else if a < sramUnits then x.zvlPut (a - sramZvl) b
  else x.putUnit (dieKey a) b

def Lane.sramWrite (x : Lane) (a : Nat) : List Byte → Lane
  | [] => x
  | b :: t => (x.sramPut a b).sramWrite (a + 1) t

/-- What engine 0 (on-die SRAM) and engine 1 (DRAM) read. -/
def Lane.engineRead (x : Lane) (e a n : Nat) : List Byte := if e = 0 then x.sramRead a n else x.dramRead a n
def Lane.engineWrite (x : Lane) (e a : Nat) (l : List Byte) : Lane :=
  if e = 0 then x.sramWrite a l else x.dramWrite a l

/-- A seal of 4 bytes that has a byte in the active Station Image (R32). -/
def Lane.sealActive (x : Lane) (a : Nat) : Bool := x.inActive a || x.inActive (a + 3)

/-- Where a seal write must not go: the State Image, which only Press commits (R22), the ZVL region (R28), the active Station Image
(R32) and the reserved region (R29). Such a write is refused and counted, in SYS.ERR_COUNT for the active image (assumption
68). -/
def Lane.sealBarred (x : Lane) (e a : Nat) : Bool :=
  if e = 0 then decide (a < sramConflict) || (decide (sramZvl ≤ a + 3) && decide (a < sramUnits))
  else decide (dramReserved ≤ a + 3) || x.sealActive a

def Lane.sealWrite (x : Lane) (e a : Nat) (l : List Byte) : Lane :=
  if !x.sealBarred e a then x.engineWrite e a l
  else if e = 1 ∧ x.sealActive a then
    { x with regs := (x.regs.incReg (blkBase .sys + 0x20)).set (blkBase .sys + 0x24) (BitVec.ofNat 32 a) }
  else { x with regs := x.regs.incReg (blkBase .crc + 0x20) }
def engineSize (e : Nat) : Nat := if e = 0 then 0x800000 else 0x200000000

/-! ### Start-up channels (R366) -/

/-- The start-up channels are available on this lane. -/
def Mach.channelsOn (m : Mach) (x : Lane) : Bool :=
  modeSteps m.sys.mode || (x.role == .joining && decide (2 ≤ x.regs.fld F.RED_DARN_STATUS_STEP) &&
    decide (x.regs.fld F.RED_DARN_STATUS_STEP ≤ 7))

/-- Channel `k` takes its range out of the bytes that stand at stream address `a`. -/
def Regs.tapOne (r : Regs) (k a : Nat) (l : List Byte) : Regs :=
  let from_ := r.pair (F.CRC_CHk_START_LO_START k) (F.CRC_CHk_START_HI_START k)
  let to_ := from_ + r.fld (F.CRC_CHk_LEN_LEN k)
  let mine := (l.take (to_ - a)).drop (from_ - a)
  let alg := r.fld (F.CRC_CHk_CTRL_ALG k)
  let v := crcFeed alg (r.pair (F.CRC_CHk_RUNNING_LO_RUNNING k) (F.CRC_CHk_RUNNING_HI_RUNNING k)) mine
  let r := r.putPair (F.CRC_CHk_RUNNING_LO_RUNNING k) (F.CRC_CHk_RUNNING_HI_RUNNING k) v
  if to_ ≤ a + l.length then
    (r.put (F.CRC_CHk_CTRL_DONE k) 1).putPair (F.CRC_CHk_RESULT_LO_RESULT k) (F.CRC_CHk_RESULT_HI_RESULT k) (crcFinal alg v)
  else r

/-- The channels whose SOURCE is `src` and that `p` admits, while the block offers them (`on`). -/
def Regs.tap (r : Regs) (on : Bool) (src : Nat) (p : Nat → Bool) (a : Nat) (l : List Byte) : Regs :=
  if !on then r
  else (List.range 8).foldl (fun r k =>
    if r.fld (F.CRC_CHk_CTRL_ENABLE k) = 1 ∧ r.fld (F.CRC_CHk_CTRL_DONE k) = 0 ∧ r.fld (F.CRC_CHk_CTRL_SOURCE k) = src ∧ p k
    then r.tapOne k a l else r) r

/-- CRC_CHANNEL_ENABLE: a write of CRC.CHk_CTRL. -/
def Mach.channelWrite (m : Mach) (l : LaneId) (k : Nat) (ctrl : Nat) : Mach :=
  if m.sys.mode < 2 then m
  else if m.channelsOn (m.lane l) then
    m.updLane l (fun x =>
      let r := (((x.regs.put (F.CRC_CHk_CTRL_ENABLE k) (bitsOf ctrl 31 31)).put (F.CRC_CHk_CTRL_ALG k) (bitsOf ctrl 27 26)).put
        (F.CRC_CHk_CTRL_CONTINUE k) (bitsOf ctrl 25 25)).put (F.CRC_CHk_CTRL_SOURCE k) (bitsOf ctrl 23 20)
      let r := r.put (F.CRC_CHk_CTRL_DONE k) 0
      { x with regs := (if bitOf ctrl 31 && !bitOf ctrl 25 then
          r.putPair (F.CRC_CHk_RUNNING_LO_RUNNING k) (F.CRC_CHk_RUNNING_HI_RUNNING k) (crcInit (bitsOf ctrl 27 26)) else r) })
  else m.updLane l (fun x => { x with regs := x.regs.incReg (blkBase .crc + 0x20) })

/-! ### The service snoop context (R367, R368) -/

/-- Feed the service snoop context. -/
def Regs.snoop (r : Regs) (l : List Byte) : Regs :=
  let alg := r.fld F.CRC_SNOOP_CTRL_ALG
  let v := crcFeed alg (r.pair F.CRC_SNOOP_RUNNING_LO_RUNNING F.CRC_SNOOP_RUNNING_HI_RUNNING) l
  ((r.putPair F.CRC_SNOOP_RUNNING_LO_RUNNING F.CRC_SNOOP_RUNNING_HI_RUNNING v).putPair F.CRC_SNOOP_RESULT_LO_RESULT
    F.CRC_SNOOP_RESULT_HI_RESULT (crcFinal alg v)).addWrap F.CRC_SNOOP_COUNT_BYTES l.length

/-- SNOOP_INIT: the initial value of ALG; other ALG values are ignored and counted. -/
def Regs.snoopInit (r : Regs) (alg : Nat) : Regs :=
  if 2 ≤ alg then r.incReg (blkBase .crc + 0x20)
  else
    (((r.put F.CRC_SNOOP_CTRL_ALG alg).putPair F.CRC_SNOOP_RUNNING_LO_RUNNING F.CRC_SNOOP_RUNNING_HI_RUNNING (crcInit alg)).putPair
      F.CRC_SNOOP_RESULT_LO_RESULT F.CRC_SNOOP_RESULT_HI_RESULT (crcFinal alg (crcInit alg))).put F.CRC_SNOOP_COUNT_BYTES 0

/-- SNOOP_CTRL as the housekeeping core writes it: INIT, or ALG alone; RESULT is RUNNING with the final XOR of ALG. -/
def Regs.snoopResult (r : Regs) : Regs :=
  r.putPair F.CRC_SNOOP_RESULT_LO_RESULT F.CRC_SNOOP_RESULT_HI_RESULT
    (crcFinal (r.fld F.CRC_SNOOP_CTRL_ALG) (r.pair F.CRC_SNOOP_RUNNING_LO_RUNNING F.CRC_SNOOP_RUNNING_HI_RUNNING))
def Regs.snoopCtrl (r : Regs) (v : Nat) : Regs :=
  if bitOf v 0 ∨ 2 ≤ bitsOf v 27 26 then r.snoopInit (bitsOf v 27 26) else (r.put F.CRC_SNOOP_CTRL_ALG (bitsOf v 27 26)).snoopResult

/-! ### Scan engines (R364, R365) -/

def Lane.scanAddr (x : Lane) (e : Nat) : Nat := x.regs.pair (F.CRC_SCANm_ADDR_LO_ADDR e) (F.CRC_SCANm_ADDR_HI_ADDR e)
def Lane.scanSeal (x : Lane) (e : Nat) : Nat := x.regs.pair (F.CRC_SCANm_SEAL_LO_SEAL e) (F.CRC_SCANm_SEAL_HI_SEAL e)
def Lane.scanLen (x : Lane) (e : Nat) : Nat := x.regs.fld (F.CRC_SCANm_LEN_LEN e)

/-- Why a scan cannot run: 3 length or alignment, 2 range outside memory, 0 it can. -/
def Lane.scanCheck (x : Lane) (e mode : Nat) : Nat :=
  let a := x.scanAddr e
  let n := x.scanLen e
  let unit := if mode < 2 then 8 else 4096
  if a % unit ≠ 0 ∨ n % unit ≠ 0 then 3
  else if engineSize e < a + n ∨ (2 ≤ mode ∧ engineSize e < x.scanSeal e + n / 4096 * 4) then 2
  else 0

/-- An engine ends in error. -/
def Mach.scanError (m : Mach) (l : LaneId) (e code : Nat) : Mach :=
  (m.updLane l (fun x => { x with regs := (((((x.regs.put (F.CRC_SCANm_STATUS_STATE e) 4).put (F.CRC_SCANm_STATUS_ERROR e)
    code).put (F.CRC_SCANm_CTRL_START e) 0).put (F.CRC_SCANm_CTRL_PAUSE e) 0).incReg (blkBase .crc + 0x20)) })).raiseLane l .crc
    I.CRC_ERROR

/-- A write to a running engine that is no PAUSE is ignored and counted. -/
def Mach.crcIgnored (m : Mach) (l : LaneId) : Mach :=
  m.updLane l (fun x => { x with regs := x.regs.incReg (blkBase .crc + 0x20) })

/-- START in a mode, an unscheduled slot of the lane (R18). While the image scan holds the engine it counts as running (R147, assumption 77). -/
def Mach.scanStart (m : Mach) (l : LaneId) (e mode : Nat) : Mach := m.whenOn fun m =>
  let m := m.wakeLane l
  let x := m.lane l
  if x.regs.fld (F.CRC_SCANm_STATUS_STATE e) = 1 || m.scanReserved l e then m.crcIgnored l
  else
    let m := m.updLane l (fun x => { x with regs := (((x.regs.put (F.CRC_SCANm_CTRL_MODE e) mode).put (F.CRC_SCANm_CTRL_CONTINUE e)
      0).put (F.CRC_SCANm_CTRL_PAUSE e) 0) })
    let c := x.scanCheck e mode
    if c ≠ 0 then m.scanError l e c
    else m.updLane l (fun x =>
      let r := ((((x.regs.put (F.CRC_SCANm_CTRL_START e) 1).put (F.CRC_SCANm_STATUS_STATE e) 1).put (F.CRC_SCANm_STATUS_ERROR e)
        0).put (F.CRC_SCANm_POS_POS e) 0).putPair (F.CRC_SCANm_RUNNING_LO_RUNNING e) (F.CRC_SCANm_RUNNING_HI_RUNNING e)
        (crcInit (if mode = 1 then 1 else 0))
      { x with regs := (if mode = 3 then (r.put (F.CRC_SCANm_STATUS_BLOCK_FAILS e) 0).put (F.CRC_SCANm_BLOCK_FAIL_INDEX e)
                         0xFFFFFFFF else r) })

/-- One whole block in modes 2 and 3: its CRC-32C into the CRC-64, and into the seal table or against it. -/
def Lane.scanBlock (x : Lane) (e mode k : Nat) : Lane :=
  let s := (crc32c (x.engineRead e (x.scanAddr e + k * 4096) 4096)).toNat
  let v := crcFeed 0 (x.regs.pair (F.CRC_SCANm_RUNNING_LO_RUNNING e) (F.CRC_SCANm_RUNNING_HI_RUNNING e)) (be 4 s)
  let r := x.regs.putPair (F.CRC_SCANm_RUNNING_LO_RUNNING e) (F.CRC_SCANm_RUNNING_HI_RUNNING e) v
  let at_ := x.scanSeal e + 4 * k
  if mode = 2 then ({ x with regs := r } : Lane).sealWrite e at_ (be 4 s)
  else if ofBe (x.engineRead e at_ 4) = s then { x with regs := r }
  else
    let r := r.inc (F.CRC_SCANm_STATUS_BLOCK_FAILS e)
    let r := if r.fld (F.CRC_SCANm_BLOCK_FAIL_INDEX e) = 0xFFFFFFFF then r.put (F.CRC_SCANm_BLOCK_FAIL_INDEX e) k else r
    { x with regs := r.setBit (blkBase .crc + 0x10) I.CRC_BLOCK_FAIL true }

/-- The engine reads `n` bytes more. In modes 2 and 3 RUNNING is that of the CRC-64 over the seals of whole blocks
(assumption 40). -/
def Lane.scanMove (x : Lane) (on : Bool) (e n : Nat) : Lane :=
  let mode := x.regs.fld (F.CRC_SCANm_CTRL_MODE e)
  let pos := x.regs.fld (F.CRC_SCANm_POS_POS e)
  let a := x.scanAddr e + pos
  let l := x.engineRead e a n
  let y := if mode < 2 then
      let v := crcFeed mode (x.regs.pair (F.CRC_SCANm_RUNNING_LO_RUNNING e) (F.CRC_SCANm_RUNNING_HI_RUNNING e)) l
      { x with regs := x.regs.putPair (F.CRC_SCANm_RUNNING_LO_RUNNING e) (F.CRC_SCANm_RUNNING_HI_RUNNING e) v }
    else ((List.range ((pos + n) / 4096)).filter (fun k => decide (pos / 4096 ≤ k))).foldl (fun y k => y.scanBlock e mode k) x
  { y with regs := (y.regs.put (F.CRC_SCANm_POS_POS e) (pos + n)).tap on e (fun _ => true) a l }

/-- Bytes still to be read. -/
def Lane.scanLeft (x : Lane) (e : Nat) : Nat := x.scanLen e - x.regs.fld (F.CRC_SCANm_POS_POS e)

/-- A change of the CRC block of a lane, with the vector it may send. -/
def Mach.crcUpd (m : Mach) (l : LaneId) (f : Lane → Lane) : Mach := m.vectorIf (m.updLane l f) .crc

/-- SCAN_PAUSE: after `words` words more the engine stops. -/
def Mach.scanPause (m : Mach) (l : LaneId) (e words : Nat) : Mach := m.whenOn fun m =>
  if (m.lane l).regs.fld (F.CRC_SCANm_STATUS_STATE e) ≠ 1 then m
  else m.crcUpd l (fun x =>
    let y := x.scanMove (m.channelsOn x) e (min (8 * words) (x.scanLeft e))
    { y with regs := (y.regs.put (F.CRC_SCANm_STATUS_STATE e) 2).put (F.CRC_SCANm_CTRL_PAUSE e) 1 })

/-- SCAN_CONTINUE: START with CONTINUE, from POS with RUNNING. -/
def Mach.scanContinue (m : Mach) (l : LaneId) (e : Nat) : Mach := m.whenOn fun m =>
  let m := m.wakeLane l
  let x := m.lane l
  if x.regs.fld (F.CRC_SCANm_STATUS_STATE e) = 1 || m.scanReserved l e then m.crcIgnored l
  else
    let c := x.scanCheck e (x.regs.fld (F.CRC_SCANm_CTRL_MODE e))
    if c ≠ 0 then m.scanError l e c
    else m.updLane l (fun x => { x with regs := (((((x.regs.put (F.CRC_SCANm_CTRL_START e) 1).put (F.CRC_SCANm_CTRL_CONTINUE e)
      1).put (F.CRC_SCANm_CTRL_PAUSE e) 0).put (F.CRC_SCANm_STATUS_STATE e) 1).put (F.CRC_SCANm_STATUS_ERROR e) 0) })

/-- SCAN_DONE: the range is read, or an uncorrectable read ends the engine. -/
def Mach.scanDone (m : Mach) (l : LaneId) (e : Nat) (bad : Bool) : Mach := m.whenOn fun m =>
  if (m.lane l).regs.fld (F.CRC_SCANm_STATUS_STATE e) ≠ 1 then m
  else if bad then m.scanError l e 1
  else
    let m := m.crcUpd l (fun x =>
      let y := x.scanMove (m.channelsOn x) e (x.scanLeft e)
      let alg := if y.regs.fld (F.CRC_SCANm_CTRL_MODE e) = 1 then 1 else 0
      let v := crcFinal alg (y.regs.pair (F.CRC_SCANm_RUNNING_LO_RUNNING e) (F.CRC_SCANm_RUNNING_HI_RUNNING e))
      { y with regs := ((((y.regs.putPair (F.CRC_SCANm_RESULT_LO_RESULT e) (F.CRC_SCANm_RESULT_HI_RESULT e) v).put
        (F.CRC_SCANm_STATUS_STATE e) 3).put (F.CRC_SCANm_CTRL_START e) 0).put (F.CRC_SCANm_CTRL_CONTINUE e) 0) })
    m.raiseLane l .crc I.CRC_DONE

end Sys2Proof.Machine
end

