-- ==== Sys2Proof/Machine/DmaOps.lean ====
section
/-!
DEFINITION. Machine/DmaOps.lean: the DMA units of the lanes and of the Service Controller (R358 to R363).
-/
namespace Sys2Proof.Machine

def dmaBase : DmaUnit → Nat
  | .lane _ => laneDma
  | .sc => scDma

def dmaBlk : DmaUnit → Blk
  | .lane _ => .dma
  | .sc => .scdma

def dmaChannels : DmaUnit → Nat
  | .lane _ => 16
  | .sc => 8

/-- The register file of a unit. -/
def Mach.dmaFile (m : Mach) : DmaUnit → Regs
  | .lane l => (m.lane l).regs
  | .sc => m.sc.regs

def Mach.dmaUpd (m : Mach) (u : DmaUnit) (f : Regs → Regs) : Mach :=
  match u with
  | .lane l => m.updLane l (fun x => { x with regs := f x.regs })
  | .sc => { m with sc := { m.sc with regs := f m.sc.regs } }

def Mach.dmaFld (m : Mach) (u : DmaUnit) (f : Nat → Nat → Field) (ch : Nat) : Nat := (m.dmaFile u).fld (f (dmaBase u) ch)
def Mach.dmaPut (m : Mach) (u : DmaUnit) (f : Nat → Nat → Field) (ch v : Nat) : Mach :=
  m.dmaUpd u (fun r => r.put (f (dmaBase u) ch) v)

def Mach.dmaRaise (m : Mach) (u : DmaUnit) (i : Nat) : Mach :=
  match u with
  | .lane l => m.raiseLane l .dma i
  | .sc => m.raiseSc .scdma i

def Mach.dmaState (m : Mach) (u : DmaUnit) (ch : Nat) : Nat := m.dmaFld u F.DMA_CHn_STATUS_STATE ch

/-- DMA.STATUS, BUSY and PREEMPTED as the channels stand. -/
def Mach.dmaView (m : Mach) (u : DmaUnit) : Mach :=
  let b := dmaBase u
  let busy := bitmap (dmaChannels u) (fun k => decide (1 ≤ m.dmaState u k) && decide (m.dmaState u k ≤ 3))
  let wait := bitmap (dmaChannels u) (fun k => decide (m.dmaFld u F.DMA_CHn_STATUS_DEFERRED k = 1))
  let pre := bitmap (dmaChannels u) (fun k => decide (m.dmaState u k = 2))
  m.dmaUpd u (fun r => (((r.put (F.DMA_STATUS_ACTIVE b) (b2n (decide (busy ≠ 0)))).put (F.DMA_BUSY_ACTIVE b) busy).put
    (F.DMA_BUSY_DEFERRED b) wait).put (F.DMA_PREEMPTED_NOW b) pre)

/-! ### A transfer's registers -/

/-- What a channel is set to do. -/
structure Xfer where
  op : Nat
  src : Nat
  dst : Nat
  srcSpace : Nat
  dstSpace : Nat
  count : Nat
  fill : Nat
  prio : Nat
  snoop : Nat
  deriving DecidableEq, Repr

def Mach.xfer (m : Mach) (u : DmaUnit) (ch : Nat) : Xfer :=
  let f := m.dmaFld u
  ⟨f F.DMA_CHn_CTRL_OP ch, f F.DMA_CHn_SRC_LO_SRC ch + f F.DMA_CHn_SRC_HI_SRC ch * 2 ^ 32,
   f F.DMA_CHn_DST_LO_DST ch + f F.DMA_CHn_DST_HI_DST ch * 2 ^ 32, f F.DMA_CHn_CTRL_SRC_SPACE ch, f F.DMA_CHn_CTRL_DST_SPACE ch,
   f F.DMA_CHn_COUNT_COUNT ch, f F.DMA_CHn_FILL_LO_FILL ch + f F.DMA_CHn_FILL_HI_FILL ch * 2 ^ 32, f F.DMA_CHn_CTRL_PRIORITY ch,
   f F.DMA_CHn_CTRL_SNOOP ch⟩

/-- The flash slot in WRITING: 0 A, 1 B. -/
def Mach.writingSlot (m : Mach) : Option Nat :=
  if m.sc.slotA.state = 1 then some 0 else if m.sc.slotB.state = 1 then some 1 else none

/-- Bytes of a space of R359; the host's addresses are 64 bits wide. -/
def spaceSize (k : Nat) : Nat :=
  if k = 0 then 0x800000 else if k = 1 then 0x200000000 else if k = 2 then 2 ^ 64 else 0x80000000

/-- Two ranges overlap. -/
def overlap (a n b len : Nat) : Bool := decide (a < b + len) && decide (b < a + n)

/-- A lane on which the housekeeping core may zero-fill every region and write what the transfers bring (R359): one whose registers
show step 4 of R302 (assumption 67), and a joining one from step 2 to step 8 of R159. -/
def Mach.laneOpen (m : Mach) (x : Lane) : Bool :=
  decide (m.sys.mode = 3) || decide (x.regs.fld F.BST_STATUS_ISOLATED = 1) ||
  (x.role == .joining && decide (2 ≤ x.regs.fld F.RED_DARN_STATUS_STEP) && decide (x.regs.fld F.RED_DARN_STATUS_STEP ≤ 8))

/-- The ZVL region is open to the transfers of the serving lanes at step 8 of R159 alone (R28, assumption 127). -/
def zvlRefill (x : Lane) : Bool := x.role == .joining && decide (x.regs.fld F.RED_DARN_STATUS_STEP = 8)

/-- A lane DMA write range touches what R359 protects: the active image region, the reserved region, the ZVL region, and in the
modes of R420 State Image, input image and command staging. `zero`: a zero fill, `copy`: a COPY. The manual gives the DRAM regions of R29 and the
on-die regions of R28 sizes and no offsets; they lie in their tables' order (DESIGN CHOICE, assumptions 35 and 65). -/
def Mach.dmaProtected (m : Mach) (x : Lane) (ch space a n : Nat) (zero copy : Bool) : Bool :=
  let free := m.laneOpen x && decide (ch < 12)
  let active := overlap a n (if x.activeHi then 0x80000000 else 0) 0x80000000
  let reserved := overlap a n 0x180000000 0x80000000
  let zvl := overlap a n sramZvl 0xC0000
  let vital := x.isServing && modeLocks m.sys.mode && (overlap a n 0 sramConflict || overlap a n 0x700000 0x80000)
  if space = 1 then (active || reserved) && !(free && zero)
  else if space = 0 then (zvl && !(free && (zero || (copy && zvlRefill x)))) || (vital && !free)
  else false

/-- What a transfer may not write: of a lane what R359 protects, of the Service Controller SC DRAM outside the staging area, and the
staging area in UPDATE (R402). -/
def Mach.dmaShut (m : Mach) (u : DmaUnit) (ch : Nat) (t : Xfer) (a n : Nat) : Bool :=
  decide (t.op ≠ 2) && match u with
    | .lane l => m.dmaProtected (m.lane l) ch t.dstSpace a n (decide (t.op = 1) && decide (t.fill = 0)) (decide (t.op = 0))
    | .sc => decide (t.dstSpace = 3) && (decide (a < 0x20000000) || decide (0x40000000 < a + n) || decide (m.sys.mode = 13))

/-- The checks at a start (R359, R363), in the order count, allowance, range, protection, flash (assumption 41): the ERROR code, 0
when none fails. -/
def Mach.dmaCheck (m : Mach) (u : DmaUnit) (ch : Nat) : Nat :=
  let t := m.xfer u ch
  let reads := decide (t.op ≠ 1)
  let writes := decide (t.op ≠ 2)
  if t.op = 3 ∨ t.count < 8 ∨ t.count % 8 ≠ 0 ∨ t.dst % 8 ≠ 0 ∨ (reads && decide (t.src % 8 ≠ 0)) then 5
  else
    let allowed := match u with
      | .lane _ =>
        decide (t.dstSpace ≤ 3) && (!reads || decide (t.srcSpace ≤ 1)) && decide (t.snoop ≤ 9) &&
        (decide (ch < 12) || (decide (t.prio = 3) && decide (t.snoop = 0) &&
          (if writes then decide (t.dstSpace = 2) else decide (t.dstSpace ≤ 1))))
      | .sc =>
        (!reads || decide (t.srcSpace = 2) || decide (t.srcSpace = 3)) &&
        (decide (2 ≤ t.dstSpace) && (decide (t.dstSpace ≤ 4) || (decide (t.dstSpace = 5) && decide (6 ≤ ch))))
    if !allowed then 7
    else if (reads && decide (spaceSize t.srcSpace < t.src + t.count)) ||
        (decide (t.dstSpace ≠ 4) && decide (spaceSize t.dstSpace < t.dst + t.count)) then 2
    else
      if m.dmaShut u ch t t.dst t.count then 1
      else if t.dstSpace = 4 then
        match m.writingSlot with
        | none => 6
        | some k =>
          let s := m.slotOf k
          let again := (List.range (t.count / 8)).any (fun w => Store.get (fun _ => false) s.written (t.dst / 8 + w))
          if s.len < t.dst + t.count ∨ (writes && again) then 6 else 0
      else 0

/-! ### Moving bytes -/

/-- Read `n` bytes of a space. Host bytes come with the event, and a read beyond them finds none. -/
def Mach.dmaRead (m : Mach) (u : DmaUnit) (space a n : Nat) (host : List Byte) : List Byte :=
  match space with
  | 0 => match u with | .lane l => (m.lane l).sramRead a n | .sc => []
  | 1 => match u with | .lane l => (m.lane l).dramRead a n | .sc => []
  | 2 => host.take n
  | 3 => m.sc.dram.read a n
  | 4 => match m.writingSlot with | some k => (m.slotOf k).bytes.read a n | none => []
  | _ => m.leadLane.dram.read (m.leadLane.stagingBase + a) n

/-- The slot after bytes have been written to it. -/
def FlashSlot.fill (s : FlashSlot) (a : Nat) (l : List Byte) : FlashSlot :=
  { s with bytes := s.bytes.write a l,
           written := (List.range (l.length / 8)).foldl (fun w k => Store.set (fun _ => false) w (a / 8 + k) true) s.written }

def Mach.setSlot (m : Mach) (k : Nat) (s : FlashSlot) : Mach :=
  if k = 0 then { m with sc := { m.sc with slotA := s } } else { m with sc := { m.sc with slotB := s } }

/-- Write bytes into a space. -/
def Mach.dmaWrite (m : Mach) (u : DmaUnit) (space a : Nat) (l : List Byte) : Mach :=
  match space with
  | 0 => match u with | .lane k => m.updLane k (fun x => x.sramWrite a l) | .sc => m
  | 1 => match u with | .lane k => m.updLane k (fun x => x.dramWrite a l) | .sc => m
  | 2 => { m with sc := { m.sc with host := m.sc.host.write a l } }
  | 3 => { m with sc := { m.sc with dram := m.sc.dram.write a l } }
  | 4 => match m.writingSlot with | some k => m.setSlot k ((m.slotOf k).fill a l) | none => m
  | _ => m.participants.foldl (fun (m : Mach) k => m.updLane k (fun x =>
      if x.hostLink then { x with dram := x.dram.write (x.stagingBase + a) l } else x)) m

/-- Bytes a channel feeds to its snoop context, of a lane unit (R367). -/
def Mach.dmaSnoop (m : Mach) (u : DmaUnit) (snoop pos : Nat) (l : List Byte) : Mach :=
  match u with
  | .sc => m
  | .lane k =>
    if snoop = 0 then m
    else if snoop = 9 then m.updLane k (fun x => { x with regs := x.regs.snoop l })
    else m.updLane k (fun x => { x with regs := x.regs.tap (m.channelsOn x) 2 (fun c => decide (c + 1 = snoop)) pos l })

/-- `n` bytes of the 64-bit FILL value, most significant byte first. -/
def fillBytes (v n : Nat) : List Byte := (List.range n).map (fun k => (be 8 v).getD (k % 8) 0)

/-- Differing 8-byte words: how many, and the index of the first. -/
def diffWords64 : Nat → List Byte → List Byte → List Nat
  | 0, _, _ => []
  | n + 1, a, b =>
    let rest := (diffWords64 n (a.drop 8) (b.drop 8)).map (· + 1)
    if a.take 8 = b.take 8 then rest else 0 :: rest

/-- KB boundaries that a transfer passes (assumption 42). -/
def kbPassed (pos n : Nat) : Nat := (pos + n) / 1024 - pos / 1024

/-- A channel ends with an error, and its bit is raised (R361). -/
def Mach.dmaError (m : Mach) (u : DmaUnit) (ch code addr : Nat) : Mach :=
  let m := ((m.dmaPut u F.DMA_CHn_STATUS_STATE ch 5).dmaPut u F.DMA_CHn_STATUS_ERROR ch code).dmaPut u F.DMA_CHn_CTRL_ENABLE ch 0
  let m := m.dmaUpd u (fun r => (r.incReg (dmaBase u + 0x20)).set (dmaBase u + 0x24) (BitVec.ofNat 32 addr))
  (m.dmaRaise u (I.DMA_ERR + ch)).dmaView u

/-- A channel of the unit with a higher priority has it (R360). -/
def Mach.dmaOutranked (m : Mach) (u : DmaUnit) (ch : Nat) : Bool :=
  (List.range (dmaChannels u)).any (fun k => decide (m.dmaState u k = 1) &&
    decide (m.dmaFld u F.DMA_CHn_CTRL_PRIORITY k < m.dmaFld u F.DMA_CHn_CTRL_PRIORITY ch))

/-- The unit free of a higher priority: the pre-empted channels of the highest priority left go on. -/
def Mach.dmaResume (m : Mach) (u : DmaUnit) : Mach :=
  ((List.range (dmaChannels u)).foldl (fun (m : Mach) k =>
    let held := decide (m.dmaState u k = 2) && !m.dmaOutranked u k &&
      (List.range (dmaChannels u)).all (fun j => decide (m.dmaState u j ≠ 2) ||
        decide (m.dmaFld u F.DMA_CHn_CTRL_PRIORITY k ≤ m.dmaFld u F.DMA_CHn_CTRL_PRIORITY j))
    if held then m.dmaPut u F.DMA_CHn_STATUS_STATE k 1 else m) m).dmaView u

/-- The destination of a COPY begins above its source and inside it, in a memory of the module. -/
def Xfer.onto (t : Xfer) : Bool :=
  decide (t.op = 0) && decide (t.srcSpace = t.dstSpace) && decide (t.srcSpace ≠ 2) && decide (t.src < t.dst) && decide (t.dst < t.src + t.count)

/-- A number for the free bytes of such a COPY, where it needs one. -/
def Mach.ontoFresh (m : Mach) (t : Xfer) : Nat × Mach := if t.onto then m.fresh else (0, m)

/-- What a COPY writes of the bytes read at position `pos` of the transfer, the first `kept` of them from its buffer. Where its destination
begins above its source and inside it, beats already written are read again: from 1 KB on each byte repeats the one that lies the distance
before it; nearer, how far the channel has read ahead is left open, and so is every byte from the distance on (R359, R360, assumption 142).
`f`: the number of the free value. -/
def Xfer.copied (t : Xfer) (pos kept f : Nat) (l : List Byte) : List Byte :=
  let d := t.dst - t.src
  if t.onto then
    l.zipIdx.map (fun e =>
      if 1024 ≤ d then l.getD (e.2 % d) 0
      else if e.2 < kept ∨ pos + e.2 < d then e.1
      else Config.copyByte f (pos + e.2))
  else l

/-- DONE (R361). -/
def Mach.dmaEnd (m : Mach) (u : DmaUnit) (ch : Nat) : Mach :=
  let m := (m.dmaPut u F.DMA_CHn_STATUS_STATE ch 4).dmaPut u F.DMA_CHn_CTRL_ENABLE ch 0
  let m := if m.dmaFld u F.DMA_CHn_CTRL_EOC_INT ch = 1 then m.dmaRaise u (I.DMA_EOC + ch) else m
  m.dmaResume u

/-- What a unit holds beside its registers. -/
def Mach.dmaHeld (m : Mach) : DmaUnit → DmaHold
  | .lane l => (m.lane l).dma
  | .sc => m.sc.dma

def Mach.dmaHold (m : Mach) (u : DmaUnit) (f : DmaHold → DmaHold) : Mach :=
  match u with
  | .lane l => m.updLane l (fun x => { x with dma := f x.dma })
  | .sc => { m with sc := { m.sc with dma := f m.sc.dma } }

def noBytes : Nat → List Byte := fun _ => []

/-- The bytes a channel has read and not yet written. -/
def Mach.dmaKept (m : Mach) (u : DmaUnit) (ch : Nat) : List Byte := Store.get noBytes (m.dmaHeld u).kept ch
def Mach.dmaKeep (m : Mach) (u : DmaUnit) (ch : Nat) (l : List Byte) : Mach :=
  m.dmaHold u (fun h => { h with kept := Store.set noBytes h.kept ch l })

/-- A write aimed at the active image is refused, and counted in SYS (R32). -/
def Mach.countActive (m : Mach) (u : DmaUnit) (t : Xfer) (a n : Nat) : Mach :=
  match u with
  | .lane l =>
    if t.op ≠ 2 ∧ t.dstSpace = 1 ∧ overlap a n (if (m.lane l).activeHi then 0x80000000 else 0) 0x80000000 then
      m.updLane l (fun x => { x with regs := (x.regs.incReg (blkBase .sys + 0x20)).set (blkBase .sys + 0x24) (BitVec.ofNat 32 a) })
    else m
  | .sc => m

/-- The bytes of a comparison in transfer order: of every beat of 64 B the source's, then the destination's (assumption 115). -/
def byBeats : Nat → List Byte → List Byte → List Byte
  | 0, _, _ => []
  | n + 1, a, b => a.take 64 ++ b.take 64 ++ byBeats n (a.drop 64) (b.drop 64)

/-- The transfer takes host bytes: for its source, for its destination. -/
def Xfer.hostSrc (t : Xfer) : Bool := decide (t.op ≠ 1) && decide (t.srcSpace = 2)
def Xfer.hostDst (t : Xfer) : Bool := decide (t.op = 2) && decide (t.dstSpace = 2)

/-- The host's bytes for source and destination; a comparison of host memory with itself has half of them for each. -/
def Xfer.hostBytes (t : Xfer) (host : List Byte) : List Byte × List Byte :=
  if t.hostSrc && t.hostDst then (host.take (host.length / 2), host.drop (host.length / 2))
  else (if t.hostSrc then host else [], if t.hostDst then host else [])

/-- Up to `n` bytes more of a running channel, in whole beats of 64 B but for its last (R360): the bytes it has kept first, then what it
reads. A range that has come to be protected since the start ends it in error 1. COMPARE counts the differing words, and with
STOP_ON_DIFF ends at the first. -/
def Mach.dmaMove (m : Mach) (u : DmaUnit) (ch n : Nat) (hs hd : List Byte) : Mach :=
  let t := m.xfer u ch
  let left := m.dmaFld u F.DMA_CHn_REMAIN_REMAIN ch
  let pos := t.count - left
  let kept := m.dmaKept u ch
  let want := min n left
  let most := min (if t.hostSrc then min want (kept.length + hs.length) else want) (if t.hostDst then hd.length else want)
  let got := if most = left then left else most / 64 * 64
  if m.dmaShut u ch t (t.dst + pos) got then ((m.dmaError u ch 1 (t.dst + pos)).dmaResume u).countActive u t (t.dst + pos) got
  else
  let read := m.dmaRead u t.srcSpace (t.src + pos + kept.length) (got - kept.length) hs
  let put := fun (m : Mach) (l : List Byte) =>
    (m.dmaWrite u t.dstSpace (t.dst + pos) l).dmaUpd u (fun r =>
      (r.put (F.DMA_CHn_REMAIN_REMAIN (dmaBase u) ch) (left - got)).addWrap (F.DMA_KBYTES_KBYTES (dmaBase u)) (kbPassed pos got))
  match t.op with
  | 0 =>
    let f := m.ontoFresh t
    let l := t.copied pos kept.length f.1 (kept ++ read)
    ((put f.2 (l.take got)).dmaKeep u ch (kept.drop got)).dmaSnoop u t.snoop (pos + kept.length) (l.drop kept.length)
  | 1 => (put m (fillBytes t.fill got)).dmaSnoop u t.snoop pos (fillBytes t.fill got)
  | _ =>
    let a := m.dmaRead u t.srcSpace (t.src + pos) got hs
    let b := m.dmaRead u t.dstSpace (t.dst + pos) got hd
    let d := diffWords64 (got / 8) a b
    let stop := decide (m.dmaFld u F.DMA_CHn_CTRL_STOP_ON_DIFF ch = 1)
    let d := if stop then d.take 1 else d
    let done := if stop && !d.isEmpty then (d.headD 0 + 1) * 8 else got
    let m := m.dmaUpd u (fun r =>
      let base := dmaBase u
      let r := r.put (F.DMA_CHn_REMAIN_REMAIN base ch) (left - done)
      let r := r.addWrap (F.DMA_KBYTES_KBYTES base) (kbPassed pos done)
      if d.isEmpty then r
      else
        let r := (r.put (F.DMA_CHn_DIFF_COUNT_COUNT base ch) (satAt 32 (r.fld (F.DMA_CHn_DIFF_COUNT_COUNT base ch) + d.length))).put
          (F.DMA_CHn_STATUS_DIFFER base ch) 1
        if r.fld (F.DMA_CHn_DIFF_OFFSET base ch) = 0xFFFFFFFF then r.put (F.DMA_CHn_DIFF_OFFSET base ch) (pos + d.headD 0 * 8) else r)
    let m := m.dmaSnoop u t.snoop (2 * pos) (byBeats ((done + 63) / 64) (a.take done) (b.take done))
    if stop && !d.isEmpty then m.dmaEnd u ch else m

/-- The channels that take turns with a running one: of its priority, running, and not waiting for host data. -/
def Mach.dmaPeers (m : Mach) (u : DmaUnit) (ch : Nat) : List Nat :=
  (List.range (dmaChannels u)).filter (fun k => decide (k ≠ ch) && decide (m.dmaState u k = 1) &&
    decide (m.dmaFld u F.DMA_CHn_CTRL_PRIORITY k = m.dmaFld u F.DMA_CHn_CTRL_PRIORITY ch) &&
    decide (m.dmaFld u F.DMA_CHn_REMAIN_REMAIN k ≠ 0) && !(m.xfer u k).hostSrc && !(m.xfer u k).hostDst)

/-- `n` bytes of a channel in turns of 4 KB with its peers, the channel first; the first operand bounds the turns. -/
def Mach.dmaTurns (u : DmaUnit) (ch : Nat) : Nat → Nat → List Byte → List Byte → Mach → Mach
  | 0, _, _, _, m => m
  | k + 1, n, hs, hd, m =>
    let m1 := m.dmaMove u ch (min n 4096) hs hd
    let done := m.dmaFld u F.DMA_CHn_REMAIN_REMAIN ch - m1.dmaFld u F.DMA_CHn_REMAIN_REMAIN ch
    if m1.dmaState u ch ≠ 1 ∨ done = 0 ∨ n ≤ done then m1
    else Mach.dmaTurns u ch k (n - done) (hs.drop done) (hd.drop done)
      ((m1.dmaPeers u ch).foldl (fun (m : Mach) j => m.dmaMove u j 4096 [] []) m1)

/-- `n` bytes of a running channel (R360): alone, or in turns with the channels of its priority. -/
def Mach.dmaRun (m : Mach) (u : DmaUnit) (ch n : Nat) (host : List Byte) : Mach :=
  let h := (m.xfer u ch).hostBytes host
  if (m.dmaPeers u ch).isEmpty then m.dmaMove u ch n h.1 h.2 else Mach.dmaTurns u ch (n / 4096 + 1) n h.1 h.2 m

/-- A running channel is pre-empted (R360): a COPY whose source is not the host keeps up to 1 KB read and not yet written, how much of it
the manual leaves open (assumption 116). -/
def Mach.dmaPreempt (m : Mach) (u : DmaUnit) (ch : Nat) : Mach :=
  let t := m.xfer u ch
  let left := m.dmaFld u F.DMA_CHn_REMAIN_REMAIN ch
  let kept := m.dmaKept u ch
  let f := m.fresh
  let more := min (64 * ((Config.freeWord f.1).toNat % 17)) left - kept.length
  let a := (t.copied (t.count - left) kept.length f.1 (kept ++
    m.dmaRead u t.srcSpace (t.src + (t.count - left) + kept.length) more [])).drop kept.length
  let m := if t.op = 0 ∧ t.srcSpace ≠ 2 then
      ((f.2).dmaKeep u ch (kept ++ a)).dmaSnoop u t.snoop (t.count - left + kept.length) a
    else m
  (m.dmaPut u F.DMA_CHn_STATUS_STATE ch 2).dmaUpd u (fun r => (r.inc (F.DMA_CHn_STATUS_PREEMPTS (dmaBase u) ch)).inc
    (F.DMA_PREEMPTED_COUNT (dmaBase u)))

/-- A channel starts: its checks, then the unit by priority; `beats` beats of 64 B move before the next event. -/
def Mach.dmaBegin (m : Mach) (u : DmaUnit) (ch beats : Nat) (host : List Byte) : Mach :=
  let m := match u with | .lane l => m.wakeLane l | .sc => m
  let t := m.xfer u ch
  let c := m.dmaCheck u ch
  let m := (m.dmaPut u F.DMA_CHn_STATUS_ERROR ch 0).dmaPut u F.DMA_CHn_STATUS_DIFFER ch 0
  let m := (m.dmaPut u F.DMA_CHn_STATUS_PREEMPTS ch 0).dmaPut u F.DMA_CHn_REMAIN_REMAIN ch t.count
  let m := ((m.dmaPut u F.DMA_CHn_DIFF_OFFSET ch 0xFFFFFFFF).dmaPut u F.DMA_CHn_DIFF_COUNT_COUNT ch 0).dmaKeep u ch []
  if c ≠ 0 then (m.dmaError u ch c t.dst).countActive u t t.dst t.count
  else
    let m := (m.dmaPut u F.DMA_CHn_CTRL_ENABLE ch 1).dmaPut u F.DMA_CHn_STATUS_STATE ch 1
    let m := (List.range (dmaChannels u)).foldl (fun (m : Mach) k =>
      if k ≠ ch ∧ m.dmaState u k = 1 ∧ t.prio < m.dmaFld u F.DMA_CHn_CTRL_PRIORITY k then m.dmaPreempt u k else m) m
    let m := m.dmaView u
    if m.dmaOutranked u ch then m else m.dmaRun u ch (beats * 64) host

/-- ABORT (R362): what has been read and not written is discarded. -/
def Mach.dmaAbort (m : Mach) (u : DmaUnit) (ch : Nat) : Mach := m.whenOn fun m =>
  if m.dmaState u ch = 1 ∨ m.dmaState u ch = 2 then
    let t := m.xfer u ch
    let at_ := t.dst + (t.count - m.dmaFld u F.DMA_CHn_REMAIN_REMAIN ch)
    (((m.dmaKeep u ch []).dmaHold u (fun h => { h with stop := Store.set (fun _ => 0) h.stop ch at_ })).dmaPut u
      F.DMA_CHn_STATUS_STATE ch 3).dmaResume u
  else m

/-- The bits of CHn_CTRL that a write leaves: in the SC DMA block LANES and SNOOP are reserved (R363). -/
def dmaCtrlBits (u : DmaUnit) (ctrl : Nat) : Nat :=
  match u with
  | .lane _ => bitsOf ctrl 29 9 * 2 ^ 9
  | .sc => bitsOf ctrl 29 16 * 2 ^ 16

/-- A write of CHn_CTRL. A busy channel takes only ABORT; a stopping one takes a start for later (R360, R362). A host channel
starts only in the lanes of LANES (R358). -/
def Mach.dmaCtrl (m : Mach) (u : DmaUnit) (ch ctrl beats : Nat) (host : List Byte) : Mach := m.whenOn fun m =>
  let st := m.dmaState u ch
  let mine := match u with
    | .lane l => decide (ch < 12) || bitOf ctrl (9 + laneIx l)
    | .sc => true
  let keep := fun (m : Mach) => m.dmaUpd u (fun r =>
    r.set (dmaBase u + 0x400 + ch * 0x40) (BitVec.ofNat 32 (dmaCtrlBits u ctrl)))
  if dmaChannels u ≤ ch then m
  else if st = 1 ∨ st = 2 then
    if bitOf ctrl 30 then m.dmaAbort u ch else m.dmaUpd u (fun r => r.incReg (dmaBase u + 0x20))
  else if st = 3 then
    let m := (keep m).dmaPut u F.DMA_CHn_CTRL_ENABLE ch 1
    if bitOf ctrl 31 && mine then (m.dmaPut u F.DMA_CHn_STATUS_DEFERRED ch 1).dmaView u else m
  else
    let m := keep m
    if bitOf ctrl 31 && mine then m.dmaBegin u ch beats host else m

/-- A transfer ends at the source address it has reached, with an error. -/
def Mach.dmaSourceError (m : Mach) (u : DmaUnit) (ch code : Nat) : Mach :=
  (m.dmaError u ch code ((m.xfer u ch).src + (m.xfer u ch).count - m.dmaFld u F.DMA_CHn_REMAIN_REMAIN ch)).dmaResume u

/-- DMA_DONE: the rest is moved and acknowledged. A host read that brings too little ends in error 4, an uncorrectable error of the
source in error 3. -/
def Mach.dmaFinish (m : Mach) (u : DmaUnit) (ch : Nat) (e : XferEnd) : Mach := m.whenOn fun m =>
  if m.dmaState u ch ≠ 1 ∨ m.dmaOutranked u ch then m
  else if e.uncorrectable ∧ (m.xfer u ch).op ≠ 1 then m.dmaSourceError u ch 3
  else
    let m := m.dmaRun u ch (m.dmaFld u F.DMA_CHn_REMAIN_REMAIN ch) e.host
    if m.dmaState u ch ≠ 1 then m
    else if m.dmaFld u F.DMA_CHn_REMAIN_REMAIN ch = 0 then m.dmaEnd u ch
    else m.dmaSourceError u ch 4

/-- The writable bits of a register take the value; a write-only register keeps nothing. -/
def Regs.write (r : Regs) (b : Blk) (off v : Nat) : Regs :=
  match findRow b off with
  | none => r
  | some row =>
    if row.acc == .wo || row.acc == .cmd then r
    else
      let a := blkBase b + off
      let w := BitVec.ofNat 32 v
      let k := BitVec.ofNat 32 row.mask
      r.set a ((r.get a &&& ~~~k) ||| (w &&& k))

/-- A running or pre-empted channel takes only ABORT (R360); one that stops takes the registers of a deferred start (R362). -/
def Mach.dmaBusy (m : Mach) (u : DmaUnit) (off : Nat) : Bool :=
  decide (0x400 ≤ off) && decide (1 ≤ m.dmaState u ((off - 0x400) / 0x40)) && decide (m.dmaState u ((off - 0x400) / 0x40) ≤ 2)

/-- A register of a channel written by the channel's owner (R358, R360); a write to a reserved offset has no effect (R10). -/
def Mach.dmaRegWrite (m : Mach) (u : DmaUnit) (off v : Nat) : Mach := m.whenOn fun m =>
  if (findRow (dmaBlk u) off).isNone then m
  else if off % 0x40 = 0 then m.dmaCtrl u ((off - 0x400) / 0x40) v 0 []
  else m.dmaUpd u (fun r => if m.dmaBusy u off then r.incReg (dmaBase u + 0x20) else r.write (dmaBlk u) off v)

/-- DMA_STOPPED (R362): IDLE with error 8, and its error bit (R361); then a deferred start begins. -/
def Mach.dmaStopped (m : Mach) (u : DmaUnit) (ch : Nat) : Mach := m.whenOn fun m =>
  if m.dmaState u ch ≠ 3 then m
  else
    let later := decide (m.dmaFld u F.DMA_CHn_STATUS_DEFERRED ch = 1)
    let m := ((m.dmaPut u F.DMA_CHn_STATUS_STATE ch 0).dmaPut u F.DMA_CHn_STATUS_ERROR ch 8).dmaPut u F.DMA_CHn_STATUS_DEFERRED ch 0
    let m := m.dmaPut u F.DMA_CHn_CTRL_ENABLE ch 0
    let m := m.dmaUpd u (fun r => (r.incReg (dmaBase u + 0x20)).set (dmaBase u + 0x24)
      (BitVec.ofNat 32 (Store.get (fun _ => 0) (m.dmaHeld u).stop ch)))
    let m := (m.dmaRaise u (I.DMA_ERR + ch)).dmaView u
    if later then m.dmaBegin u ch 0 [] else m

end Sys2Proof.Machine
end

