-- ==== Sys2Proof/Machine/ModeOps.lean ====
section
/-!
DEFINITION. Machine/ModeOps.lean: mode, lifecycle and session requests (R293, R296 to R299, R305, R310, R317 to R320, R402) and
their authorisation (R297).
-/
namespace Sys2Proof.Machine

/-! ### Authorisation (R297, R398) -/

/-- The response in HBR.AUTH_RESP0 to AUTH_RESP3, most significant byte first. -/
def Mach.response (m : Mach) : List Byte :=
  (List.range 4).flatMap (fun k => be 4 (m.sc.regs.fld (F.HBR_AUTH_RESPk_RESPONSE k)))

/-- The response is the leftmost 16 bytes of HMAC-SHA-256 over the challenge, `msg` and the serial number. -/
def Mach.responds (m : Mach) (msg : List Byte) : Bool :=
  match m.sys.challenge with
  | none => false
  | some c => decide ((hmac m.sys.key (c ++ msg ++ be 8 m.a.serial.toNat)).take 16 = m.response)

/-- A refusal: AUTH_FAIL and its record, the challenge spent, and the lockout after five in a row. -/
def Mach.authRefused (m : Mach) (word : Nat) : Mach :=
  let n := if m.sys.challenge.isSome then m.sys.refusals + 1 else m.sys.refusals
  let m := m.updSys (fun s => { s with refusals := n, lockout := s.lockout || decide (5 ≤ n) })
  ((m.nextChallenge).raiseAll .sys I.SYS_AUTH_FAIL).scRecord 0x0006 word n 0 0

/-- Whether a request is authorised, and the module after the challenge has served. In lifecycles other than SERVICE none is
needed. -/
def Mach.authorise (m : Mach) (msg : List Byte) (word : Nat) : Bool × Mach :=
  if m.a.lifecycle ≠ 4 then (true, m)
  else if m.responds msg then (true, (m.updSys (fun s => { s with refusals := 0 })).nextChallenge)
  else (false, m.authRefused word)

/-- CHALLENGE_EXPIRY. -/
def Mach.challengeExpiry (m : Mach) : Mach := if m.sys.challenge.isSome then m.nextChallenge else m

/-- AUTH_LOCKOUT_END. -/
def Mach.lockoutEnd (m : Mach) : Mach :=
  if m.sys.lockout then (m.updSys (fun s => { s with lockout := false, refusals := 0 })).nextChallenge else m

/-! ### Acceptance (R293, R296, R299, R305) -/

/-- The values of each KIND. -/
def mqKnown (w : W32) : Bool :=
  (decide (mqKind w = 1) && [1, 2, 4, 12, 13].contains (mqValue w)) ||
  (decide (mqKind w = 2) && [4, 5].contains (mqValue w)) || (decide (mqKind w = 3) && decide (mqValue w ≤ 1))

/-- The modes from which MAINTENANCE is requested (R293, R317). -/
def toMaintFrom (k : Nat) : Bool := [4, 5, 6, 7, 8, 9, 10, 11, 14].contains k

/-- The tables of R293 and R299 allow the change from this mode and lifecycle state. -/
def mqAllowed (mode life : Nat) (w : W32) : Bool :=
  let v := mqValue w
  if mqKind w = 1 ∧ v = 2 then mode = 12 ∨ mode = 14
  else if life = 1 ∨ life = 5 then false
  else if mqKind w = 1 then
    if v = 12 then toMaintFrom mode else if v = 4 then mode = 12 ∧ life ≠ 2 else mode = 12
  else if mqKind w = 2 then mode = 12 ∧ (life = 3 ∨ (life = 4 ∧ v = 5))
  else mode = 12 ∧ life = 4

/-- What the Service Controller refuses with CONDITION (R299, R402). -/
def Mach.mqCondition (m : Mach) (w : W32) : Bool :=
  if mqKind w = 1 ∧ mqValue w = 13 then
    decide (m.patchLen = 0) || decide (67108864 < m.patchLen) || decide (m.patchLen % 8 ≠ 0) || m.sc.probation.isSome
  else decide (mqKind w = 2) && decide (mqValue w = 4) && !m.sys.keySet

/-- A lane's answer, as the RESULT codes of SYS.MODE_RESULT: 1 accepted, 3 mode or lifecycle, 5 malformed, 7 CONDITION. -/
def Mach.mqAnswer (m : Mach) (w : W32) (x : Lane) : Nat :=
  if !mqKnown w then 5 else if !mqAllowed m.sys.mode x.lifecycle w then 3 else if m.mqCondition w then 7 else 1

/-- The answer to the host in the layout of SYS.MODE_RESULT. -/
def mqResult (w : W32) (result : Nat) : Nat := mqTag w * 2 ^ 16 + mqKind w * 2 ^ 12 + result * 2 ^ 8 + mqValue w

/-- A request ends with a result, in SYS.MODE_RESULT of every lane and in the completion; a refusal is counted. -/
def Mach.mqEnd (m : Mach) (w : W32) (result : Nat) : Mach :=
  let m := (((m.putAll F.SYS_MODE_RESULT_TAG (mqTag w)).putAll F.SYS_MODE_RESULT_KIND (mqKind w)).putAll
    F.SYS_MODE_RESULT_RESULT result).putAll F.SYS_MODE_RESULT_VALUE (mqValue w)
  let m := if result = 1 then m else m.incAllReg (blkBase .sys + 0x20)
  m.complete 8 (mqResult w result) (decide (result = 1))

/-- The lanes answered differently: no lane keeps the request, and the manual gives SYS.MODE_RESULT no code for it, so the
RESULT of the completion is a free value (assumption 38). -/
def Mach.mqDiverged (m : Mach) (w : W32) : Mach :=
  let f := m.fresh
  (f.2).complete 8 (mqResult w ((Config.freeWord f.1).toNat % 16)) false

/-- A host BIST session opens or closes (R305). -/
def Mach.setSession (m : Mach) (on : Bool) : Mach :=
  ((m.updSys (fun s => { s with session := on })).putAll F.BST_STATUS_SESSION (b2n on)).putAll F.SYS_MODE_RESULT_RESULT 2

/-- What an accepted request starts. -/
def Mach.mqStart (m : Mach) (w : W32) : Mach :=
  if mqKind w = 3 then m.setSession (decide (mqValue w = 1))
  else if mqKind w = 2 then m.updSys (fun s => { s with fuse := some (mqValue w), bootTag := mqTag w })
  else if mqValue w = 2 then
    (if m.sys.rst.isSome then m else m.updSys (fun s => { s with bootTag := mqTag w })).startReset 3
  else m.updSys (fun s => { s with pendingReq := some w })

/-- A wake request in DORMANT (R320): BOOT once the PLLs have locked. -/
def Mach.wake (m : Mach) (tag : Nat) : Mach :=
  if m.sys.rst.isSome then m else m.updSys (fun s => { s with rst := some 0, bootTag := tag })

/-- The response registers return to zero once the request has been answered (R349). -/
def Mach.clearResponse (m : Mach) : Mach :=
  (List.range 4).foldl (fun (m : Mach) k => m.putSc (F.HBR_AUTH_RESPk_RESPONSE k) 0) m

/-- The word offered to the lanes. In DORMANT the always-on domains of all three answer, and only a wake request is accepted; one that gives no
answer makes it DIVERGED. Where no lane takes part, the host alone has the answer (R349). -/
def Mach.mqOffer (m : Mach) (w : W32) (silent : BitVec 3) : Mach :=
  if m.sys.mode = 1 then
    if laneIds.any (m.mute silent) then m.mqDiverged w
    else if mqKind w = 1 ∧ mqValue w = 2 then ((m.mqEnd w 1).wake (mqTag w)) else m.mqEnd w 3
  else
    let m := m.wakeLanes m.participants
    match m.participants with
    | [] => m.complete 8 (mqResult w 3) false
    | l :: t =>
      let a := m.mqAnswer w (m.lane l)
      if (l :: t).any (m.mute silent) || t.any (fun k => decide (m.mqAnswer w (m.lane k) ≠ a)) then m.mqDiverged w
      else if a = 1 then (m.mqEnd w 1).mqStart w
      else m.mqEnd w a

/-- A mode request (R296). -/
def Mach.modeRequest (m : Mach) (w : W32) (silent : BitVec 3) : Mach :=
  let a := m.authorise (be 4 w.toNat) w.toNat
  (if a.1 then a.2.mqOffer w silent else a.2.mqEnd w 4).clearResponse

/-! ### Taking effect (R292, R294) -/

/-- A lane in DORMANT (R20, R320): only its always-on domain is powered. What the fast and ZVL domains and the on-die SRAM held is
gone; counter, timebase, reset sampling, straps and fuses stay. The replace-request pin is de-energised (R384). -/
def Lane.dormant (x : Lane) : Lane :=
  { x with shadow := [], held := [], dram := [], sram := [], own := [], zeroDie := false, zeroDram := false, loaded := false, wtSeal := 0, outcome := none, si := [],
           rte := Rte.reset, zvl := Zvl.reset, live := InputSet.empty, latched := InputSet.empty, payloads := [], staged := [],
           dioWord := 0, dioNext := 0, fedOut := [], selfFaults := [], inject := 0, scanned := false,
           regs := (x.regs.put F.DIO_REPLACE_PIN_ENERGISED 0).put F.DIO_REPLACE_PIN_SENSED 0 }

/-- DORMANT (R20, R320): the PLLs stop, the Port Hub and the DIO are unpowered, and so are the lanes' fast and ZVL domains. The Service
Controller, which keeps only its host link and flash, stores and flushes what it holds first (R395); sequences go on (R392). -/
def Mach.toDormant (m : Mach) (tag : Nat) : Mach :=
  let m := ((((m.portsStop).setMode 1 tag).putAll F.CLK_STATUS_PLL_LOCKED 0).mapLanes Lane.dormant).settleWaiting.flushAll.storeSettings
  ({ m with dio := m.dio.afterReset, ph := m.ph.afterReset, sc := { m.sc.afterReset with dram := [] } } : Mach).dioRegs.evrHead

/-- Return to service (R318): lanes excluded or tested since the last SELF_TEST are tested again first. -/
def Mach.returnToService (m : Mach) : Mach :=
  let m := m.updSys (fun s => { s with returning := true })
  let m := m.updSys (fun s => { s with bistBad := 0, bistDone := [] })
  if m.sys.bistRun.isEmpty then m.goOn else m

/-- A requested transition at its instant. -/
def Mach.takeTransition (m : Mach) (w : W32) : Mach :=
  let tag := mqTag w
  let m := m.updSys (fun s => { s with pendingReq := none })
  let v := mqValue w
  if v = 4 then m.returnToService
  else
    let m := ((m.overtaken).putAll F.SYS_MODE_RESULT_RESULT 2).updSys (fun s => { s with holdupWait := false })
    if v = 1 then m.toDormant tag
    else if v = 13 then ((m.portsStop).setMode 13 tag).sproutStage 1
    else
      let m := (m.putSc F.UPD_IMG_SLOT_STATUS_LOADING 0).updSys (fun s => { s with step6 := 0, retried := false, darnDue := false })
      ({ m with fed := { m.fed with listenPartner := false } }).toMaintenance tag

/-- REQUESTED_TRANSITION (R292): at a cluster boundary, or at once while no origin is agreed; a reset, a SAFE_HALT and the transitions
of other chapters that are due come first (R294). -/
def Mach.requestedTransition (m : Mach) : Mach :=
  match m.sys.pendingReq with
  | none => m
  | some w =>
    if m.preempted || m.chapterDue then m
    else if m.sys.boundary || !m.sys.originAgreed then m.takeTransition w
    else m

/-- The lifecycle state that boundary scan at the factory leads to (R298, R299): BLANK to MANUFACTURE to COMMISSION. -/
def scanFuse (life : Nat) : Option Nat := if life = 1 then some 2 else if life = 2 then some 3 else none

/-- FUSE_BLOWN (R299): the new lifecycle state, of the request or, where none waits, of boundary scan (assumption 66); the key
erased at RETIRED (R297), and the restart; boundary scan is no way out of SAFE_HALT (R317). -/
def Mach.fuseBlown (m : Mach) : Mach :=
  match m.sys.fuse.or (scanFuse m.a.lifecycle) with
  | none => m
  | some v =>
    let asked := m.sys.fuse.isSome
    let m := m.mapLanes (fun x => { x with lifecycle := v })
    let m := m.updSys (fun s => { s with fuse := none, key := if v = 5 then [] else s.key, keySet := s.keySet && decide (v ≠ 5) })
    if m.sys.mode = 14 && !asked then m else m.startReset 3

end Sys2Proof.Machine
end

