-- ==== Sys2Proof/Machine/EventOps.lean ====
section
/-!
DEFINITION. Machine/EventOps.lean: the event recorder (R390 to R399): reports and their merging, flushes, fetches, clears, and the
host links of the lanes (R31, R440).
-/
namespace Sys2Proof.Machine

/-! ### Reports (R390, R391) -/

/-- Two reports are equal in CODE, TIME and P0 to P3 (R390). -/
def Event.sameReport (e f : Event) : Bool :=
  decide (e.code = f.code) && decide (e.time = f.time) && decide (e.p0 = f.p0) && decide (e.p1 = f.p1) && decide (e.p2 = f.p2) &&
  decide (e.p3 = f.p3)

/-- The waiting report equal to `e` that lane `l` has not joined. -/
def Mach.waitingFor (m : Mach) (l : LaneId) (e : Event) : Option Waiting :=
  m.sc.waiting.find? (fun w => w.ev.sameReport e && !bitOf w.lanes.toNat (laneIx l))

/-- A report waits with its lanes, or is stored when every serving lane has given it. -/
def Mach.mergeReport (m : Mach) (l : LaneId) (e : Event) : Mach :=
  match m.waitingFor l e with
  | some w =>
    let ls := putBit w.lanes.toNat (laneIx l) true
    let rest := m.sc.waiting.erase w
    if (List.range 3).all (fun k => !bitOf m.servingSet k || bitOf ls k) then
      ({ m with sc := { m.sc with waiting := rest } }).storeReport e ls (decide (2 ≤ lanesIn ls))
    else
      { m with sc := ({ m.sc with waiting := m.sc.waiting.replace w { w with lanes := BitVec.ofNat 3 ls } }) }
  | none =>
    let ls := 2 ^ laneIx l
    if m.servingSet = ls then m.storeReport e ls false
    else { m with sc := ({ m.sc with waiting := m.sc.waiting ++ [⟨e, BitVec.ofNat 3 ls⟩] }) }

/-- EVL.STATUS.HOLDING, with its interrupt when it begins. -/
def Mach.holding (m : Mach) (l : LaneId) (on : Bool) : Mach :=
  let was := (m.lane l).regs.fld F.EVL_STATUS_HOLDING
  let m := m.updLane l (fun x => { x with regs := x.regs.put F.EVL_STATUS_HOLDING (b2n on) })
  if on && decide (was = 0) then m.raiseLane l .evl I.EVL_HOLDING else m

/-- The next `n` sequences from `s`. -/
def sequences : Nat → Nat → List Nat
  | 0, _ => []
  | n + 1, s => s :: sequences n (nextSequence s)

/-- Storing one more report, after those that wait, would overwrite a record not yet flushed (R391). -/
def Sc.bufferFull (c : Sc) : Bool :=
  let slots := (sequences (c.waiting.length + 1) (c.regs.fld F.EVR_HEAD_SEQUENCE)).map bufferSlot
  c.unflushed.any (fun s => slots.contains (bufferSlot s))

/-- EVENT_REPORT: the oldest staged record of a lane reaches the Service Controller. None is taken while storing it would
overwrite a record not yet flushed. -/
def Mach.eventReport (m : Mach) (l : LaneId) : Mach :=
  let x := m.lane l
  if m.sc.regs.fld F.EVR_STATUS_RUNNING = 0 ∨ !x.hostLink then m
  else
    match x.events with
    | [] => m
    | e :: t =>
      if m.sc.bufferFull then m.holding l true
      else
        let m := m.updLane l (fun x => { x with
          events := t, regs := (x.regs.put F.EVL_STAGED_KBYTES (t.length * 32 / 1024)).addWrap F.EVL_PASSED_COUNT 1 })
        let m := if t.isEmpty then m.holding l false else m
        if e.delayed then m.storeReport e (2 ^ laneIx l) false else m.mergeReport l e

/-- MERGE_TIMEOUT: the oldest waiting report is stored with the lanes that gave it. -/
def Mach.mergeTimeout (m : Mach) : Mach :=
  match m.sc.waiting with
  | [] => m
  | w :: t =>
    ({ m with sc := { m.sc with waiting := t } }).storeReport w.ev w.lanes.toNat (decide (2 ≤ lanesIn w.lanes.toNat))

/-! ### Host links (R31, R440) -/

/-- A lane's link fails: it holds its records, which go out DELAYED, and stages one of the failure itself (R31). The manual gives that
record no code, so its content is a free value (assumption 69). -/
def Mach.linkFails (m : Mach) (l : LaneId) : Mach :=
  if !(m.lane l).hostLink then m
  else
    let m := m.updLane l (fun x => { x with
      hostLink := false, events := x.events.map (fun e => { e with delayed := true }), regs := x.regs.put F.EVL_STATUS_RUNNING 0 })
    (m.recordLane l Config.linkCode.toNat (laneIx l) 0 0 0).holding l true

/-- A lane's link is back; what the lane's blocks have pending counts again for the vectors (R356). -/
def Mach.linkBack (m : Mach) (l : LaneId) : Mach :=
  if (m.lane l).hostLink then m
  else
    let n := m.updLane l (fun x => { x with hostLink := true, regs := x.regs.put F.EVL_STATUS_RUNNING 1 })
    let n := laneBlks.foldl (fun (n : Mach) b => m.vectorIf n b) n
    let n := if (n.lane l).regs.pendingOf .dma ≠ 0 then n.sendVector (21 + laneIx l) else n
    if (n.lane l).events.isEmpty then n.holding l false else n

/-- HOST_LINK_FAIL; while PERST# is asserted the link already counts as failed. -/
def Mach.hostLinkFail (m : Mach) (l : LaneId) : Mach :=
  match m.sc.perst with
  | some ls => { m with sc := { m.sc with perst := some (putBit ls (laneIx l) false) } }
  | none => m.linkFails l

/-- HOST_LINK_RESTORE. -/
def Mach.hostLinkRestore (m : Mach) (l : LaneId) : Mach :=
  match m.sc.perst with
  | some ls => { m with sc := { m.sc with perst := some (putBit ls (laneIx l) true) } }
  | none => m.linkBack l

/-- PERST (R440): endpoint and bridge queues are reset, which hold nothing between commands but the MSI-X structures; the host link
counts as failed while it is asserted. The link goes down and trains again (R357); after a power-on it trains at the first deassertion (assumption 126). -/
def Mach.perst (m : Mach) (asserted : Bool) : Mach :=
  match m.sc.perst, asserted with
  | none, true =>
    let up := laneSet (fun l => (m.lane l).hostLink)
    let m := laneIds.foldl Mach.linkFails m
    let m := { m with sc := { m.sc with perst := some up, linkUp := false } }
    let m := { m with msi := Msix.reset }
    ((m.putSc F.HBR_STATUS_LINK_UP 0).incSc F.HBR_LINK_DOWN_COUNT).raiseSc .hbr I.HBR_LINK
  | some ls, false =>
    let m := { m with sc := { m.sc with perst := none } }
    (laneIds.foldl (fun (m : Mach) l => if bitOf ls (laneIx l) then m.linkBack l else m) m).linkTrained.raiseSc .hbr I.HBR_LINK
  | none, false => if m.sc.linkUp then m else m.linkTrained.raiseSc .hbr I.HBR_LINK
  | some _, true => m

/-! ### Flushes and fetches (R395, R397) -/

/-- FLUSH_BATCH_DONE: the waiting records are in flash. -/
def Mach.flushDone (m : Mach) : Mach := if m.sc.flushing then m.flushAll else m

/-- FLUSH_TIMER. -/
def Mach.flushTimer (m : Mach) : Mach := if m.sc.unflushed.isEmpty then m else m.startFlush

/-- A refused fetch or clear (R411). -/
def Mach.evrRefused (m : Mach) (off : Nat) : Mach := m.errAt .evr off

/-- EVR_FETCH: refused in UPDATE, while another runs, or with a COUNT or OFFSET outside R397. -/
def Mach.evrFetch (m : Mach) : Mach :=
  let n := m.sc.regs.fld F.EVR_FETCH_COUNT_COUNT
  let o := m.sc.regs.fld F.EVR_FETCH_OFFSET_OFFSET
  if m.sys.mode = 13 ∨ m.sc.fetching.isSome ∨ n = 0 ∨ 1048576 < n ∨ o % 32 ≠ 0 ∨ 0x20000000 < o + n * 32 then m.evrRefused 0x8
  else ({ m with sc := { m.sc with fetching := some (m.sc.regs.fld F.EVR_FETCH_SEQ_SEQUENCE, n, 0x20000000 + o) } }).putSc
    F.EVR_STATUS_FETCHING 1

/-- A record as flash holds it; 32 bytes of 0xFF where it does not, or where it is cleared and its erasure has not come to it. -/
def Sc.storedRecord (c : Sc) (s : Nat) : List Byte :=
  let r := Store.get noRecord c.store (storeSlot s)
  let cleared := c.clearing && newer 32 (c.regs.fld F.EVR_CLEAR_MARK_UPTO) s
  if r.length = 32 ∧ recordSeq r = s ∧ !cleared then r else List.replicate 32 0xFF

/-- EVR_FETCH_DONE. -/
def Mach.evrFetchDone (m : Mach) : Mach :=
  match m.sc.fetching with
  | none => m
  | some (seq, n, to_) =>
    let bytes := (sequences n seq).flatMap m.sc.storedRecord
    let m : Mach := { m with sc := ({ m.sc with fetching := none, dram := m.sc.dram.write to_ bytes }) }
    (m.putSc F.EVR_STATUS_FETCHING 0).raiseSc .evr I.EVR_FETCH_DONE

/-! ### Clearing (R398, R399) -/

/-- A clear is refused: 2 not authorised, 3 lifecycle, 4 busy or UPDATE, 5 range. -/
def Mach.clearRefused (m : Mach) (code : Nat) : Mach :=
  ((m.putSc F.EVR_CLEAR_RESULT_RESULT code).evrRefused 0x50).raiseSc .evr I.EVR_CLEAR_DONE

/-- The older of two sequences. -/
def olderSeq (a b : Nat) : Nat := if newer 32 a b then b else a

/-- An accepted clear: the flush batch in progress has ended; the mark, the tails, the record, and the erasure in the background. -/
def Mach.clearAccepted (m : Mach) (upto word challenge : Nat) : Mach :=
  let oldest := olderSeq (m.sc.regs.fld F.EVR_TAIL_SEQUENCE) (m.sc.regs.fld F.EVR_FLASH_TAIL_SEQUENCE)
  let un := m.sc.unflushed.filter (fun s => !newer 32 upto s)
  let up := fun (s : Nat) => if newer 32 upto s then upto else s
  let r := (((m.sc.regs.put F.EVR_CLEAR_MARK_UPTO upto).put F.EVR_TAIL_SEQUENCE (up (m.sc.regs.fld F.EVR_TAIL_SEQUENCE))).put
    F.EVR_FLASH_TAIL_SEQUENCE (up (m.sc.regs.fld F.EVR_FLASH_TAIL_SEQUENCE))).put F.EVR_CLEAR_RESULT_RESULT 1
  let r := ((r.put F.EVR_STATUS_CLEARING 1).put F.EVR_UNFLUSHED_RECORDS un.length).put F.EVR_FLUSHED_SEQUENCE
    (un.headD (m.sc.regs.fld F.EVR_HEAD_SEQUENCE))
  let back := m.sc.restoring.filter (fun s => !newer 32 upto s)
  let m : Mach := { m with sc := ({ m.sc with regs := r, unflushed := un, clearing := true, restoring := back }) }
  (m.scRecord 0x7001 oldest word m.a.lifecycle challenge).raiseSc .evr I.EVR_CLEAR_DONE

/-- EVR_CLEAR: lifecycle, authorisation, then the conditions of R399 (assumption 43). -/
def Mach.evrClear (m : Mach) (word : Nat) : Mach :=
  if m.a.lifecycle = 1 ∨ m.a.lifecycle = 5 then m.clearRefused 3
  else
    let c := ofBe ((m.sys.challenge.getD []).take 4)
    let a := m.authorise (0xC1 :: be 4 word) word
    let m := a.2
    let head := m.sc.regs.fld F.EVR_HEAD_SEQUENCE
    let upto := if word = 0xFFFFFFFF then head else word
    let oldest := olderSeq (m.sc.regs.fld F.EVR_TAIL_SEQUENCE) (m.sc.regs.fld F.EVR_FLASH_TAIL_SEQUENCE)
    if !a.1 then m.clearRefused 2
    else if m.sc.clearing || m.sys.powerLoss || decide (m.sys.mode = 13) then m.clearRefused 4
    else if !newer 32 upto oldest || newer 32 upto head then m.clearRefused 5
    else m.flushDone.clearAccepted upto word c

/-- Slots of the buffer that hold a record older than a mark. -/
def oldSlots (d : Mem) (mark : Nat) : List Nat :=
  (dedup ((d.filter (fun e => decide (0x40000000 ≤ e.1) && decide (e.1 < 0x80000000))).map (fun e => e.1 / 32))).filter
    (fun k => newer 32 mark (recordSeq (d.read (k * 32) 32)))

/-- EVR_CLEAR_ERASE_DONE: cleared buffer slots hold 0xFF, and the cleared store slots are erased. -/
def Mach.clearDone (m : Mach) : Mach :=
  if !m.sc.clearing then m
  else
    let mark := m.sc.regs.fld F.EVR_CLEAR_MARK_UPTO
    let d := (oldSlots m.sc.dram mark).foldl (fun (d : Mem) k => d.write (k * 32) (List.replicate 32 0xFF)) m.sc.dram
    let st := m.sc.store.filter (fun e => !newer 32 mark (recordSeq e.2))
    ({ m with sc := ({ m.sc with dram := d, store := st, clearing := false }) }).putSc F.EVR_STATUS_CLEARING 0

end Sys2Proof.Machine
end

