-- ==== Sys2Proof/Machine/RegOps.lean ====
section
/-!
DEFINITION. Machine/RegOps.lean: register writes (R10, R348, R351): access codes, locks (R419, R420), shadows (R422, R423),
interrupt registers (R416, R417), range rules and the registers' own rules; the flash slots (R59 to R61), the commissioning
key (R297, R357) and host BIST (R305).
-/
namespace Sys2Proof.Machine

/-! ### Blocks and their registers -/

/-- Blocks with RWS registers (R422). -/
def hasShadow : Blk → Bool
  | .tsu | .ttp _ | .stg | .dio => true
  | _ => false

/-- The register file that holds a block, as lane `l` sees it. -/
def Mach.fileOf (m : Mach) (b : Blk) (l : LaneId) : Regs :=
  match blkHome b with
  | .lane => (m.lane l).regs
  | .hub => m.ph.regs
  | .ctl => m.sc.regs

/-- The LOCK register of a block. -/
def Regs.lockOpen (r : Regs) (b : Blk) : Bool := bitOf (r.get (blkBase b + 0x28)).toNat 31
def Regs.lockArmed (r : Regs) (b : Blk) : Bool := bitOf (r.get (blkBase b + 0x28)).toNat 30
def Regs.putLock (r : Regs) (b : Blk) (isOpen armed : Bool) : Regs :=
  r.set (blkBase b + 0x28) (BitVec.ofNat 32 (b2n isOpen * 2 ^ 31 + b2n armed * 2 ^ 30))

/-- A write of LOCK (R419, R420): the lock's new state, and whether the write is taken or ignored and counted. -/
def Regs.lockWrite (r : Regs) (b : Blk) (barred : Bool) (key : Nat) : Regs × Bool :=
  if key = 0 then (r.putLock b false false, true)
  else if r.lockArmed b then
    if key = blkCode b then (r.putLock b true false, true) else (r.putLock b (r.lockOpen b) false, false)
  else if key = 0x5A3C && !barred then (r.putLock b (r.lockOpen b) true, true)
  else (r, false)

/-- R420: no lock of this block can be armed now. -/
def Mach.lockBarred (m : Mach) (b : Blk) : Bool := decide (blkHome b ≠ .ctl) && modeLocks m.sys.mode

/-! ### Range rules -/

def between (lo v hi : Nat) : Bool := decide (lo ≤ v) && decide (v ≤ hi)

/-- The range rule of a setting, on its field's own bits (R10). -/
def Mach.inRange (m : Mach) (a v : Nat) : Bool :=
  if a = 0x40003058 then decide (bitsOf v 15 0 ≠ 0)
  else if a = 0x4000305C then decide (bitsOf v 9 0 ≤ 1000)
  else if a = 0x4000A040 then between 1 (bitsOf v 7 0) 168
  else if a = 0x4000A04C then decide (bitsOf v 7 0 ≠ 0)
  else if a = 0x4000A100 then between 10 (bitsOf v 15 0) 3600
  else if a = 0x4000A104 then decide (64 ≤ bitsOf v 15 0)
  else if a = 0x4000C040 then between 100 (bitsOf v 15 8) 240 && decide (bitsOf v 7 4 ≠ 0)
  else if a = 0x4000C044 then between 10 (bitsOf v 7 0) 200
  else if a = 0x4000C048 then between 1 (bitsOf v 15 8) 60 && decide (bitsOf v 7 0 ≠ 0)
  else if a = 0x40002078 then
    decide (bitsOf v 19 16 < bitsOf v 27 24) && decide (bitsOf v 3 0 < bitsOf v 11 8)
  else if a = 0x4000207C then between 1 (bitsOf v 7 0) 100
  else if a = 0x40002080 then
    decide (bitsOf v 29 28 ≠ 0) && decide (bitsOf v 27 20 ≤ 127) && decide (2 ≤ bitsOf v 19 12) && decide (bitsOf v 11 8 ≤ 5) &&
    decide (bitsOf v 7 4 ≤ 4) && (decide (bitsOf v 3 0 ≤ 1) || decide (bitsOf v 3 0 = 15))
  else if a = 0x40002088 then between 1 (bitsOf v 8 0) 300
  else if 0x40020040 ≤ a ∧ a < 0x40020080 then
    let p := (a - 0x40020040) / 4
    between 200 (bitsOf v 12 0) 4000 && (!m.leadLane.loaded || decide (m.portImg.portMode p = 0) ||
      decide (bitsOf v 12 0 + 200 ≤ m.portImg.gap p))
  else if a = 0x40020080 then decide (bitsOf v 15 0 ≠ 0)
  else match pageOf a with
    | some (.ttp _) => if a % 0x1000 = 0x44 then decide (bitsOf v 7 0 ≤ 100) else true
    | some .hbr =>
      if 0x40 ≤ a % 0x1000 ∧ a % 0x1000 < 0xC0 ∧ a % 0x10 = 0 then
        decide (bitsOf v 27 24 ≤ 4) && decide (bitsOf v 21 20 ≠ 3) && decide (bitsOf v 18 16 ≤ 4)
      else true
    | _ => true

/-- An entry into a mode of R420 is due at the next boundary (R421). -/
def Mach.lockEntryDue (m : Mach) : Bool :=
  decide (m.sys.mode = 8) && (match m.fed.decided with | some (t, _) => decide (t ≤ m.sys.cluster + 1) | none => false)

/-- What a lock gates is shut: the lock is closed, or the write reaches the lane less than 15 µs before such an entry. -/
def Mach.gateShut (m : Mach) (r : Regs) (b : Blk) (late : Bool) : Bool := !r.lockOpen b || (late && m.lockEntryDue)

/-- A write that a register's own rule refuses (R114, R162, R163, R237, R305, R351), or that a busy host channel ignores (R360). -/
def Mach.ownRefuses (m : Mach) (l : LaneId) (b : Blk) (off v : Nat) (late : Bool) : Bool :=
  match b with
  | .rte => decide (off = 0x8) && bitOf v 0 && decide (m.sys.mode ≠ 12)
  | .vot => decide (off = 0x8) && decide (bitsOf v 1 0 ≠ 0) && decide (m.sys.mode ≠ 12)
  | .red =>
    if off = 0x50 then
      (bitOf v 1 && decide (m.sys.mode ≠ 10)) ||
      (bitOf v 0 && !bitOf v 1 && (m.darnRefused (m.darnLane.getD .a) || m.darnLane.isNone))
    else false
  | .ttp _ =>
    decide (off = 0x6C) && bitOf v 7 &&
      (m.gateShut m.ph.regs b late || decide (bitsOf v 6 0 = 0) || decide (64 < bitsOf v 6 0))
  | .stg => decide (off = 0x84) && (m.gateShut m.ph.regs b late || !(m.node (bitsOf v 10 0)).held)
  | .bst =>
    decide (off = 0x40) && (decide (1 < bitsOf v 7 4) || decide (m.sys.mode ≠ 12) ||
      !(decide ((m.lane l).lifecycle = 2) || decide ((m.lane l).lifecycle = 3) ||
        (decide ((m.lane l).lifecycle = 4) && m.sys.session)) ||
      (bitOf v 0 && (decide (bitsOf v 2 1 = 0) || (decide (bitsOf v 7 4 = 1) && m.hubTested))))
  | .crc => true
  | .dma => (decide (0x400 ≤ off) && decide (off < 0x700)) ||
      (m.dmaBusy (.lane l) off && !(decide (off % 0x40 = 0) && bitOf v 30))
  | .sys => decide (off = 0x40)
  | _ => false

/-! ### Judgement of one write (R351) -/

/-- STATUS of a write at an offset of a block's page, as lane `l` answers it, and whether a refusal is counted. `late`: offered less
than 15 µs before a boundary. -/
def Mach.regJudge (m : Mach) (l : LaneId) (b : Blk) (off v : Nat) (late : Bool) : Nat × Bool :=
  let r := m.fileOf b l
  if off = 0x14 ∨ off = 0x18 then (1, false)
  else if off = 0x1C then if m.sys.mode = 12 then (1, false) else (7, true)
  else if off = 0x28 then if (r.lockWrite b (m.lockBarred b) (bitsOf v 15 0)).2 then (1, false) else (7, true)
  else if off = 0x2C then if hasShadow b then (1, false) else (7, true)
  else if 0x800 ≤ off then
    if !shadowed b (off - 0x800) then (3, false)
    else
      let gated := b = .tsu ∨ b = .dio
      if gated ∧ m.gateShut r b late then (7, true)
      else if m.inRange (blkBase b + off - 0x800) v then (1, false) else (7, true)
  else
    match findRow b off with
    | none => (3, false)
    | some row =>
      match row.acc with
      | .ro => (7, true)
      | .rws => (7, true)
      | .rwl =>
        if m.gateShut r b late then (7, true)
        else if m.ownRefuses l b off v late || !m.inRange (blkBase b + off) v then (7, true) else (1, false)
      | _ => if m.ownRefuses l b off v late || !m.inRange (blkBase b + off) v then (7, true) else (1, false)

/-- Blocks whose ERR_COUNT counts refused or ignored writes, and those whose ERR_ADDR holds the offset of the last. -/
def countsRefused : Blk → Bool
  | .rte | .red | .tsu | .fed | .dio | .bst | .crc | .dma | .evl | .ttp _ | .stg | .hbr | .evr | .upd | .scdma => true
  | _ => false
def keepsOffset : Blk → Bool
  | .tsu | .fed | .dio | .ttp _ | .stg | .hbr | .evr | .upd => true
  | _ => false

/-- A write is counted in ERR_COUNT of its block, of a lane block in the lanes that it reached, and its offset kept where ERR_ADDR does. -/
def Mach.countWrite (m : Mach) (ls : List LaneId) (b : Blk) (off : Nat) : Mach :=
  match blkHome b with
  | .lane => ls.foldl (fun (m : Mach) l => m.updLane l (fun x =>
      let r := x.regs.incReg (blkBase b + 0x20)
      { x with regs := if keepsOffset b then r.set (blkBase b + 0x24) (BitVec.ofNat 32 off) else r })) m
  | _ => if keepsOffset b then m.errAt b off else m.err b

/-- A refused write is counted in its block; LOCK and INT_FORCE count in every block (R417, R419). -/
def Mach.countRefused (m : Mach) (ls : List LaneId) (b : Blk) (off : Nat) : Mach :=
  if keepsOffset b || countsRefused b || decide (off = 0x28) || decide (off = 0x1C) then m.countWrite ls b off else m

/-! ### What a write does -/

/-- The bits of a shadow that a write sets. -/
def shadowValue (b : Blk) (off v : Nat) : W32 :=
  match findRow b off with
  | some row => BitVec.ofNat 32 v &&& BitVec.ofNat 32 row.mask
  | none => 0

def noShadow : Nat → Option W32 := fun _ => none

/-- What a read of a register returns in the files that hold it (R416, R422): INT_PENDING is INT_RAW AND INT_ENABLE, and the
offset of a shadow gives the value pending. -/
def Mach.readReg (m : Mach) (b : Blk) (l : LaneId) (off : Nat) : W32 :=
  let r := m.fileOf b l
  let pending := fun (s : Store (Option W32)) => (Store.get noShadow s (blkBase b + off - 0x800)).getD (r.get (blkBase b + off - 0x800))
  if off = 0x18 then r.pendingOf b
  else if b = .clk ∧ off = 0x44 then BitVec.ofNat 32 (m.domains l)
  else if b = .bst then m.bistRead l off
  else if 0x800 ≤ off ∧ shadowed b (off - 0x800) then
    (match blkHome b with
      | .lane => pending (m.lane l).shadow
      | .hub => pending m.ph.shadow
      | .ctl => 0)
  else r.get (blkBase b + off)

/-- Entries of a block's page. -/
def pageOnly {α : Type} (base : Nat) (s : Store α) : Store α := s.filter (fun e => decide (e.1 / 0x1000 = base / 0x1000))
def pageDrop {α : Type} (base : Nat) (s : Store α) : Store α := s.filter (fun e => decide (e.1 / 0x1000 ≠ base / 0x1000))

/-- The address that stands for DISCARD in the list of values held to after a copy. -/
def discardAt (b : Blk) : Nat := blkBase b + 0x2C

/-- A file's shadows after a shadow write or a discard: at once, or held to after the next copy (R423). -/
def shadowPut (b : Blk) (a : Nat) (v : W32) (late : Bool) (c : Regs × Store (Option W32) × List (Nat × W32)) :
    Regs × Store (Option W32) × List (Nat × W32) :=
  if late then (c.1, c.2.1, c.2.2 ++ [(a, v)])
  else if a = discardAt b then (c.1.setBit (blkBase b + 0x2C) 1 false, pageDrop (blkBase b) c.2.1, c.2.2)
  else (c.1.setBit (blkBase b + 0x2C) 1 true, Store.set noShadow c.2.1 a (some v), c.2.2)

def Lane.shadowPut (x : Lane) (b : Blk) (a : Nat) (v : W32) (late : Bool) : Lane :=
  let c := Machine.shadowPut b a v late (x.regs, x.shadow, x.held)
  { x with regs := c.1, shadow := c.2.1, held := c.2.2 }
def Ph.shadowPut (h : Ph) (b : Blk) (a : Nat) (v : W32) (late : Bool) : Ph :=
  let c := Machine.shadowPut b a v late (h.regs, h.shadow, h.held)
  { h with regs := c.1, shadow := c.2.1, held := c.2.2 }

/-- The change of a block's own register file by an accepted write. -/
def Regs.take (r : Regs) (b : Blk) (off v : Nat) (barred : Bool) : Regs :=
  let a := blkBase b + off
  let bits := BitVec.ofNat 32 v &&& BitVec.ofNat 32 (intMask b)
  if off = 0x14 then r.set a bits
  else if off = 0x18 then r.set (blkBase b + 0x10) (r.get (blkBase b + 0x10) &&& ~~~bits)
  else if off = 0x1C then r.set (blkBase b + 0x10) (r.get (blkBase b + 0x10) ||| bits)
  else if off = 0x28 then (r.lockWrite b barred (bitsOf v 15 0)).1
  else r.write b off v

/-- A write in the lanes of a list, or in the Port Hub or the Service Controller; the vector of the block may go out (R416). -/
def Mach.takeWrite (m : Mach) (ls : List LaneId) (b : Blk) (off v : Nat) (late : Bool) : Mach :=
  let barred := m.lockBarred b
  let sh := decide (0x800 ≤ off) || (decide (off = 0x2C) && bitOf v 0)
  let a := if off = 0x2C then discardAt b else blkBase b + off - 0x800
  let val := if off = 0x2C then 0 else shadowValue b (off - 0x800) v
  let m1 : Mach := match blkHome b with
    | .lane => ls.foldl (fun (m : Mach) l => m.updLane l (fun x =>
        if sh then x.shadowPut b a val late else { x with regs := x.regs.take b off v barred })) m
    | .hub => { m with ph := if sh then m.ph.shadowPut b a val late else { m.ph with regs := m.ph.regs.take b off v barred } }
    | .ctl => { m with sc := { m.sc with regs := m.sc.regs.take b off v barred } }
  if b = .dma then ls.foldl (fun (k : Mach) l => m.dmaVectorIf k l) m1 else m.vectorIf m1 b

/-! ### Registers with an effect of their own -/

/-- QUEUE_FLUSH (R114): every entry ends WITHDRAWN, in every lane that takes the write. -/
def Mach.flushQueue (m : Mach) (ls : List LaneId) : Mach :=
  let now := m.nowNs
  ls.foldl (fun (m : Mach) l =>
    let rs := (m.lane l).rte.queue.map (fun q => endResult m.sys.cluster (q, 8, 0))
    let m := m.updLane l (fun x =>
      let y := rs.foldl (fun (y : Lane) r =>
        y.addEvent ⟨0x2001, now, r.mbx, r.word.toNat / 2 ^ 32, r.word.toNat % 2 ^ 32, r.seq, false, false⟩) x
      ({ y with rte := { y.rte with queue := [] } }).queueRegs)
    { m with sc := { m.sc with reported := m.sc.reported ++ rs.map (fun r => (l, r)) } }) m

/-- NODE_LEAVE_REQUEST (R200): a LEAVE frame with REASON 1, and ABSENT at the next cluster boundary; a quarantined node leaves its quarantine
only as R224 says. -/
def Mach.leaveNode (m : Mach) (p ix : Nat) : Mach :=
  let a := nodeAddr p ix
  (m.queueOwn p 4 a 9 (leavePayload 1)).updNode a (fun n => { n with leaving := n.leaving || !n.quarantined })

/-- QUARANTINE_RELEASE (R224). -/
def Mach.releaseNode (m : Mach) (a : Nat) : Mach := m.updNode a (fun n => { n with leaving := true })

/-- Host BIST (R304, R305): the selected device is isolated and runs. -/
def Mach.hostBist (m : Mach) (ls : List LaneId) (ctrl : Nat) : Mach :=
  let m := ls.foldl (fun (m : Mach) l => m.updLane l (fun x => { x with regs := (((x.regs.put F.BST_CTRL_DEVICE
    (bitsOf ctrl 7 4)).put F.BST_CTRL_SCOPE (bitsOf ctrl 2 1)).put F.BST_CTRL_START (bitsOf ctrl 0 0)) })) m
  if !bitOf ctrl 0 then m
  else if bitsOf ctrl 7 4 = 1 then
    (m.portsStop.updSys (fun s => { s with hubScope := bitsOf ctrl 2 1 })).bistBegin .portHub true
  else ls.foldl (fun (m : Mach) l => m.bistBegin (.lane l) true) m

/-- What an accepted write of a lane or Port Hub register starts. -/
def Mach.ownEffect (m : Mach) (ls : List LaneId) (b : Blk) (off v : Nat) : Mach :=
  match b with
  | .rte =>
    if off = 0x8 ∧ bitOf v 0 then m.flushQueue ls
    else if off = 0x54 then m.vectored [.rte] (ls.foldl (fun (m : Mach) l => m.updLane l Lane.queueRegs) m)
    else m
  | .vot =>
    if off = 0x8 ∧ bitsOf v 1 0 ≠ 0 then
      ls.foldl (fun (m : Mach) l => m.updLane l (fun x => { x with inject := bitsOf v 1 0 })) m
    else m
  | .red =>
    if off = 0x50 then if bitOf v 1 then m.darnFail true 0 else if bitOf v 0 then m.darnAsk else m
    else if off = 0x114 ∧ bitOf v 0 ∧ m.fld F.RED_PAIR_CFG_HANDBACK_HOLD = 1 then
      { m with fed := { m.fed with released := true } }
    else m
  | .bst => if off = 0x40 then m.hostBist ls v else m
  | .ttp p =>
    if off = 0x6C ∧ bitOf v 7 then m.leaveNode p.val (bitsOf v 6 0)
    else if off = 0x70 then m.portRegs p.val else m
  | .stg => if off = 0x84 then m.releaseNode (bitsOf v 10 0) else if off = 0x88 then m.portRegs (bitsOf v 3 0) else m
  | .fed => if off = 0x70 then m.fedRegs else m
  | .dio => if off = 0x80 then m.dioRegs else m
  | _ => m

/-! ### Writes through a LANE_REGS window (R345, R348, R349, R351) -/

/-- The status word. -/
def statusWord (status lanes off : Nat) : Nat := status * 2 ^ 28 + lanes * 2 ^ 16 + off % 0x1000

/-- A write that every participating lane accepts. -/
def Mach.laneTake (m : Mach) (b : Blk) (off v : Nat) (late : Bool) : Mach :=
  let ls := m.participants
  if b = .dma ∧ 0x400 ≤ off then ls.foldl (fun (m : Mach) l => m.dmaRegWrite (.lane l) off v) m
  else
    let m := if b = .bst ∧ off = 0x40 then m else m.takeWrite ls b off v late
    let a := blkBase b + off
    let m := if off < 0x800 then
        m.storeSetting a (match blkHome b with | .hub => m.ph.regs.get a | _ => m.leadLane.regs.get a)
      else m
    m.ownEffect ls b off v

/-- A refused start of BIST shows RESULT 4 in the device that the write names, the Port Hub or the lanes (R324). -/
def Mach.bistRefused (m : Mach) (ls : List LaneId) (v : Nat) : Mach :=
  if bitsOf v 7 4 = 1 then m.setPhRegs (m.ph.regs.put F.BST_RESULT_RESULT 4)
  else ls.foldl (fun (m : Mach) l => m.updLane l (fun x => { x with regs := x.regs.put F.BST_RESULT_RESULT 4 })) m

/-- A refused write: counted where the register's rule counts it, and a LOCK write ends ARMED even so (R419). -/
def Mach.laneRefuse (m : Mach) (b : Blk) (off v : Nat) : Mach :=
  let ls := m.participants
  let darn := decide (b = .red) && decide (off = 0x50) && bitOf v 0 && !bitOf v 1
  let m1 := if off = 0x28 then m.takeWrite ls b off v false else if darn then m.darnAsk
    else if b = .bst ∧ off = 0x40 ∧ bitOf v 0 then m.bistRefused ls v else m
  let lane := ls.headD .a
  if darn then m1 else if (m.regJudge lane b off v false).2 || (m.regJudge lane b off v true).2 then m1.countRefused ls b off else m1

/-- The offer reaches a lane less than 15 µs before its boundary. -/
def isLate (late : BitVec 3) (l : LaneId) : Bool := bitOf late.toNat (laneIx l)

/-- A register write offered to the lanes at a lane-local address: status word in the window's completion slot. In the Port Hub
two serving lanes must deliver it (R424); under test it gives no answer, so that the write ends DIVERGED (R304, R349; assumption 139). The lanes
of the answer are those that took the write; of a write that ends DIVERGED a lane that refuses it counts the refusal. -/
def Mach.laneRegs (m : Mach) (slot a v : Nat) (o : Offer) : Mach :=
  let off := a % 0x1000
  let m := m.wakeLanes m.participants
  match m.participants, pageOf a with
  | [], _ => m.complete slot (statusWord 5 0 off) false
  | _ :: _, none => m.complete slot (statusWord 3 0 off) false
  | l :: t, some b =>
    let answer := fun (k : LaneId) => (m.regJudge k b off v (isLate o.late k)).1
    let st := m.verdict answer o.silent
    if blkHome b = .hub ∧ m.hubTested then m.complete slot (statusWord 6 0 off) false
    else if st = 1 then
      if blkHome b = .hub ∧ t.isEmpty then ((m.countWrite [] b off).complete slot (statusWord 6 0 off) false)
      else (m.laneTake b off v ((l :: t).any (isLate o.late))).complete slot (statusWord 1 (m.acceptors answer o.silent) off) true
    else if st = 7 then (m.laneRefuse b off v).complete slot (statusWord 7 0 off) false
    else if st = 6 ∧ blkHome b = .lane then
      let refusers := (l :: t).filter (fun k => !m.mute o.silent k && (m.regJudge k b off v (isLate o.late k)).2)
      (m.countRefused refusers b off).complete slot (statusWord 6 0 off) false
    else m.complete slot (statusWord st 0 off) false

/-- The window whose completion slot answers a row that names none: the lowest that is a LANE_REGS window (assumption 44). -/
def Mach.regsWindow (m : Mach) : Nat :=
  ((List.range 8).find? (fun n => decide (m.sc.regs.fld (F.HBR_WIN_CFGn_ENABLE n) = 1) &&
    decide (m.sc.regs.fld (F.HBR_WIN_CFGn_TARGET n) = 3))).getD 0

/-- A register write of a row that names block and offset. -/
def Mach.blockWrite (m : Mach) (b : Blk) (off v : Nat) (o : Offer) : Mach :=
  m.laneRegs (9 + m.regsWindow) (blkBase b + off) v o

/-- The byte of the target that a host byte of an access of `size` bytes goes to (R347). -/
def windowByte (order size a : Nat) : Nat :=
  match order with
  | 0 => a
  | 1 => a ^^^ 1
  | 2 => a ^^^ 3
  | 3 => a ^^^ 7
  | _ => a ^^^ (size - 1)

/-- The word size of DATA_INVARIANT: that of the access, 8 B for a longer one. -/
def wordSize (len : Nat) : Nat := if len ∈ [1, 2, 4, 8] then len else 8

/-- Under DATA_INVARIANT an access is naturally aligned, and a longer one starts and ends on 8-byte boundaries. -/
def misaligned (order off len : Nat) : Bool :=
  decide (order = 4) && (decide (off % wordSize len ≠ 0) || decide (len % wordSize len ≠ 0))

/-- The target bytes of a write of `size` bytes through a window; host and target value have the byte of the lowest address in their least
significant byte. -/
def orderedBytes (order size off v : Nat) : List (Nat × Byte) :=
  (List.range size).map (fun k => (windowByte order (wordSize size) (off + k), BitVec.ofNat 8 (v / 256 ^ k)))

/-- The target offset and value of a write to a register, which is a whole aligned one; another keeps its offset, at which there is none. -/
def ordered (order size off v : Nat) : Nat × Nat :=
  let l := orderedBytes order size off v
  let low := l.foldl (fun a e => min a e.1) (windowByte order (wordSize size) off)
  if off % size ≠ 0 then (off, v) else (low, (l.map (fun e => e.2.toNat * 256 ^ (e.1 - low))).foldl (· + ·) 0)

/-- LANE_REGS_WRITE: a Swap to a window that is no LANE_REGS window is an Unsupported Request (R349). -/
def Mach.windowWrite (m : Mach) (n off v : Nat) (o : Offer) : Mach :=
  if m.sc.regs.fld (F.HBR_WIN_CFGn_ENABLE n) = 1 ∧ m.sc.regs.fld (F.HBR_WIN_CFGn_TARGET n) = 3 then
    let t := ordered (m.sc.regs.fld (F.HBR_WIN_CFGn_ORDER n)) 4 off v
    if t.1 < 0x30000 then m.laneRegs (9 + n) (0x40000000 + t.1) t.2 o
    else m.complete (9 + n) (statusWord (if m.participants = [] then 5 else 3) 0 (off % 0x1000)) false
  else m.unsupported (n * 0x2000000 + off)

/-! ### Flash slots (R59 to R61) -/

/-- A slot command that names the selected slot is refused and counted. -/
def Mach.slotCommand (m : Mach) (slot : Bool) (f : FlashSlot → Option FlashSlot) : Mach :=
  let k := b2n slot
  if !m.sc.regs.lockOpen .upd || decide (m.sc.regs.fld F.UPD_IMG_SELECT_SLOT = k) then m.errAt .upd 0x308
  else
    let m := m.putSc F.UPD_IMG_WRITE_CTRL_SLOT k
    match f (m.slotOf k) with
    | some s => (m.setSlot k s).slotRegs
    | none => m.errAt .upd 0x308

/-- IMG_ERASE. -/
def Mach.imgErase (m : Mach) (slot : Bool) : Mach := m.slotCommand slot (fun s => some { s with state := 4, closing := false })

/-- IMG_ERASE_DONE: the slot reads EMPTY. -/
def Mach.imgErased (m : Mach) (slot : Bool) : Mach :=
  if (m.slotOf (b2n slot)).state = 4 then (m.setSlot (b2n slot) FlashSlot.empty).slotRegs else m

/-- IMG_OPEN: an EMPTY slot is WRITING with the length of UPD.IMG_WRITE_LEN. -/
def Mach.imgOpen (m : Mach) (slot : Bool) : Mach :=
  let n := m.sc.regs.fld F.UPD_IMG_WRITE_LEN_LENGTH
  m.slotCommand slot (fun s => if s.state = 0 ∧ 8 ≤ n ∧ n ≤ 0x80000000 ∧ n % 8 = 0 then
    some { s with state := 1, len := n, written := [], closing := false } else none)

/-- IMG_CLOSE: of a slot in WRITING, which keeps the value UPD.IMG_WRITE_LEN has now (R62); the check of header and seal runs. -/
def Mach.imgClose (m : Mach) (slot : Bool) : Mach :=
  m.slotCommand slot (fun s => if s.state = 1 then
    some { s with len := m.sc.regs.fld F.UPD_IMG_WRITE_LEN_LENGTH, closing := true } else none)

/-- The header and the seal of a slot are right (R60, R61). -/
def FlashSlot.sound (s : FlashSlot) : Bool :=
  (Img.step1 ⟨s.bytes, 0⟩ s.len).isNone && decide ((crc64 (s.bytes.read 0 (s.len - 8))).toNat = ofBe (s.bytes.read (s.len - 8) 8))

/-- IMG_CHECK_DONE: VALID or FAILED. -/
def Mach.imgChecked (m : Mach) (slot : Bool) : Mach :=
  let s := m.slotOf (b2n slot)
  if s.state = 1 ∧ s.closing then (m.setSlot (b2n slot) { s with state := if s.sound then 2 else 3, closing := false }).slotRegs
  else m

/-- IMG_SELECT: in MAINTENANCE, to a VALID slot, with the lock open. -/
def Mach.imgSelect (m : Mach) (v : Nat) : Mach :=
  if m.sc.regs.lockOpen .upd && decide (m.sys.mode = 12) && decide ((m.slotOf (v % 2)).state = 2) then
    let m := m.putSc F.UPD_IMG_SELECT_SLOT (v % 2)
    (m.storeSetting F.UPD_IMG_SELECT_SLOT.addr (m.sc.regs.get F.UPD_IMG_SELECT_SLOT.addr)).slotRegs
  else m.errAt .upd 0x304

/-! ### The commissioning key (R297, R357) -/

/-- A write of HBR.KEYk. -/
def Mach.keyWrite (m : Mach) (k : Nat) (v : W32) : Mach :=
  if m.a.lifecycle ≠ 3 ∨ m.sys.keySet then m.hbrIgnored (0x100 + 4 * k)
  else
    let ks := Store.set noShadow m.sc.keys k (some v)
    let all := (List.range 8).all (fun j => (Store.get noShadow ks j).isSome)
    if k = 7 ∧ all then
      let key := (List.range 8).flatMap (fun j => be 4 ((Store.get noShadow ks j).getD 0).toNat)
      let m : Mach := { m with sc := { m.sc with keys := [] } }
      (m.updSys (fun s => { s with key := key, keySet := true })).putSc F.HBR_STATUS_KEY_SET 1
    else { m with sc := { m.sc with keys := ks } }

/-! ### Posted writes to BAR0 (R344, R348, R350, R418) -/

/-- A 4-byte write to a page of the Service Controller. -/
def Mach.ctlWrite (m : Mach) (b : Blk) (off v : Nat) : Mach :=
  let j := m.regJudge .a b off v false
  if j.1 = 3 then m
  else if b = .hbr ∧ 0x100 ≤ off ∧ off < 0x120 then m.keyWrite ((off - 0x100) / 4) (BitVec.ofNat 32 v)
  else if b = .evr ∧ off = 0x50 then m.evrClear v
  else if b = .upd ∧ off = 0x304 then m.imgSelect v
  else if b = .scdma ∧ 0x580 ≤ off ∧ off < 0x600 ∧ j.1 = 1 then m.errAt .scdma (m.sc.regs.get (scDma + 0x24)).toNat
  else if b = .scdma ∧ 0x400 ≤ off ∧ j.1 = 1 then m.dmaRegWrite .sc off v
  else if j.1 ≠ 1 then
    let m1 := if off = 0x28 then m.takeWrite [] b off v false else m
    if j.2 then m1.countRefused [] b off else m1
  else if b = .upd ∧ off = 0x308 then
    let slot := bitOf v 4
    match bitsOf v 1 0 with
    | 1 => m.imgErase slot
    | 2 => m.imgOpen slot
    | 3 => m.imgClose slot
    | _ => m
  else if b = .evr ∧ off = 0x8 then
    let m := if bitOf v 0 then m.startFlush else m
    if bitOf v 1 then m.evrFetch else m
  else
    let m := m.takeWrite [] b off v false
    m.storeSetting (blkBase b + off) (m.sc.regs.get (blkBase b + off))

/-- The page of BAR0 an offset lies in. -/
def bar0Page (off : Nat) : Option Blk :=
  match off / 0x1000 with
  | 0 => some .hbr
  | 1 => some .evr
  | 2 => some .upd
  | 3 => some .mbx
  | 8 => some .scdma
  | _ => none

/-- A posted write of `size` bytes to a command slot of `width` bytes (R350): one of another width fails with cause 8, one to a slot without
write-then-read with cause 6, one to a slot that still awaits an answer with cause 7 (their order: assumption 78). -/
def Mach.slotWrite (m : Mach) (bar2 : Bool) (off size width : Nat) (on busy : Bool) (f : Mach → Mach) : Mach :=
  if size ≠ width then m.failedAccess none bar2 off 8
  else if !on then m.failedAccess none bar2 off 6
  else if busy then m.failedAccess none bar2 off 7
  else f m

/-! ### The MSI-X table (R344, R356, R426) -/

/-- A dword of the MSI-X table as PCI Express lays it out (assumption 103): of the address the bits above the lowest two, of the vector
control the mask. -/
def Msix.put (x : Msix) (k v : Nat) : Msix :=
  let w := BitVec.ofNat 32 (if k % 4 = 0 then v / 4 * 4 else if k % 4 = 3 then v % 2 else v)
  { x with table := Store.set msixDword x.table k w }

/-- A 4-byte write to the table: a vector that is unmasked with its bit pending is sent. -/
def Mach.msixPut (m : Mach) (k v : Nat) : Mach :=
  let m := { m with msi := m.msi.put k v }
  if !m.msi.masked (k / 4) && bitOf m.msi.pend.toNat (k / 4) then
    ({ m with msi := { m.msi with pend := BitVec.ofNat 32 (putBit m.msi.pend.toNat (k / 4) false) } }).emit (.msix (k / 4))
  else m

/-- A write to the table; one that is not of 4 or 8 aligned bytes changes nothing (assumption 103). -/
def Mach.msixWrite (m : Mach) (off size v : Nat) : Mach :=
  let k := (off - 0x7000) / 4
  if off % 4 ≠ 0 ∨ (size = 8 ∧ off % 8 ≠ 0) then m
  else if size = 4 then m.msixPut k (v % 2 ^ 32)
  else if size = 8 then (m.msixPut k (v % 2 ^ 32)).msixPut (k + 1) (v / 2 ^ 32)
  else m

/-! ### Writes of the housekeeping cores and of the Service Controller's firmware (R351, R358, R365, R366, R368) -/

/-- SCANm_CTRL: START alone or with CONTINUE, PAUSE, or the settings of a context for later (R365). -/
def Mach.scanCtrl (m : Mach) (l : LaneId) (e v : Nat) : Mach :=
  let busy := decide ((m.lane l).regs.fld (F.CRC_SCANm_STATUS_STATE e) = 1) || m.scanReserved l e
  let mode := fun (m : Mach) => m.updLane l (fun x => { x with regs := x.regs.put (F.CRC_SCANm_CTRL_MODE e) (bitsOf v 27 26) })
  if bitOf v 31 then
    if bitOf v 29 then (if busy then m else mode m).scanContinue l e else m.scanStart l e (bitsOf v 27 26)
  else if bitOf v 30 then m.scanPause l e 0
  else if busy then m.crcIgnored l
  else (mode m).updLane l (fun x => { x with regs := x.regs.put (F.CRC_SCANm_CTRL_CONTINUE e) (bitsOf v 29 29) })

/-- A CRC register of a lane, written by its housekeeping core. -/
def Mach.coreCrc (m : Mach) (l : LaneId) (off v : Nat) : Mach :=
  let put := fun (f : Regs → Regs) => m.updLane l (fun x => { x with regs := f (x.regs.write .crc off v) })
  if (findRow .crc off).isNone then m
  else if 0x40 ≤ off ∧ off < 0xC0 then
    let e := (off - 0x40) / 0x40
    if off % 0x40 = 0 then m.scanCtrl l e v
    else if (m.lane l).regs.fld (F.CRC_SCANm_STATUS_STATE e) = 1 || m.scanReserved l e then m.crcIgnored l
    else put id
  else if off = 0xC0 then m.crcUpd l (fun x => { x with regs := x.regs.snoopCtrl v })
  else if off = 0xC8 ∨ off = 0xCC then put Regs.snoopResult
  else if 0x200 ≤ off ∧ off < 0x300 then
    if off % 0x20 = 0 then m.channelWrite l ((off - 0x200) / 0x20) v
    else if m.channelsOn (m.lane l) then put id else m.crcIgnored l
  else m

/-- A 4-byte write of a lane's housekeeping core: the check units, and the DMA channels 0 to 11; what its other writes do stands in no
row of the table (assumption 104). -/
def Mach.coreWrite (m : Mach) (l : LaneId) (off v : Nat) : Mach := m.whenOn fun m =>
  if off / 0x1000 = 6 then m.coreCrc l (off % 0x1000) v
  else if 0x7400 ≤ off ∧ off < 0x7700 then m.dmaRegWrite (.lane l) (off - 0x7000) v
  else m

/-- A 4-byte write of the Service Controller's firmware: SC DMA channels 6 and 7. -/
def Mach.firmwareWrite (m : Mach) (off v : Nat) : Mach :=
  if 0x580 ≤ off ∧ off < 0x600 then m.dmaRegWrite .sc off v else m

/-- A write of 4 bytes, or of 8 as two of 4. -/
def Mach.byWords (m : Mach) (off size v : Nat) (f : Mach → Nat → Nat → Mach) : Mach :=
  if size = 8 then f (f m off (v % 2 ^ 32)) (off + 4) (v / 2 ^ 32) else if size = 4 then f m off (v % 2 ^ 32) else m

/-! ### Posted writes to BAR0 -/

/-- No register stands at an offset of a page of the Service Controller, its shadow registers counted (R10). -/
def Mach.bar0Reserved (m : Mach) (b : Blk) (o : Nat) : Bool := decide ((m.regJudge .a b (o / 4 * 4) 0 false).1 = 3)

/-- A posted write to BAR0; one of 1 or 2 bytes to a register that is no command slot is ignored and counted (R418). -/
def Mach.bar0Write (m : Mach) (off size v : Nat) (p : Posted) : Mach :=
  let o := off % 0x1000
  match bar0Page off with
  | none =>
    if 0x4000 ≤ off ∧ off < 0x7000 then m.failedAccess none false off 2
    else if 0x7000 ≤ off ∧ off < 0x7200 then m.msixWrite off size v
    else m
  | some b =>
    if b = .mbx ∧ 0x40 ≤ o ∧ o < 0x140 ∧ o % 0x20 < 0x8 then
      let n := (o - 0x40) / 0x20
      m.slotWrite false off size 8 (bitOf (m.sc.regs.fld F.HBR_CMD_CFG_MBX_WR) n && decide (o % 0x20 = 0)) p.busy
        (fun m => m.request n (BitVec.ofNat 64 v) p.offer.silent)
    else if b = .hbr ∧ o = 0xE0 then
      m.slotWrite false off size 4 (decide (m.sc.regs.fld F.HBR_CMD_CFG_MODE_WR = 1)) p.busy
        (fun m => m.modeRequest (BitVec.ofNat 32 v) p.offer.silent)
    else if size ≠ 4 ∧ size ≠ 8 then (if m.bar0Reserved b o then m else m.countWrite [] b o)
    else m.byWords o size v (fun m o v => m.ctlWrite b o v)

/-- The SC DRAM address a window starts at (R345). -/
def Mach.windowBase (m : Mach) (n : Nat) : Nat :=
  m.sc.regs.fld (F.HBR_WIN_BASE_LOn_BASE n) * 2 ^ 25 + m.sc.regs.fld (F.HBR_WIN_BASE_HIn_BASE n) * 2 ^ 32

/-- A posted write to SC DRAM: to the host staging area alone, and not in UPDATE (R345, R352, R402). -/
def Mach.scDramWrite (m : Mach) (bar : Nat) (l : List (Nat × Byte)) : Mach :=
  if l.any (fun e => decide (spaceSize 3 ≤ e.1)) then m.failedAccess none true bar 3
  else if l.any (fun e => decide (e.1 < 0x20000000) || decide (0x40000000 ≤ e.1)) || decide (m.sys.mode = 13) then m.failedAccess none true bar 2
  else { m with sc := { m.sc with dram := l.foldl (fun (d : Mem) e => d.put e.1 e.2) m.sc.dram } }

/-- A posted write aimed at the active image region of the lane that a LANE_VIEW window shows is counted in SYS too (R32). -/
def Mach.viewRefused (m : Mach) (n t size bar : Nat) : Mach :=
  let l := laneOf (m.sc.regs.fld (F.HBR_WIN_CFGn_LANE n))
  let a := m.windowBase n + t
  let k := m.failedAccess none true bar 2
  if overlap a size (if (m.lane l).activeHi then 0x80000000 else 0) 0x80000000 then
    k.updLane l (fun x => { x with regs := (x.regs.incReg (blkBase .sys + 0x20)).set (blkBase .sys + 0x24) (BitVec.ofNat 32 a) })
  else k

/-- A posted write to a window of BAR2 (R345, R347, R350, R352). -/
def Mach.bar2Write (m : Mach) (n off size v : Nat) (p : Posted) : Mach :=
  let r := m.sc.regs
  let bar := n * 0x2000000 + off
  let order := r.fld (F.HBR_WIN_CFGn_ORDER n)
  let t := ordered order size off v
  let on := decide (r.fld (F.HBR_WIN_CFGn_WRITE_READ n) = 1)
  if r.fld (F.HBR_WIN_CFGn_ENABLE n) = 0 then m.failedAccess none true bar 4
  else if misaligned order off size then m.failedAccess none true bar 5
  else match r.fld (F.HBR_WIN_CFGn_TARGET n) with
    | 1 =>
      if 0x1000 ≤ off then m.failedAccess none true bar 3
      else if 0x40 ≤ t.1 ∧ t.1 < 0x140 ∧ t.1 % 0x20 < 8 then
        m.slotWrite true bar size 8 (on && decide (t.1 % 0x20 = 0)) p.busy
          (fun m => m.request ((t.1 - 0x40) / 0x20) (BitVec.ofNat 64 t.2) p.offer.silent)
      else m.failedAccess none true bar 2
    | 2 => m.viewRefused n t.1 size bar
    | 3 => m.slotWrite true bar size 4 on p.busy (fun m => m.windowWrite n off v p.offer)
    | 4 => m.scDramWrite bar ((orderedBytes order size off v).map (fun e => (m.windowBase n + e.1, e.2)))
    | _ => m.failedAccess none true bar 4

/-- REGISTER_WRITE. -/
def Mach.registerWrite (m : Mach) (p : RegPlace) (size v : Nat) : Mach :=
  match p with
  | .bar0 off p => m.bar0Write off.toNat size v p
  | .bar2 n off p => m.bar2Write n.val off.toNat size v p
  | .core l off => m.byWords off.toNat size v (fun m o v => m.coreWrite l o v)
  | .firmware off => m.byWords off.toNat size v Mach.firmwareWrite

/-- A row that names a block writes it through the lanes, or in BAR0 for a block of the Service Controller. -/
def Mach.anyWrite (m : Mach) (b : Blk) (off v : Nat) (o : Offer) : Mach :=
  match blkHome b with
  | .ctl => m.ctlWrite b off v
  | _ => m.blockWrite b off v o

/-- LOCK_ARM_TIMEOUT (R419). -/
def Mach.lockTimeout (m : Mach) (b : Blk) : Mach :=
  let f := fun (r : Regs) => r.putLock b (r.lockOpen b) false
  match blkHome b with
  | .lane => m.mapLanes (fun x => { x with regs := f x.regs })
  | .hub => { m with ph := { m.ph with regs := f m.ph.regs } }
  | .ctl => { m with sc := { m.sc with regs := f m.sc.regs } }

end Sys2Proof.Machine
end

