-- ==== Sys2Proof/Machine/Boundary.lean ====
section
/-!
DEFINITION. Machine/Boundary.lean: CLUSTER_BOUNDARY (R242) with what begins at it: the copy of the shadows (R422, R423), Rinse
(R84), the schedule switches (R201, R205), nodes that have left (R200), the start and the end of the ports (R197, R211, R278),
and what is counted by the cluster.
-/
namespace Sys2Proof.Machine

/-! ### The copy of the shadows (R422, R423) -/

/-- The block of a page with shadows. -/
def shadowBlk (a : Nat) : Option Blk := (pageOf a).filter hasShadow

/-- Every shadow of a file becomes the value in force, and PENDING clears. -/
def copyShadows (r : Regs) (sh : Store (Option W32)) : Regs :=
  sh.foldl (fun (r : Regs) (e : Nat × Option W32) =>
    match e.2 with
    | some v => (r.set e.1 v).setBit (e.1 / 0x1000 * 0x1000 + 0x2C) 1 false
    | none => r) r

/-- Values held to after the copy land in the shadows in their order. -/
def landHeld (held : List (Nat × W32)) (r : Regs) : Regs × Store (Option W32) × List (Nat × W32) :=
  held.foldl (fun c (e : Nat × W32) =>
    match shadowBlk e.1 with
    | some b => shadowPut b e.1 e.2 false c
    | none => c) (r, [], [])

def Lane.copyShadow (x : Lane) : Lane :=
  let c := landHeld x.held (copyShadows x.regs x.shadow)
  { x with regs := c.1, shadow := c.2.1, held := c.2.2 }

def Ph.copyShadow (h : Ph) : Ph :=
  let c := landHeld h.held (copyShadows h.regs h.shadow)
  { h with regs := c.1, shadow := c.2.1, held := c.2.2 }

/-- A changed setting is stored (R429). -/
def Mach.storeCopied (m : Mach) (sh : Store (Option W32)) : Mach :=
  sh.foldl (fun (m : Mach) (e : Nat × Option W32) => match e.2 with | some v => m.storeSetting e.1 v | none => m) m

/-- SHADOW_COPY: every block in one step, in every lane and in the Port Hub. A change that comes into force in one lane only, another having lost
its shadow in a test, is stored too. -/
def Mach.shadowCopy (m : Mach) : Mach :=
  let m := ((laneIds.foldl (fun (n : Mach) l => n.storeCopied (m.lane l).shadow) m).storeCopied m.leadLane.shadow).storeCopied m.ph.shadow
  ({ m.mapLanes Lane.copyShadow with ph := m.ph.copyShadow } : Mach).ptpCfg

/-! ### What a boundary brings to the ports -/

/-- Switch requests that the copy took are announced, and announcements that end here take effect (R201, R205). -/
def Mach.switchSchedules (m : Mach) : Mach :=
  (List.range 16).foldl (fun (m : Mach) p => (m.schedStart p).schedApply p) m

/-- Nodes that left by command, by a LEAVE of their own or by a release are ABSENT from here (R200, R224). -/
def Mach.nodesLeave (m : Mach) : Mach :=
  ((m.ph.nodes.filter (fun (e : Nat × Node) => e.2.leaving)).map (·.1)).foldl Mach.setAbsent m

/-- Ports start in an active unit (R197, R211); in a pair a unit that is not active runs none (R278). -/
def Mach.portsBoundary (m : Mach) : Mach :=
  if modeActive m.sys.mode then m.portsStart
  else if m.paired && m.sys.active then m.portsStop
  else m

/-- STG.WORST_ERR: of the last cluster. -/
def Mach.worstErr (m : Mach) : Mach :=
  let e := m.ph.worst.getD (0, 0)
  let m := (m.putPh F.STG_WORST_ERR_ERR_NS (e.1 % 65536).toNat).putPh F.STG_WORST_ERR_NODE e.2
  { m with ph := { m.ph with worst := none } }

/-! ### The boundary -/

/-- The number of the cluster that begins; the first boundary after the agreement of the origin is that of cluster 0 (R242). -/
def Mach.countCluster (m : Mach) : Mach :=
  let c := if m.sys.preOrigin then 0 else m.sys.cluster + 1
  let probation := m.a.probation || m.b.probation || m.c.probation
  let tracking := decide (m.sys.mode = 10) && m.snapTaken
  (((m.setCluster c).updSys (fun s => { s with
    preOrigin := false, bc := 0, boundary := true,
    probRun := if probation then s.probRun + 1 else s.probRun, sinceSnap := if tracking then s.sinceSnap + 1 else s.sinceSnap })).cycleRegs
      0).reachMark (c * 16)

/-- Rinse in every lane that runs the cycle. -/
def Mach.rinse (m : Mach) : Mach :=
  if m.cycling then m.mapFollow (fun x => { x with rte := x.rte.rinse }) else m

/-- Everything a boundary brings. -/
def Mach.clusterBoundary (m : Mach) : Mach :=
  let m := (m.countCluster.rinse.shadowCopy).nodesLeave
  let m := (((m.switchSchedules.portsBoundary).portsRewind).worstErr.heardRegs).pairBoundary
  let m := m.clkBoundary m.cycling
  -- R286: a unit that is no longer active has sent its last PAIR_BEAT
  let m := if modeActive m.sys.mode then m
    else m.mapLanes (fun x => { x with fedOut := x.fedOut.filter (fun e => decide (e.2.1 ≠ 4)) })
  m.updSys (fun s => { s with active := modeActive s.mode })

/-- CLUSTER_BOUNDARY (R242): there is none before an origin is agreed. -/
def execClusterBoundary (s : State) : Host.Outcome State Fault Refusal :=
  s.run (fun m => if m.sys.originAgreed then m.clusterBoundary else m)

end Sys2Proof.Machine
end

