-- ==== Sys2Proof/Machine/CheckUnits.lean ====
section
/-!
DEFINITION. Machine/CheckUnits.lean: the rows of the check units (R364 to R368).
-/
namespace Sys2Proof.Machine

/-- SCAN_CRC64 (R364, mode 0). -/
def execScanCrc64 (l : LaneId) (m : Fin 2) (s : State) : Host.Outcome State Fault Refusal :=
  s.run (fun k => k.scanStart l m.val 0)

/-- SCAN_CRC32C (R364, mode 1). -/
def execScanCrc32c (l : LaneId) (m : Fin 2) (s : State) : Host.Outcome State Fault Refusal :=
  s.run (fun k => k.scanStart l m.val 1)

/-- SCAN_SEAL_WRITE (R364, mode 2). -/
def execScanSealWrite (l : LaneId) (m : Fin 2) (s : State) : Host.Outcome State Fault Refusal :=
  s.run (fun k => k.scanStart l m.val 2)

/-- SCAN_SEAL_CHECK (R364, mode 3). -/
def execScanSealCheck (l : LaneId) (m : Fin 2) (s : State) : Host.Outcome State Fault Refusal :=
  s.run (fun k => k.scanStart l m.val 3)

/-- SCAN_PAUSE (R365). -/
def execScanPause (l : LaneId) (m : Fin 2) (words : Nat) (s : State) : Host.Outcome State Fault Refusal :=
  s.run (fun k => k.scanPause l m.val words)

/-- SCAN_CONTINUE (R365). -/
def execScanContinue (l : LaneId) (m : Fin 2) (s : State) : Host.Outcome State Fault Refusal :=
  s.run (fun k => k.scanContinue l m.val)

/-- SCAN_DONE (R364). -/
def execScanDone (l : LaneId) (m : Fin 2) (uncorrectable : Bool) (s : State) : Host.Outcome State Fault Refusal :=
  s.run (fun k => k.scanDone l m.val uncorrectable)

/-- SNOOP_INIT (R368). -/
def execSnoopInit (l : LaneId) (alg : BitVec 2) (s : State) : Host.Outcome State Fault Refusal :=
  s.run (fun k => k.whenOn (fun k => k.updLane l (fun x => { x with regs := x.regs.snoopInit alg.toNat })))

/-- CRC_CHANNEL_ENABLE (R366). -/
def execCrcChannelEnable (l : LaneId) (k : Fin 8) (ctrl : W32) (s : State) : Host.Outcome State Fault Refusal :=
  s.run (fun m => m.channelWrite l k.val ctrl.toNat)

end Sys2Proof.Machine
end

