-- ==== Sys2Proof/Machine/Cycle.lean ====
section
/-!
DEFINITION. Machine/Cycle.lean: the commands of the basic cycle and of the interlocking cycle (chapters 1, 3 and 4): the
express pass, the full sweep, Gather, Evaluate, Press, its compare window and commit, and Emit.
-/
namespace Sys2Proof.Machine

/-! ### EXPRESS_PASS, FULL_SWEEP, ZVL_ENTERED_RESET -/

/-- EXPRESS_PASS (R131). Before the boundary of cluster 0 no mark exists (R242): 250 µs of time pass (assumption 33), and nothing
else; without power the counters stand. -/
def execExpressPass (i : PassInput) (s : State) : Host.Outcome State Fault Refusal :=
  s.run (fun m => if m.sys.originAgreed && !m.sys.preOrigin then m.expressPass i
    else if m.sys.mode = 0 then m else (m.countTicks 12500).tick)

/-- FULL_SWEEP (R132), after the express pass of basic cycle 14. -/
def Mach.fullSweep (m : Mach) (faults : List (LaneId × Nat × Nat)) (us : Nat) : Mach :=
  if m.sys.bc ≠ 14 || !modePasses m.sys.mode then m
  else
    let m := laneIds.foldl (fun (m : Mach) l => m.updClk l (fun c => { c with zvlUs := c.zvlUs + us })) m
    (m.vectored [.zvl] (m.mapFollow (fun x => x.fullSweep m.nowNs us))).zvlChecks faults

def execFullSweep (faults : List (LaneId × Nat × Nat)) (us : BitVec 8) (s : State) : Host.Outcome State Fault Refusal :=
  s.run (fun m => m.fullSweep faults us.toNat)

/-- ZVL_ENTERED_RESET (R126): the slot of the route in every lane that runs. -/
def Lane.enteredReset (route : Nat) (x : Lane) : Lane :=
  { x with zvl := x.zvl.mapSlots (fun t => if t.route = route then t.enteredReset else t) }

def execZvlEnteredReset (route : Nat) (s : State) : Host.Outcome State Fault Refusal :=
  s.run (fun m => m.mapFollow (Lane.enteredReset route))

/-! ### GATHER and Evaluate -/

/-- GATHER (R85, R87): the cut of the participating lanes, the frozen input image, and the contexts filled. -/
def Mach.gather (m : Mach) : Mach :=
  if !m.cycling || decide (m.sys.bc ≠ 0) then m
  else
    let cut := lowestSeq (m.followers.map (fun l => (m.lane l).highest))
    m.mapFollow (fun x => (x.gather cut m.sys.cluster (decide (m.sys.mode = 9))).fillContexts)

def execGather (s : State) : Host.Outcome State Fault Refusal := s.run Mach.gather

/-- EVALUATION_DONE (R87, R88): a context of one lane, at a time in µs from the cluster boundary. -/
def execEvaluationDone (l : LaneId) (ctx atUs : Nat) (s : State) : Host.Outcome State Fault Refusal :=
  s.run (fun m => if atUs ≤ 3250 then m.updLane l (fun x => x.contextDone ctx atUs) else m)

/-- EVALUATE_END (R89). -/
def Mach.evaluateEnd (m : Mach) : Mach :=
  m.vectored [.rte] (m.mapFollow (fun x => if x.rte.gathered then x.endEvaluate else x))

def execEvaluateEnd (s : State) : Host.Outcome State Fault Refusal := s.run Mach.evaluateEnd

/-- OVERRUN (R89): the request is rejected with OVERRUN at the Press, with an event record. -/
def Lane.overrun (seq cluster : Nat) (x : Lane) : Lane :=
  match x.rte.queue.find? (fun q => decide (q.seq = seq) && decide (3 ≤ q.drops)) with
  | none => x
  | some q =>
    let mark := x.rte.queue.map (fun (r : Req) => if r.seq = seq then { r with reason := 14 } else r)
    let press := x.rte.press.map (fun p => p.addEnd cluster q 6 14)
    { x with rte := ({ x.rte with queue := mark, press := press }) }

def Mach.overrun (m : Mach) (seq : Nat) : Mach :=
  match m.leadLane.rte.queue.find? (fun q => decide (q.seq = seq) && decide (3 ≤ q.drops)) with
  | none => m
  | some q => ((m.mapFollow (Lane.overrun seq m.sys.cluster)).raiseAll .rte I.RTE_OVERRUN).record 0x2003 q.mbx seq (rqTag q.word) 0

def execOverrun (seq : W32) (s : State) : Host.Outcome State Fault Refusal := s.run (fun m => m.overrun seq.toNat)

/-! ### PRESS and what befalls at it -/

/-- The write list of a lane (R90), staged for the compare window, with the time the merge took. -/
def Lane.stagePress (cluster us : Nat) (x : Lane) : Lane :=
  if x.rte.gathered then
    { x with regs := (x.regs.put F.RTE_PRESS_MERGE_US us).put F.RTE_CYCLE_PHASE 3,
             rte := { x.rte with press := some (x.buildPress cluster) } }
  else x

/-- PRESS (R90) with PROVING_END (R71) and TAKEOVER_END (R287). -/
def Mach.press (m : Mach) (us : LaneId → Nat) : Mach :=
  if !m.cycling || decide (m.sys.bc ≠ 13) then m
  else
    let one := fun (l : LaneId) (m : Mach) => m.updLane l (fun x =>
      if x.follows && x.loaded then x.stagePress m.sys.cluster (us l) else x)
    ((one .c (one .b (one .a m))).provingEnd).takeoverEnd

def execPress (mergeA mergeB mergeC : BitVec 8) (s : State) : Host.Outcome State Fault Refusal :=
  s.run (fun m => m.press (fun l => match l with | .a => mergeA.toNat | .b => mergeB.toNat | .c => mergeC.toNat))

/-- A timer whose count has reached zero is expired (R51). -/
def Timer.expire (t : Timer) : Timer := if t.state = 1 ∧ t.remaining = 0 then { t with state := 2 } else t

def ObjRec.expire (slot : Nat) (r : ObjRec) : ObjRec :=
  if slot = 0 then { r with timer0 := r.timer0.expire } else if slot = 1 then { r with timer1 := r.timer1.expire } else r

/-- A timer at zero stands expired in what a Press has built. -/
def PressOut.expire (i : Img) (o slot : Nat) (p : PressOut) : PressOut :=
  let s := SI.upd p.si o (ObjRec.expire slot)
  let w := changedIn [o] p.si s
  { p with si := s, log := p.log ++ diffImages [o] true p.si s, changed := p.changed ++ w.filter (fun k => i.used k && !p.changed.contains k),
           moved := p.moved ++ w.filter (fun k => i.used k && !p.moved.contains k) }

/-- TIMER_EXPIRY (R51): expiry is committed like any other change, so it enters the write list of the Press that a lane has built
and not yet committed (R22). -/
def Lane.timerExpiry (o slot : Nat) (x : Lane) : Lane :=
  { x with rte := { x.rte with press := x.rte.press.map (PressOut.expire x.img o slot) } }

def execTimerExpiry (object slot : Nat) (s : State) : Host.Outcome State Fault Refusal :=
  s.run (fun m => m.mapFollow (Lane.timerExpiry object slot))

/-- REQUEST_EXPIRY (R80): a stored SET_ROUTE whose lifetime has passed ends EXPIRED with the reason of its last blocking. -/
def Lane.requestExpiry (seq cluster : Nat) (x : Lane) : Lane :=
  match x.rte.queue.find? (fun q => decide (q.seq = seq) && decide (rqType q.word = 1) && rqStore q.word && !q.follower &&
      decide (x.regs.fld F.RTE_REQ_LIFETIME_CLUSTERS ≤ q.clusters)) with
  | none => x
  | some q =>
    let rest := x.rte.queue.filter (fun e => decide (e.seq ≠ seq))
    match x.rte.press with
    | some p =>
      match p.queue.find? (fun e => decide (e.seq = seq) && !e.follower) with
      | some e => { x with rte := ({ x.rte with press := some (p.addEnd cluster e 7 e.reason) }) }
      | none => x
    | none => ({ x with regs := x.regs.put F.RTE_REJECTS_COUNT (satAt 32 (x.regs.fld F.RTE_REJECTS_COUNT + 1)),
                        rte := ({ x.rte with queue := rest, report := x.rte.report ++ [endResult cluster (q, 7, q.reason)] }) } :
        Lane).queueRegs

def execRequestExpiry (seq : W32) (s : State) : Host.Outcome State Fault Refusal :=
  s.run (fun m => m.mapFollow (Lane.requestExpiry seq.toNat m.sys.cluster))

/-! ### PRESS_WINDOW_COMPARE and the commit -/

/-- The Seedbank streams of a committed Press (R283). -/
def Mach.seedPress (m : Mach) (old : SI) (log : List WriteEntry) : Mach :=
  if !m.paired || !modeActive m.sys.mode then m
  else
    let x := m.leadLane
    let c := m.sys.cluster
    let inc := incStream m x old m.fed.sentQueue log c
    let m := m.sendStream 2 c inc
    let m := { m with fed := ({ m.fed with sentQueue := x.rte.queue, sentCluster := c, acked := false, emitted := false }) }
    let m := ((m.putAll F.SDB_CURRENT_CLUSTER c).putAll F.SDB_LAST_INCR_BYTES (min inc.length 16777215)).putAll
      F.SDB_ROLE_ROLE 1
    if c % 64 = 0 then
      ((m.sendStream 1 c (fullStream m x c)).putAll F.SDB_FULL_CLUSTER c).raiseAll .sdb I.SDB_FULL_DONE
    else m

/-- What a committed Press is to a Darn in progress (R159 steps 6 and 7): the first one at step 6 is that of the snapshot, the next
ones follow it, and at step 7 the joining lane applies each. -/
def Mach.joinerPress (m : Mach) (cut : Nat) (p : PressOut) : Mach :=
  match m.joiner with
  | none => m
  | some j =>
    if (m.lane j).probation then m
    else if 7 ≤ m.darnStep then m.updLane j (fun x => x.track m.sys.cluster cut p)
    else if m.darnStep = 6 then
      let m := m.updLane j (fun x => ({ x with rte := { x.rte with queue := [] } } : Lane).queueRegs)
      if m.snapTaken then m.updSys (fun s => { s with snapLog := s.snapLog ++ [(m.sys.cluster, cut, p)] })
      else (m.mapIf (fun x => x.isServing) (fun x => { x with snap := some ⟨x.si, x.rte.carried⟩ })).updSys
        (fun s => { s with snapLog := [], sinceSnap := 0 })
    else m

/-- The commit of the lanes that are not excluded (R22), the tracking of a joining lane (R159 step 7), the Seedbank. -/
def Mach.commitPress (m : Mach) : Mach :=
  let lead := m.leadLane
  match lead.rte.press with
  | none => m
  | some p =>
    let out := m.sys.pendingExcl.map (·.1)
    let gating := m.gating
    let time := m.nowNs
    let n := laneIds.foldl (fun (m : Mach) l =>
      let x := m.lane l
      if x.follows && x.loaded && !out.contains l then m.setLane l (x.commit gating m.sys.cluster time)
      else if x.follows then m.setLane l { x with rte := { x.rte with press := none } }
      else m) m
    let m := m.vectored [.rte, .zvl] (n.joinerPress lead.rte.cut p)
    m.seedPress lead.si p.log

/-- PRESS_WINDOW_COMPARE (R147). -/
def Mach.pressWindow (m : Mach) (x : Exchange) : Mach :=
  if m.leadLane.rte.press.isNone || decide (m.sys.bc ≠ 13) then m else ((m.window 2 x).commitPress).closeSpan 3500

def execPressWindowCompare (x : Exchange) (s : State) : Host.Outcome State Fault Refusal :=
  s.run (fun m => m.pressWindow x)

/-! ### EMIT -/

/-- A lane passes its outcomes to the Service Controller, each with an event record (R81). -/
def Lane.reportRecords (time : Nat) (x : Lane) : Lane :=
  x.rte.report.foldl (fun y (r : Result) =>
    y.addEvent ⟨0x2001, time, r.mbx, r.word.toNat / 2 ^ 32, r.word.toNat % 2 ^ 32, r.seq, false, false⟩) x

def Mach.reportResults (m : Mach) : Mach :=
  let sent := m.serving.flatMap (fun l => (m.lane l).rte.report.map (fun r => (l, r)))
  let m := m.mapFollow (fun x => let y := x.reportRecords m.nowNs; { y with rte := { y.rte with report := [] } })
  { m with sc := { m.sc with reported := m.sc.reported ++ sent } }

/-- EMIT (R93, R285, R81): the payloads for basic cycle 15 and the outcomes. -/
def Mach.emitPhase (m : Mach) : Mach :=
  if !m.cycling || decide (m.sys.bc ≠ 14) then m
  else
    let m := m.mapFollow (fun x => x.emitCommands m.gating m.sys.cluster)
    let m := if m.paired then { m.heldRegs with fed := { m.fed with emitted := true } } else m
    (m.buildNext).reportResults

def execEmit (s : State) : Host.Outcome State Fault Refusal := s.run Mach.emitPhase

end Sys2Proof.Machine
end

