-- ==== Sys2Proof/Machine/Darn.lean ====
section
/-!
DEFINITION. Machine/Darn.lean: the commands of Darn (R158 to R160), one for each step's end. Each holds only in its own step;
what fails ends as R160 sets out.
-/
namespace Sys2Proof.Machine

/-- The delay of an automatic start has passed since the exclusion or the failure (R158, R160), and it has not been asked for. -/
def Mach.darnDelayOver (m : Mach) : Bool :=
  match m.sys.darnFrom with
  | some t => decide (t + m.fld F.RED_DARN_CFG_DELAY * 1000000 ≤ m.upUs)
  | none => false

/-- DARN_AUTO_START (R158). -/
def Mach.darnAuto (m : Mach) : Mach :=
  if m.fld F.RED_DARN_CFG_AUTO = 1 && !m.sys.darnDue && (m.roleSet .excluded != 0) && m.darnDelayOver then
    (m.updSys (fun s => { s with darnFrom := none })).darnAsk
  else m

def execDarnAutoStart (s : State) : Host.Outcome State Fault Refusal := s.run Mach.darnAuto

/-- A page's registers at their reset values, but for its ID, which the strap gives. -/
def Regs.dropPage (r : Regs) (base : Nat) : Regs :=
  r.filter (fun e => decide (e.1 / 0x1000 ≠ base / 0x1000) || decide (e.1 % 0x1000 = 0))

/-- The joining lane's fast and ZVL domains after their reset: RTE, ZVL, CRC and DMA; the always-on domain stays. -/
def Lane.domainReset (x : Lane) : Lane :=
  let r := (((x.regs.dropPage (blkBase .rte)).dropPage (blkBase .zvl)).dropPage (blkBase .crc)).dropPage (blkBase .dma)
  { x with role := .joining, probation := false, loaded := false, regs := r, si := [], rte := Rte.reset, zvl := Zvl.reset,
           payloads := [], staged := [], dioWord := 0, dioNext := 0, fedOut := [], selfFaults := [], inject := 0,
           scanned := false, outcome := none }

/-- DARN_START (step 1 and the start of step 2), at the cluster boundary after a start fell due. From step 2 on the start-up CRC channels of the
joining lane are offered (R366). -/
def Mach.darnStart (m : Mach) : Mach :=
  if !(m.sys.boundary && m.sys.darnDue) || m.preempted then m
  else
    let m := m.updSys (fun s => { s with darnDue := false })
    match m.darnLane with
    | none => m
    | some l =>
      if m.sys.mode ≠ 7 then m
      else
        let m := (m.setMode 10 0).updLane l Lane.domainReset
        let m := (m.updLane l m.fillLane).refreshServing
        let n := m.fld F.RED_DARN_STATUS_ATTEMPTS
        let m := m.dropSnap.updSys (fun s => { s with track := 0, probRun := 0, darnFrom := none })
        let m := m.updLane l (fun x => { x with regs := x.regs.put F.CRC_STATUS_CHANNELS 1 })
        m.mapLanes (fun x => { x with regs :=
          ((((x.regs.put F.RED_DARN_STATUS_ATTEMPTS (min (n + 1) 3)).put F.RED_DARN_STATUS_LANE (laneIx l)).put
            F.RED_DARN_STATUS_STEP 2).put F.RED_STATUS_DARN_ACTIVE 1) })

def execDarnStart (s : State) : Host.Outcome State Fault Refusal := s.run Mach.darnStart

/-- The joining lane while the step of R159 in progress is `k`. -/
def Mach.atStep (m : Mach) (k : Nat) : Option LaneId := if m.sys.mode = 10 ∧ m.darnStep = k then m.joiner else none

def Mach.darnTo (m : Mach) (k : Nat) : Mach :=
  let m := m.putAll F.RED_DARN_STATUS_STEP k
  m.mapIf (fun x => x.role == .joining) (fun x => { x with regs := x.regs.put F.CRC_STATUS_CHANNELS (b2n (decide (k ≤ 7))) })

/-- DARN_ZERO_FILL_DONE: on-die SRAM and DRAM are zero, and the isolated BIST of step 3 starts. -/
def Mach.darnZeroFill (m : Mach) : Mach :=
  match m.atStep 2 with
  | none => m
  | some l =>
    let m := m.updLane l (fun x => { x.zeroSram with
      dram := [], own := [], zeroDram := true, events := [], evLost := 0, regs := x.regs.put F.EVL_STAGED_KBYTES 0 })
    (m.darnTo 3).bistBegin (.lane l) false

def execDarnZeroFillDone (s : State) : Host.Outcome State Fault Refusal := s.run Mach.darnZeroFill

/-- DARN_BIST_DONE: logic and memory BIST under the limits of R303; the re-initialisation of the domains tested follows whatever the result
(R302 step 4, R304, assumption 86). -/
def Mach.darnBist (m : Mach) (r : BistRun) : Mach :=
  match m.atStep 3 with
  | none => m
  | some l =>
    let res := m.bistOf (.lane l) r 3
    let m := (m.updLane l Lane.domainReset).updLane l (fun x => m.fillLane (Lane.fillFuses (laneIx l) x.zeroSram))
    let m := (m.bistKeep (.lane l) r 3 3).refreshServing
    let m := m.bistEnd (.lane l)
    if res = 1 then m.darnTo 4 else m.darnFail false 0

def execDarnBistDone (r : BistRun) (s : State) : Host.Outcome State Fault Refusal := s.run (fun m => m.darnBist r)

/-- DARN_IMAGE_DONE: the selected slot as it arrived, checked as in LOAD, with its seals against the serving lanes'. -/
def Mach.darnImage (m : Mach) (wtSeal : W64) (differing : List (Nat × Byte)) : Mach :=
  match m.atStep 4 with
  | none => m
  | some l =>
    let lead := m.leadLane
    let m := m.updLane l (fun x => x.stream (m.slotOf (m.sc.regs.fld F.UPD_IMG_SELECT_SLOT)) differing)
    let x := m.lane l
    let o := x.stagingImg.outcome (x.regs.fld F.RTE_RULE_IF_MIN) (x.regs.fld F.RTE_RULE_IF_MAX)
    if o.1 = 0 ∧ o.2.1 = lead.img.imageId ∧ o.2.2.toNat = lead.img.storedSeal ∧ wtSeal = lead.wtSeal then
      (m.updLane l (fun x => ({ ((x.buildTables wtSeal).copyOnDie) with
        loaded := true, time := { x.time with stepped := false, good := 0, err := none } }))).darnTo 5
    else m.darnFail false 0

def execDarnImageDone (wtSeal : W64) (differing : List (Nat × Byte)) (s : State) : Host.Outcome State Fault Refusal :=
  s.run (fun m => m.darnImage wtSeal differing)

/-- DARN_TIMEBASE_ALIGNED (R247): within 500 ns at 16 consecutive marks. -/
def Mach.darnAligned (m : Mach) : Mach :=
  match m.atStep 5 with
  | none => m
  | some l => if 16 ≤ (m.lane l).time.good then m.darnTo 6 else m

def execDarnTimebaseAligned (s : State) : Host.Outcome State Fault Refusal := s.run Mach.darnAligned

/-- The snapshots of two serving lanes are equal. -/
def sameSnapshot (x y : Lane) : Bool := x.snap.isSome && decide (x.snap = y.snap)

/-- The joining lane with the snapshot and, after it, the write lists that have come since; requests it has committed since the last
of those Presses stand behind the queue. -/
def Lane.restore (j : Lane) (n : Snap) (log : List (Nat × Nat × PressOut)) : Lane :=
  let y := log.foldl (fun (y : Lane) e => y.track e.1 e.2.1 e.2.2) { j with si := n.si, rte := n.rte }
  { y with rte := { y.rte with queue := y.rte.queue ++ j.rte.queue } }.imageRegs

/-- The node states that go with the COMM fields of the snapshot's State Image: without them the lane would present no frame to itself
(assumption 76). -/
def Lane.takeNodes (j lead : Lane) : Lane := { j with live := { j.live with node := lead.live.node } }

/-- DARN_SNAPSHOT_RECEIVED (step 6). -/
def Mach.darnSnapshot (m : Mach) : Mach :=
  match m.atStep 6 with
  | none => m
  | some l =>
    let lead := m.leadLane
    match lead.snap with
    | none => m
    | some n =>
      if m.serving.all (fun k => sameSnapshot (m.lane k) lead) then
        let m := m.wakeLanes m.serving
        let m := m.vectored [.rte] (m.updLane l (fun x => (x.restore n m.sys.snapLog).takeNodes lead))
        (m.updSys (fun s => { s with track := 0, snapLog := [] })).darnTo 7
      else m.darnFail false 0

def execDarnSnapshotReceived (s : State) : Host.Outcome State Fault Refusal := s.run Mach.darnSnapshot

/-- DARN_TRACKING_MATCHED (step 7): 16 matches within 64 clusters of the snapshot. -/
def Mach.darnTracked (m : Mach) : Mach :=
  match m.atStep 7 with
  | none => m
  | some _ => if 16 ≤ m.sys.track then (if m.sys.sinceSnap ≤ 64 then m.darnTo 8 else m.darnFail false 0) else m

def execDarnTrackingMatched (s : State) : Host.Outcome State Fault Refusal := s.run Mach.darnTracked

/-- The ZVL state of the joining lane, one half from each serving lane (R159 step 8; which half is which: assumption 76). -/
def Zvl.halves (a b : Zvl) : Zvl :=
  { a with slots := a.slots.filter (fun e => decide (e.1 < 1024)) ++ b.slots.filter (fun e => decide (1024 ≤ e.1))
           claims := a.claims.filter (fun e => decide (e.1 < 8192)) ++ b.claims.filter (fun e => decide (8192 ≤ e.1))
           forbid := a.forbid.filter (fun e => decide (e.1 < 8192)) ++ b.forbid.filter (fun e => decide (8192 ≤ e.1))
           why := a.why.filter (fun e => decide (e.1 < 8192)) ++ b.why.filter (fun e => decide (8192 ≤ e.1))
           rObj := a.rObj.filter (fun e => decide (e.1 < 8192)) ++ b.rObj.filter (fun e => decide (8192 ≤ e.1)) }

/-- What a joining lane takes over at the cut-over beside the ZVL state: how the last frames were launched (R93) and what R285 holds back,
without which its first commands would differ (assumption 76). -/
def Rte.atCutOver (r lead : Rte) : Rte :=
  { r with launch := lead.launch, shared := lead.shared, permissive := lead.permissive, heldBack := lead.heldBack,
           heldApp := lead.heldApp, heldRestr := lead.heldRestr, heldProv := lead.heldProv, unacked := lead.unacked }

/-- DARN_CUT_OVER (step 8), at the announced boundary: the ZVL state as transferred, and probation starts. The State Image and the
request state are what the lane has tracked; its input image is its own, for the Port Hub goes on presenting every frame to it (R152,
assumption 76). -/
def Mach.darnCutOver (m : Mach) : Mach :=
  match m.atStep 8 with
  | none => m
  | some l =>
    if !m.sys.boundary then m
    else
      let lead := m.leadLane
      let other := m.lane (m.serving.getD 1 m.lead)
      let m := m.wakeLanes m.serving
      let m := m.updLane l (fun x => ({ x with
        zvl := lead.zvl.halves other.zvl, rte := x.rte.atCutOver lead.rte, probation := true,
        regs := x.regs.put F.RTE_STATUS_RUNNING 1 } : Lane).zvlRegs)
      ((m.updSys (fun s => { s with probRun := 0 })).darnTo 9).refreshServing

def execDarnCutOver (s : State) : Host.Outcome State Fault Refusal := s.run Mach.darnCutOver

/-- DARN_READMISSION (step 10), at the boundary after 256 clusters of probation. -/
def Mach.darnReadmission (m : Mach) : Mach :=
  match m.atStep 9 with
  | none => m
  | some l => if m.sys.boundary && decide (256 ≤ m.sys.probRun) && !m.preempted then m.readmit l else m

def execDarnReadmission (s : State) : Host.Outcome State Fault Refusal := s.run Mach.darnReadmission

/-- DARN_STEP_TIMEOUT (R160). -/
def execDarnStepTimeout (s : State) : Host.Outcome State Fault Refusal := s.run (fun m => m.darnFail false 0)

end Sys2Proof.Machine
end

