-- ==== Sys2Proof/Machine/Dio.lean ====
section
/-!
DEFINITION. Machine/Dio.lean: the commands of the 24 V digital I/O (chapter 13). The samples, the agreement and the control
lines are the latch and the mark of the express pass (R373 to R375).
-/
namespace Sys2Proof.Machine

def W64.bit (w : W64) (k : Nat) : Bool := bitOf w.toNat k

/-- The lane of a switch, in the order A1, B1, B2, C2, C3, A3 (R375). -/
def switchLane (idx : Nat) : LaneId :=
  match idx with
  | 1 | 2 => .b
  | 3 | 4 => .c
  | _ => .a

/-- A channel of 0 to 15 is tested in this basic cycle (R381, R382). -/
def Mach.tests (m : Mach) (ch : Nat) : Bool :=
  let d := m.dio
  let dark := W64.bit d.prevWord ch
  !W64.bit (d.demag ||| d.deferred ||| d.overload ||| d.changed) ch && (m.lane (switchLane d.testIdx)).isServing &&
  !(dark && (decide (m.sys.mode = 7) || decide (m.sys.mode = 10)))

/-- DIO_SWITCH_TEST (R381): dark tests on energised channels, light tests on the others; the results are reported at the next
latch. -/
def Mach.switchTest (m : Mach) : Mach :=
  let chs := (List.range 16).filter m.tests
  let set := fun (on : Bool) => BitVec.ofNat 16 (bitmap 16 (fun c => chs.contains c && W64.bit m.dio.prevWord c == on))
  let m := { m with dio := { m.dio with dark := set true, light := set false, testIdx := (m.dio.testIdx + 1) % 6 } }
  m.mapLanes (fun x => { x with regs := x.regs.addWrap F.DIO_PULSE_TESTS chs.length })

def execDioSwitchTest (s : State) : Host.Outcome State Fault Refusal :=
  s.run (fun m => if m.sys.originAgreed && !m.sys.preOrigin && decide (2 ≤ m.sys.mode) then m.switchTest else m)

/-! ### Demagnetisation, deferral, overload (R379, R380) -/

/-- DEMAG_END: DEMAG clears, and the 1 ms after it begins. -/
def Mach.demagEnd (m : Mach) (ch : Nat) : Mach :=
  if W64.bit m.dio.demag ch then
    ({ m with dio := ({ m.dio with demag := setBit64 m.dio.demag ch false,
                                   settling := setBit64 m.dio.settling ch true }) }).dioRegs
  else m

def execDemagEnd (ch : Fin 64) (s : State) : Host.Outcome State Fault Refusal := s.run (fun m => m.demagEnd ch.val)

/-- DEFER_END: 1 ms after DEMAG cleared; a deferred channel closes on the paths that R375 allows. -/
def Mach.deferEnd (m : Mach) (ch : Nat) : Mach :=
  if W64.bit m.dio.demag ch then m
  else ({ m with dio := ({ m.dio with settling := setBit64 m.dio.settling ch false,
                                      deferred := setBit64 m.dio.deferred ch false }) }).dioRegs

def execDeferEnd (ch : Fin 64) (s : State) : Host.Outcome State Fault Refusal := s.run (fun m => m.deferEnd ch.val)

/-- DIO_OVERLOAD: a conducting channel whose current has been above 0.6 A (120 units of 5 mA, rounded down) is turned off by its own hardware,
and its demagnetisation runs. Above 1.5 A the units saturate, and whether 1 ms has passed is what the row itself says (assumption 118). -/
def Mach.overloaded (m : Mach) (ch current : Nat) : Mach :=
  let d := m.dio
  if W64.bit d.prevWord ch && !W64.bit (d.deferred ||| d.overload) ch && decide (120 ≤ current) then
    let m := { m with dio := ({ d with overload := setBit64 d.overload ch true, overZero := setBit64 d.overZero ch false,
                                       demag := setBit64 d.demag ch true, current := Store.set zeroNat d.current ch current }) }
    ((m.dioRegs).raiseAll .dio I.DIO_OVERLOAD).record 0x6002 ch 5 0 0
  else m

def execDioOverload (ch : Fin 64) (current : BitVec 8) (s : State) : Host.Outcome State Fault Refusal :=
  s.run (fun m => m.overloaded ch.val current.toNat)

/-! ### Field supplies (R378, R384) -/

/-- The voltage of a group as DIO.SUPPLY shows it, and the replace-request pin that L+0 feeds. -/
def Mach.setVolts (m : Mach) (g v : Nat) : Mach :=
  let f := match g with
    | 0 => F.DIO_SUPPLY_L0
    | 1 => F.DIO_SUPPLY_L1
    | 2 => F.DIO_SUPPLY_L2
    | _ => F.DIO_SUPPLY_L3
  (m.putAll f v).mapLanes (fun x => { x with regs := x.regs.replacePin })

/-- A group's state by the thresholds of R378: 0 NORMAL, 1 LOW, 2 MISSING. -/
def Dio.groupAt (d : Dio) (g : Nat) : Nat := supplyOf d.group (16 * g)

def Dio.setGroup (d : Dio) (g st : Nat) : Dio :=
  { d with group := BitVec.ofNat 8 (setBits d.group.toNat (2 * g + 1) (2 * g) st) }

/-- A voltage that has stood for its time (R378): the group's state by its thresholds, in units of 200 mV. The lanes act on it, with the
interrupt and the record, when they agree it at the latch (R373). The DIO is unpowered in DORMANT (R320). -/
def Mach.supplyTo (m : Mach) (g v : Nat) (next : Nat → Nat) : Mach :=
  if m.sys.mode < 2 then m
  else
    let m := m.setVolts g v
    { m with dio := m.dio.setGroup g (next (m.dio.groupAt g)) }

/-- Below 18 V a NORMAL group becomes LOW. -/
def lowNext (v st : Nat) : Nat := if v < 90 ∧ st = 0 then 1 else st

/-- Below 9 V a group is MISSING. -/
def missingNext (v st : Nat) : Nat := if v < 45 then 2 else st

/-- LOW ends at 19 V; MISSING at 10 V, and what follows is NORMAL from 19 V on and LOW below (assumption 118). -/
def recoverNext (v st : Nat) : Nat := if 95 ≤ v then 0 else if 50 ≤ v ∧ st = 2 then 1 else st

/-- SUPPLY_LOW: below 18 V for 1 ms. -/
def execSupplyLow (g : Fin 4) (volts : BitVec 8) (s : State) : Host.Outcome State Fault Refusal :=
  s.run (fun m => m.supplyTo g.val volts.toNat (lowNext volts.toNat))

/-- SUPPLY_MISSING: below 9 V for 1 ms. -/
def execSupplyMissing (g : Fin 4) (volts : BitVec 8) (s : State) : Host.Outcome State Fault Refusal :=
  s.run (fun m => m.supplyTo g.val volts.toNat (missingNext volts.toNat))

/-- SUPPLY_RECOVER: at or above 19 V, or from MISSING 10 V, for 10 ms. -/
def execSupplyRecover (g : Fin 4) (volts : BitVec 8) (s : State) : Host.Outcome State Fault Refusal :=
  s.run (fun m => m.supplyTo g.val volts.toNat (recoverNext volts.toNat))

/-! ### Differences found at the latches (R373, R376, R383) -/

/-- READBACK_FAULT: a mismatch of 8 consecutive latches, recorded once. -/
def Mach.readbackFault (m : Mach) (ch : Nat) : Mach :=
  let n := Store.get zeroNat m.dio.rbCount ch
  if 8 ≤ n ∧ n ≠ 255 then
    let m := { m with dio := ({ m.dio with readback := setBit64 m.dio.readback ch true,
                                           rbCount := Store.set zeroNat m.dio.rbCount ch 255 }) }
    ((m.dioRegs).raiseAll .dio I.DIO_READBACK).record 0x6002 ch 3 0 0
  else m

def execReadbackFault (ch : Fin 64) (s : State) : Host.Outcome State Fault Refusal := s.run (fun m => m.readbackFault ch.val)

/-- IN_DISAGREE: a lane's sample that differed from both others at 16 consecutive latches, recorded once. -/
def Mach.inDisagree (m : Mach) (l : LaneId) (ch : Nat) : Mach :=
  let k := laneIx l * 64 + ch
  let n := Store.get zeroNat m.dio.disagree k
  if 16 ≤ n ∧ n ≠ 255 then
    let m := { m with dio := { m.dio with disagree := Store.set zeroNat m.dio.disagree k 255 } }
    let m := ((m.incAll F.DIO_IN_DISAGREE_COUNT).putAll F.DIO_IN_DISAGREE_LANE (laneIx l)).putAll F.DIO_IN_DISAGREE_CHANNEL ch
    (m.raiseAll .dio I.DIO_IN_DISAGREE).record 0x6003 ch (laneIx l) 0 0
  else m

def execInDisagree (l : LaneId) (ch : Fin 64) (s : State) : Host.Outcome State Fault Refusal :=
  s.run (fun m => m.inDisagree l ch.val)

/-- A sense of one of the lane's participation switches was wrong at two consecutive latches. -/
def Dio.senseFault (d : Dio) (l : LaneId) : Bool :=
  (List.range 18).any (fun k => decide (k % 6 / 2 = laneIx l) && decide (2 ≤ Store.get zeroNat d.senseBad k))

/-- PARTICIPATION_FAULT: a sense of the lane's participation switches wrong at two consecutive latches: SWITCH_FAULT on all of
channels 0 to 15, with a record for each. -/
def Mach.participationFault (m : Mach) (l : LaneId) : Mach :=
  if m.dio.senseFault l then
    let m := ({ m with dio := { m.dio with senseBad := [] } }).forceOff 0xFFFF
    (List.range 16).foldl (fun (m : Mach) ch => m.record 0x6002 ch 4 (laneIx l) 0) m
  else m

def execParticipationFault (l : LaneId) (s : State) : Host.Outcome State Fault Refusal :=
  s.run (fun m => m.participationFault l)

end Sys2Proof.Machine
end

