-- ==== Sys2Proof/Machine/Dma.lean ====
section
/-!
DEFINITION. Machine/Dma.lean: the rows of the DMA units (R359 to R362). The operation of a start is that of the CTRL word.
-/
namespace Sys2Proof.Machine

/-- DMA_COPY (R359): CHn_CTRL written with ENABLE and OP COPY. -/
def execDmaCopy (u : DmaUnit) (ch : Fin 16) (ctrl : W32) (beats : Nat) (hostData : List Byte) (s : State) :
    Host.Outcome State Fault Refusal :=
  s.run (fun m => m.dmaCtrl u ch.val ctrl.toNat beats hostData)

/-- DMA_FILL (R359). -/
def execDmaFill (u : DmaUnit) (ch : Fin 16) (ctrl : W32) (beats : Nat) (s : State) : Host.Outcome State Fault Refusal :=
  s.run (fun m => m.dmaCtrl u ch.val ctrl.toNat beats [])

/-- DMA_COMPARE (R359). -/
def execDmaCompare (u : DmaUnit) (ch : Fin 16) (ctrl : W32) (beats : Nat) (hostData : List Byte) (s : State) :
    Host.Outcome State Fault Refusal :=
  s.run (fun m => m.dmaCtrl u ch.val ctrl.toNat beats hostData)

/-- DMA_ABORT (R362). -/
def execDmaAbort (u : DmaUnit) (ch : Fin 16) (s : State) : Host.Outcome State Fault Refusal :=
  s.run (fun m => m.dmaAbort u ch.val)

/-- DMA_DONE (R361). -/
def execDmaDone (u : DmaUnit) (ch : Fin 16) (e : XferEnd) (s : State) : Host.Outcome State Fault Refusal :=
  s.run (fun m => m.dmaFinish u ch.val e)

/-- DMA_STOPPED (R362). -/
def execDmaStopped (u : DmaUnit) (ch : Fin 16) (s : State) : Host.Outcome State Fault Refusal :=
  s.run (fun m => m.dmaStopped u ch.val)

end Sys2Proof.Machine
end

