-- ==== Sys2Proof/Machine/Events.lean ====
section
/-!
DEFINITION. Machine/Events.lean: the rows of the event recorder and of the host links (chapter 14, R31, R440).
-/
namespace Sys2Proof.Machine

/-- EVR_FLUSH (R395). -/
def execEvrFlush (s : State) : Host.Outcome State Fault Refusal := s.run Mach.startFlush

/-- EVR_FETCH (R397). -/
def execEvrFetch (s : State) : Host.Outcome State Fault Refusal := s.run Mach.evrFetch

/-- EVR_FETCH_DONE (R397). -/
def execEvrFetchDone (s : State) : Host.Outcome State Fault Refusal := s.run Mach.evrFetchDone

/-- EVR_CLEAR (R398, R399). -/
def execEvrClear (upto : W32) (s : State) : Host.Outcome State Fault Refusal := s.run (fun m => m.evrClear upto.toNat)

/-- EVR_CLEAR_ERASE_DONE (R399). -/
def execEvrClearEraseDone (s : State) : Host.Outcome State Fault Refusal := s.run Mach.clearDone

/-- PERST (R440). -/
def execPerst (asserted : Bool) (s : State) : Host.Outcome State Fault Refusal := s.run (fun m => m.perst asserted)

/-- HOST_LINK_FAIL (R31). -/
def execHostLinkFail (l : LaneId) (s : State) : Host.Outcome State Fault Refusal := s.run (fun m => m.hostLinkFail l)

/-- HOST_LINK_RESTORE (R31). -/
def execHostLinkRestore (l : LaneId) (s : State) : Host.Outcome State Fault Refusal := s.run (fun m => m.hostLinkRestore l)

/-- EVENT_REPORT (R390, R391). -/
def execEventReport (l : LaneId) (s : State) : Host.Outcome State Fault Refusal := s.run (fun m => m.eventReport l)

/-- MERGE_TIMEOUT (R390). -/
def execMergeTimeout (s : State) : Host.Outcome State Fault Refusal := s.run Mach.mergeTimeout

/-- FLUSH_TIMER (R395). -/
def execFlushTimer (s : State) : Host.Outcome State Fault Refusal := s.run Mach.flushTimer

/-- FLUSH_BATCH_DONE (R395). -/
def execFlushBatchDone (s : State) : Host.Outcome State Fault Refusal := s.run Mach.flushDone

end Sys2Proof.Machine
end

