-- ==== Sys2Proof/Machine/Federation.lean ====
section
/-!
DEFINITION. Machine/Federation.lean: the commands of the federation networks (R259 to R276). Each received copy is checked
under R264; `arrival` is module time in ns.
-/
namespace Sys2Proof.Machine

/-- BOUNDARY_MSG (R269, R271). -/
def execBoundaryMsg (n : Net) (bytes : List Byte) (arrival : Nat) (s : State) : Host.Outcome State Fault Refusal :=
  s.run (fun m => m.fedReceive n bytes arrival 1 (fun m g => m.boundary n arrival g))

/-- STATUS_MSG (R275, R276). -/
def execStatusMsg (n : Net) (bytes : List Byte) (arrival : Nat) (s : State) : Host.Outcome State Fault Refusal :=
  s.run (fun m => m.fedReceive n bytes arrival 2 Mach.statusMsg)

/-- START_MSG (R276). -/
def execStartMsg (n : Net) (bytes : List Byte) (arrival : Nat) (s : State) : Host.Outcome State Fault Refusal :=
  s.run (fun m => m.fedReceive n bytes arrival 3 Mach.startMsg)

/-- FED_SOURCE_LOST (R270). -/
def execFedSourceLost (source : Fin 16) (s : State) : Host.Outcome State Fault Refusal := s.run (fun m => m.sourceLost source.val)

/-- FED_SOURCE_RESTORED (R270). -/
def execFedSourceRestored (source : Fin 16) (s : State) : Host.Outcome State Fault Refusal :=
  s.run (fun m => m.sourceRestored source.val)

/-- SINGLE_NETWORK_ENTER (R272). -/
def execSingleNetworkEnter (silent : Net) (linkLost : Bool) (s : State) : Host.Outcome State Fault Refusal :=
  s.run (fun m => m.singleEnter silent linkLost)

/-- SINGLE_NETWORK_LEAVE (R272). -/
def execSingleNetworkLeave (s : State) : Host.Outcome State Fault Refusal := s.run Mach.singleLeave

/-- SINGLE_NETWORK_EXPIRY (R272). -/
def execSingleNetworkExpiry (s : State) : Host.Outcome State Fault Refusal := s.run Mach.singleExpiry

/-- DUPLICATE_CLEAR (R275). -/
def execDuplicateClear (number : Fin 16) (s : State) : Host.Outcome State Fault Refusal :=
  s.run (fun m => m.duplicateClear number.val)

/-- FED_LISTEN_END (R276 step 3). -/
def execFedListenEnd (s : State) : Host.Outcome State Fault Refusal := s.run Mach.listenEnd

/-- START_SEND (R276 step 3). -/
def execStartSend (s : State) : Host.Outcome State Fault Refusal := s.run Mach.startSend

/-- FED_CLAIM_END (R276 step 5). -/
def execFedClaimEnd (s : State) : Host.Outcome State Fault Refusal := s.run Mach.claimEnd

/-- FED_BACKOFF_END (R276 step 4). -/
def execFedBackoffEnd (s : State) : Host.Outcome State Fault Refusal :=
  s.run (fun m => if m.fed.startState = 3 then m.startListen else m)

end Sys2Proof.Machine
end

