-- ==== Sys2Proof/Machine/HostRegs.lean ====
section
/-!
DEFINITION. Machine/HostRegs.lean: the commands that write registers (chapters 2, 10, 12 and 15): BAR0 and LANE_REGS writes,
locks, shadows, interrupt registers, the registers with an effect of their own, and the flash slots.
-/
namespace Sys2Proof.Machine

/-- REGISTER_WRITE (R10, R344, R345, R347, R348, R350, R351, R358, R418). -/
def execRegisterWrite (place : RegPlace) (size : Nat) (value : BitVec 2048) (s : State) : Host.Outcome State Fault Refusal :=
  s.run (fun m => m.registerWrite place size (value.toNat % 256 ^ size))

/-- LANE_REGS_WRITE (R345, R349, R351, R421, R423). -/
def execLaneRegsWrite (window : Fin 8) (offset : BitVec 25) (value : W32) (o : Offer) (s : State) :
    Host.Outcome State Fault Refusal :=
  s.run (fun m => m.windowWrite window.val offset.toNat value.toNat o)

/-- LOCK_ARM (R419, R420). -/
def execLockArm (b : Blk) (silent : BitVec 3) (s : State) : Host.Outcome State Fault Refusal :=
  s.run (fun m => m.anyWrite b 0x28 0x5A3C ⟨silent, 0⟩)

/-- LOCK_OPEN (R419): any KEY after ARMED, or a stray one. -/
def execLockOpen (b : Blk) (key : W16) (silent : BitVec 3) (s : State) : Host.Outcome State Fault Refusal :=
  s.run (fun m => m.anyWrite b 0x28 key.toNat ⟨silent, 0⟩)

/-- LOCK_CLOSE (R419). -/
def execLockClose (b : Blk) (silent : BitVec 3) (s : State) : Host.Outcome State Fault Refusal :=
  s.run (fun m => m.anyWrite b 0x28 0 ⟨silent, 0⟩)

/-- LOCK_ARM_TIMEOUT (R419). -/
def execLockArmTimeout (b : Blk) (s : State) : Host.Outcome State Fault Refusal := s.run (fun m => m.lockTimeout b)

/-- SHADOW_WRITE (R422, R423): `offset` is the page offset of the shadow, 0x800 above its register. -/
def execShadowWrite (b : Blk) (offset : BitVec 12) (value : W32) (late : BitVec 3) (silent : BitVec 3) (s : State) :
    Host.Outcome State Fault Refusal :=
  s.run (fun m => m.anyWrite b offset.toNat value.toNat ⟨silent, late⟩)

/-- SHADOW_DISCARD (R415, R423). -/
def execShadowDiscard (b : Blk) (late : BitVec 3) (silent : BitVec 3) (s : State) : Host.Outcome State Fault Refusal :=
  s.run (fun m => m.anyWrite b 0x2C 1 ⟨silent, late⟩)

/-- INT_PENDING_CLEAR (R416). -/
def execIntPendingClear (b : Blk) (value : W32) (silent : BitVec 3) (s : State) : Host.Outcome State Fault Refusal :=
  s.run (fun m => m.anyWrite b 0x18 value.toNat ⟨silent, 0⟩)

/-- INT_ENABLE_WRITE (R416, R356). -/
def execIntEnableWrite (b : Blk) (value : W32) (silent : BitVec 3) (s : State) : Host.Outcome State Fault Refusal :=
  s.run (fun m => m.anyWrite b 0x14 value.toNat ⟨silent, 0⟩)

/-- INT_FORCE (R417). -/
def execIntForce (b : Blk) (value : W32) (silent : BitVec 3) (s : State) : Host.Outcome State Fault Refusal :=
  s.run (fun m => m.anyWrite b 0x1C value.toNat ⟨silent, 0⟩)

/-- QUEUE_FLUSH (R114): RTE.CTRL.FLUSH. -/
def execQueueFlush (silent : BitVec 3) (s : State) : Host.Outcome State Fault Refusal :=
  s.run (fun m => m.anyWrite .rte 0x8 1 ⟨silent, 0⟩)

/-- SIGNATURE_INJECT (R162): VOT.CTRL.INJECT. -/
def execSignatureInject (kind : BitVec 2) (silent : BitVec 3) (s : State) : Host.Outcome State Fault Refusal :=
  s.run (fun m => m.anyWrite .vot 0x8 kind.toNat ⟨silent, 0⟩)

/-- DARN_START_REQUEST (R158): RED.DARN_CTRL.START. -/
def execDarnStartRequest (silent : BitVec 3) (s : State) : Host.Outcome State Fault Refusal :=
  s.run (fun m => m.anyWrite .red 0x50 1 ⟨silent, 0⟩)

/-- DARN_ABORT (R160): RED.DARN_CTRL.ABORT. -/
def execDarnAbort (silent : BitVec 3) (s : State) : Host.Outcome State Fault Refusal :=
  s.run (fun m => m.anyWrite .red 0x50 2 ⟨silent, 0⟩)

/-- HANDBACK_RELEASE (R288, R290): RED.PAIR_CTRL. -/
def execHandbackRelease (silent : BitVec 3) (s : State) : Host.Outcome State Fault Refusal :=
  s.run (fun m => m.anyWrite .red 0x114 1 ⟨silent, 0⟩)

/-- NODE_LEAVE_REQUEST (R200): TTP.NODE_CTRL with LEAVE and the node's index. -/
def execNodeLeaveRequest (port : Fin 16) (index : BitVec 7) (o : Offer) (s : State) : Host.Outcome State Fault Refusal :=
  s.run (fun m => m.anyWrite (.ttp port) 0x6C (0x80 + index.toNat) o)

/-- QUARANTINE_RELEASE (R224): STG.QUAR_RELEASE. -/
def execQuarantineRelease (node : BitVec 11) (o : Offer) (s : State) : Host.Outcome State Fault Refusal :=
  s.run (fun m => m.anyWrite .stg 0x84 node.toNat o)

/-- IMG_ERASE (R59, R60). -/
def execImgErase (slot : Bool) (s : State) : Host.Outcome State Fault Refusal := s.run (fun m => m.imgErase slot)

/-- IMG_ERASE_DONE (R60). -/
def execImgEraseDone (slot : Bool) (s : State) : Host.Outcome State Fault Refusal := s.run (fun m => m.imgErased slot)

/-- IMG_OPEN (R60). -/
def execImgOpen (slot : Bool) (s : State) : Host.Outcome State Fault Refusal := s.run (fun m => m.imgOpen slot)

/-- IMG_CLOSE (R60). -/
def execImgClose (slot : Bool) (s : State) : Host.Outcome State Fault Refusal := s.run (fun m => m.imgClose slot)

/-- IMG_CHECK_DONE (R60). -/
def execImgCheckDone (slot : Bool) (s : State) : Host.Outcome State Fault Refusal := s.run (fun m => m.imgChecked slot)

/-- IMG_SELECT (R60). -/
def execImgSelect (value : W32) (s : State) : Host.Outcome State Fault Refusal := s.run (fun m => m.imgSelect value.toNat)

/-- COMMISSIONING_KEY_STORE (R297, R357): a write of HBR.KEY7. -/
def execCommissioningKeyStore (word : W32) (s : State) : Host.Outcome State Fault Refusal :=
  s.run (fun m => m.keyWrite 7 word)

/-- BIST_START (R304, R305): a write of BST.CTRL. -/
def execBistStart (ctrl : W32) (silent : BitVec 3) (s : State) : Host.Outcome State Fault Refusal :=
  s.run (fun m => m.anyWrite .bst 0x40 ctrl.toNat ⟨silent, 0⟩)

end Sys2Proof.Machine
end

