-- ==== Sys2Proof/Machine/Load.lean ====
section
/-!
DEFINITION. Machine/Load.lean: the commands of LOAD (R62, R63, R141, R273, R280).
-/
namespace Sys2Proof.Machine

def execImageStreamDone (differing : List (LaneId × Nat × Byte)) (s : State) : Host.Outcome State Fault Refusal :=
  s.run (fun m => m.imageStreamDone differing)

def execImageScanDone (l : LaneId) (s : State) : Host.Outcome State Fault Refusal := s.run (fun m => m.imageScanDone l)

def execWorkingTablesBuilt (sealA sealB sealC : W64) (s : State) : Host.Outcome State Fault Refusal :=
  s.run (fun m => m.tablesBuilt sealA sealB sealC)

def execOnDieCompareDone (s : State) : Host.Outcome State Fault Refusal := s.run Mach.onDieDone

def execFedTimeAligned (s : State) : Host.Outcome State Fault Refusal := s.run Mach.fedAligned

def execStartWaitExpiry (s : State) : Host.Outcome State Fault Refusal := s.run Mach.startWaitOver

def execPairListenEnd (s : State) : Host.Outcome State Fault Refusal := s.run Mach.pairListenEnd

end Sys2Proof.Machine
end

