-- ==== Sys2Proof/Machine/Modes.lean ====
section
/-!
DEFINITION. Machine/Modes.lean: the rows of mode, lifecycle and session requests, and what becomes of them (chapter 10).
-/
namespace Sys2Proof.Machine

/-- MODE_REQ_DORMANT (R320): the request word, authorised, offered and answered. -/
def execModeReqDormant (word : W32) (silent : BitVec 3) (s : State) : Host.Outcome State Fault Refusal :=
  s.run (fun m => m.modeRequest word silent)

/-- RESTART_OR_WAKE (R310, R320): the request word, authorised, offered and answered. -/
def execRestartOrWake (word : W32) (silent : BitVec 3) (s : State) : Host.Outcome State Fault Refusal :=
  s.run (fun m => m.modeRequest word silent)

/-- RETURN_TO_SERVICE (R318): the request word, authorised, offered and answered. -/
def execReturnToService (word : W32) (silent : BitVec 3) (s : State) : Host.Outcome State Fault Refusal :=
  s.run (fun m => m.modeRequest word silent)

/-- MODE_REQ_MAINTENANCE (R318): the request word, authorised, offered and answered. -/
def execModeReqMaintenance (word : W32) (silent : BitVec 3) (s : State) : Host.Outcome State Fault Refusal :=
  s.run (fun m => m.modeRequest word silent)

/-- MODE_REQ_UPDATE (R402): the request word, authorised, offered and answered. -/
def execModeReqUpdate (word : W32) (silent : BitVec 3) (s : State) : Host.Outcome State Fault Refusal :=
  s.run (fun m => m.modeRequest word silent)

/-- LIFECYCLE_SERVICE (R299): the request word, authorised, offered and answered. -/
def execLifecycleService (word : W32) (silent : BitVec 3) (s : State) : Host.Outcome State Fault Refusal :=
  s.run (fun m => m.modeRequest word silent)

/-- LIFECYCLE_RETIRED (R299): the request word, authorised, offered and answered. -/
def execLifecycleRetired (word : W32) (silent : BitVec 3) (s : State) : Host.Outcome State Fault Refusal :=
  s.run (fun m => m.modeRequest word silent)

/-- BIST_SESSION_OPEN (R305): the request word, authorised, offered and answered. -/
def execBistSessionOpen (word : W32) (silent : BitVec 3) (s : State) : Host.Outcome State Fault Refusal :=
  s.run (fun m => m.modeRequest word silent)

/-- BIST_SESSION_CLOSE (R305): the request word, authorised, offered and answered. -/
def execBistSessionClose (word : W32) (silent : BitVec 3) (s : State) : Host.Outcome State Fault Refusal :=
  s.run (fun m => m.modeRequest word silent)

/-- REQUESTED_TRANSITION (R292). -/
def execRequestedTransition (s : State) : Host.Outcome State Fault Refusal := s.run Mach.requestedTransition

/-- FUSE_BLOWN (R299). -/
def execFuseBlown (s : State) : Host.Outcome State Fault Refusal := s.run Mach.fuseBlown

/-- CHALLENGE_EXPIRY (R297). -/
def execChallengeExpiry (s : State) : Host.Outcome State Fault Refusal := s.run Mach.challengeExpiry

/-- AUTH_LOCKOUT_END (R297). -/
def execAuthLockoutEnd (s : State) : Host.Outcome State Fault Refusal := s.run Mach.lockoutEnd

end Sys2Proof.Machine
end

