-- ==== Sys2Proof/Machine/Pair.lean ====
section
/-!
DEFINITION. Machine/Pair.lean: the commands of a module pair (R277 to R291).
-/
namespace Sys2Proof.Machine

/-- PAIR_BEAT_MSG (R279, R286, R257). -/
def execPairBeatMsg (bytes : List Byte) (arrival : Nat) (stamp : Option Int) (s : State) : Host.Outcome State Fault Refusal :=
  s.run (fun m => m.fedReceive .pair bytes arrival 4 (fun m g => m.pairBeat arrival stamp g))

/-- HEALTH_MSG (R282, R288). -/
def execHealthMsg (bytes : List Byte) (arrival : Nat) (s : State) : Host.Outcome State Fault Refusal :=
  s.run (fun m => m.fedReceive .pair bytes arrival 5 Mach.healthMsg)

/-- SEED_MSG (R284). -/
def execSeedMsg (bytes : List Byte) (arrival : Nat) (s : State) : Host.Outcome State Fault Refusal :=
  s.run (fun m => m.fedReceive .pair bytes arrival 6 Mach.seedMsg)

/-- SEED_ACK_MSG (R285). -/
def execSeedAckMsg (bytes : List Byte) (arrival : Nat) (s : State) : Host.Outcome State Fault Refusal :=
  s.run (fun m => m.fedReceive .pair bytes arrival 7 (fun m g => m.seedAck arrival g))

/-- PARTNER_BEACON (R280, R286), seen on a port that forwards. -/
def execPartnerBeacon (port : Fin 16) (link : Link) (bytes : List Byte) (s : State) : Host.Outcome State Fault Refusal :=
  s.run (fun m => m.partnerBeacon port.val link bytes)

/-- PAIR_SILENCE (R286). -/
def execPairSilence (s : State) : Host.Outcome State Fault Refusal := s.run Mach.pairSilence

/-- TAKEOVER_ENTRY (R287, R288 step 4). -/
def execTakeoverEntry (s : State) : Host.Outcome State Fault Refusal := s.run Mach.takeoverEntry

/-- HEALTH_TIMEOUT (R282). -/
def execHealthTimeout (s : State) : Host.Outcome State Fault Refusal := s.run Mach.healthTimeout

/-- STANDBY_LANE_TEST (R281). -/
def execStandbyLaneTest (s : State) : Host.Outcome State Fault Refusal := s.run Mach.laneTest

/-- STANDBY_TEST_DONE (R281). -/
def execStandbyTestDone (r : StandbyRun) (s : State) : Host.Outcome State Fault Refusal :=
  s.run (fun m => m.testDone r.run r.wtFault)

/-- HANDBACK_READY (R288 step 1). -/
def execHandbackReady (s : State) : Host.Outcome State Fault Refusal := s.run Mach.handbackReady

/-- HANDBACK_ENTRY (R288 step 2). -/
def execHandbackEntry (s : State) : Host.Outcome State Fault Refusal := s.run Mach.handbackEntry

/-- HANDBACK_FINAL (R288 step 3). -/
def execHandbackFinal (s : State) : Host.Outcome State Fault Refusal := s.run Mach.handbackFinal

/-- HANDBACK_HANDOVER (R288 step 4). -/
def execHandbackHandover (s : State) : Host.Outcome State Fault Refusal := s.run Mach.handbackHandover

/-- HANDBACK_ABANDON (R288). -/
def execHandbackAbandon (s : State) : Host.Outcome State Fault Refusal := s.run Mach.handbackAbandon

end Sys2Proof.Machine
end

