-- ==== Sys2Proof/Machine/Ports.lean ====
section
/-!
DEFINITION. Machine/Ports.lean: the commands of the Thawen ports (chapters 6 and 7): basic cycles, windows, received frames,
joining and leaving, probes, rings, communication states and the schedule decision.
-/
namespace Sys2Proof.Machine

/-! ### Basic cycles and windows -/

/-- PORT_BASIC_CYCLE (R183, R226, R229). A port that does not run only learns which links have sync again (R206, R282). -/
def execPortBasicCycle (port : Fin 16) (seen : RingSeen) (s : State) : Host.Outcome State Fault Refusal :=
  s.run (fun m => if (m.port port.val).running then m.portBasic port.val seen else m.linksBack port.val seen)

/-- COMMAND_WINDOW (R184): of a matrix port that sends commands. -/
def execCommandWindow (port : Fin 16) (index : Nat) (s : State) : Host.Outcome State Fault Refusal :=
  s.run (fun m => if (m.port port.val).running && (m.port port.val).commanding && decide (m.portImg.portMode port.val = 1)
    then m.sendCommand port.val index else m)

/-- POLL_WINDOW (R232): of a poll-mode port. -/
def execPollWindow (port : Fin 16) (index : Nat) (s : State) : Host.Outcome State Fault Refusal :=
  s.run (fun m => if (m.port port.val).running && (m.port port.val).commanding && decide (m.portImg.portMode port.val = 2)
    then m.sendPoll port.val index else m)

/-- INPUT_FRAME (R220, R172). -/
def execInputFrame (port : Fin 16) (link : Link) (rx : RxFrame) (s : State) : Host.Outcome State Fault Refusal :=
  s.run (fun m => (m.receive port.val link rx [3]).1)

/-- INPUT_WINDOW_END (R195). -/
def execInputWindowEnd (port : Fin 16) (index : Nat) (snoopFailed : BitVec 3) (s : State) : Host.Outcome State Fault Refusal :=
  s.run (fun m => if (m.port port.val).running && m.portImg.hasNode port.val index then m.windowEnd port.val index snoopFailed
    else m)

/-! ### Events, diagnostic and maintenance traffic (R188) -/

/-- The records of an EVENT payload: object, code, node time, parameter. -/
def eventEntries : Nat → List Byte → List (Nat × Nat × Nat × Nat)
  | 0, _ => []
  | n + 1, l => (ofBe (l.take 2) % 2 ^ 14, ofBe ((l.drop 2).take 2), ofBe ((l.drop 4).take 8), ofBe ((l.drop 12).take 4)) ::
      eventEntries n (l.drop 16)

/-- A node's events enter the records of the lanes for which `p` holds (R188, R389). -/
def Mach.nodeEvents (m : Mach) (p : LaneId → Bool) (a : Nat) (pay : List Byte) : Mach :=
  let es := eventEntries (pay.length / 16) pay
  let cl := m.sys.cluster % 2 ^ 32
  laneIds.foldl (fun (n : Mach) l => if p l && decide ((n.lane l).role ≠ .excluded) then n.updLane l (fun x => es.foldl (fun (y : Lane) e =>
    y.addEventAt m.nowNs ⟨0x8000, e.2.2.1, a * 2 ^ 16 + e.1, e.2.1, e.2.2.2, cl, false, false⟩) x) else n) m

/-- EVENT_FRAME. A lane whose port snoop fails takes a lost marker for it (R367). -/
def Mach.eventFrame (m : Mach) (p : Nat) (link : Link) (rx : SnoopedFrame) : Mach :=
  match m.receive p link rx.frame [4] with
  | (m, some (h, pay)) =>
    let failed := fun (l : LaneId) => bitOf rx.snoopFailed.toNat (laneIx l)
    (((m.wrapPh F.PHB_PRESENTED_COUNT).nodeEvents (fun l => !failed l) h.source pay).lostMarker failed h.source).portFails p failed
  | (m, none) => m

def execEventFrame (port : Fin 16) (link : Link) (rx : SnoopedFrame) (s : State) : Host.Outcome State Fault Refusal :=
  s.run (fun m => m.eventFrame port.val link rx)

/-- A frame of a node that the Service Controller is handed unchanged. -/
def Mach.forwardFrame (m : Mach) (p : Nat) (link : Link) (rx : RxFrame) (type : Nat) : Mach :=
  match m.receive p link rx [type] with
  | (m, some (_, pay)) => m.emit (.forwarded p pay)
  | (m, none) => m

/-- A frame of the Service Controller for a node waits for a grant of its class. -/
def Mach.passToNode (m : Mach) (p cls type index : Nat) (pay : List Byte) : Mach :=
  if (m.port p).running && decide (m.portImg.portMode p = 1) && m.portImg.hasNode p index && decide (pay.length ≤ 2048)
  then m.queueOwn p cls (nodeAddr p index) type pay else m

/-- DIAG_FRAME. -/
def execDiagFrame (port : Fin 16) (p : Passage) (s : State) : Host.Outcome State Fault Refusal :=
  s.run (fun m => match p with
    | .fromNode link rx => m.forwardFrame port.val link rx 5
    | .toNode index pay => m.passToNode port.val 2 5 index pay)

/-- MAINT_FRAME. -/
def execMaintFrame (port : Fin 16) (p : Passage) (s : State) : Host.Outcome State Fault Refusal :=
  s.run (fun m => match p with
    | .fromNode link rx => m.forwardFrame port.val link rx 6
    | .toNode index pay => m.passToNode port.val 3 6 index pay)

/-! ### Joining and leaving (R198 to R200) -/

/-- A JOIN_GRANT waits for a class 4 grant; what it carries is formed when it leaves. -/
def joinGrantLen : Nat := 76

/-- JOIN_REQUEST: checked as it arrives; the RESULT waits with the grant. -/
def Mach.joinRequest (m : Mach) (p : Nat) (link : Link) (rx : RxFrame) : Mach :=
  match m.receive p link rx [7] with
  | (m, some (h, pay)) =>
    let r := m.joinResult p (nodeIndex h.source) pay
    (m.updNode h.source (fun n => { n with request := some (be 1 r) })).queueOwn p 4 h.source 8 (List.replicate joinGrantLen 0)
  | (m, none) => m

def execJoinRequest (port : Fin 16) (link : Link) (rx : RxFrame) (s : State) : Host.Outcome State Fault Refusal :=
  s.run (fun m => m.joinRequest port.val link rx)

/-- A frame of the module of a type that waits for its own class 4 grant, with the grant that stands for it: the grant's
START, and the port without the two. -/
def Mach.takeOwn (m : Mach) (p dest type len : Nat) : Option (Nat × List Byte × Mach) :=
  let q := m.port p
  match q.own.find? (fun e => decide (e.1 = 4) && decide (e.2.1 = dest) && decide (e.2.2.1 = type)),
        q.grants.find? (fun (g : Grant) => decide (g.node = 0) && decide (g.cls = 4) && decide (g.len = frameUnits len)) with
  | some e, some g => some (g.start, e.2.2.2, m.updPort p (fun q => { q with own := q.own.erase e, grants := q.grants.erase g }))
  | _, _ => none

/-- JOIN_GRANT: a node whose RESULT is 0 is JOINING, and counts from the admission cluster. -/
def Mach.joinGrant (m : Mach) (p idx : Nat) : Mach :=
  let a := nodeAddr p idx
  match (m.node a).request, m.takeOwn p a 8 joinGrantLen with
  | some r, some (start, _, m) =>
    let res := ofBe r
    let m := m.sendFrame p 8 false a (m.cycleStart p + 8 * start) (m.grantPayload p idx res)
    let m := m.updNode a (fun n => { n with request := none, result := res })
    if res ≠ 0 ∨ (m.comm a).state ≠ 2 then m.portRegs p
    else
      let m := m.updNode a (fun n => { n with entry := some (m.sys.cluster + 2) })
      (m.updComm everyLane a (fun c => { c with state := 3, lost := 0, restore := 0 })).portRegs p
  | _, _ => m

def execJoinGrant (port : Fin 16) (index : Nat) (s : State) : Host.Outcome State Fault Refusal :=
  s.run (fun m => m.joinGrant port.val index)

/-- NODE_LEAVE_FRAME: ABSENT at the next cluster boundary. -/
def Mach.leaveFrame (m : Mach) (p : Nat) (link : Link) (rx : RxFrame) : Mach :=
  match m.receive p link rx [9] with
  | (m, some (h, _)) => m.updNode h.source (fun n => { n with leaving := true })
  | (m, none) => m

def execNodeLeaveFrame (port : Fin 16) (link : Link) (rx : RxFrame) (s : State) : Host.Outcome State Fault Refusal :=
  s.run (fun m => m.leaveFrame port.val link rx)

/-- NODE_ADMITTED (R195): at the admission boundary. Its first frame from here is accepted whatever its SEQUENCE (R171). -/
def Mach.nodeAdmitted (m : Mach) (a : Nat) : Mach :=
  match (m.node a).entry with
  | some c => if (m.comm a).state = 3 ∧ c ≤ m.sys.cluster then
      ((m.updNode a (fun n => { n with entry := none, seq := none })).toLost a).portRegs (nodePort a) else m
  | none => m

def execNodeAdmitted (port : Fin 16) (index : Nat) (s : State) : Host.Outcome State Fault Refusal :=
  s.run (fun m => m.nodeAdmitted (nodeAddr port.val index))

/-! ### Communication states (R195) -/

/-- A change of a node's state in each lane whose own state calls for it; the Port Hub's interrupt follows the lead lane. -/
def Mach.commChange (m : Mach) (a : Nat) (due : NodeComm → Bool) (f : NodeComm → NodeComm) (int : Nat) : Mach :=
  let lead := due (m.comm a)
  let m := m.updComm everyLane a (fun c => if due c then f c else c)
  if lead then (m.raisePh (.ttp (Fin.ofNat 16 (nodePort a))) int).portRegs (nodePort a) else m

/-- NODE_LOST. -/
def Mach.nodeLost (m : Mach) (a : Nat) : Mach :=
  m.commChange a (fun c => decide (c.state = 0) && decide (m.portImg.lossLimit (nodePort a) ≤ c.lost))
    (fun c => { c with state := 1, since := m.sys.cluster }) I.TTP_NODE_LOST

def execNodeLost (port : Fin 16) (index : Nat) (s : State) : Host.Outcome State Fault Refusal :=
  s.run (fun m => m.nodeLost (nodeAddr port.val index))

/-- NODE_RESTORED. -/
def Mach.nodeRestored (m : Mach) (a : Nat) : Mach :=
  m.commChange a (fun c => decide (c.state = 1) && decide (m.portImg.restoreCount (nodePort a) ≤ c.restore))
    (fun c => { c with state := 0 }) I.TTP_NODE_JOINED

def execNodeRestored (port : Fin 16) (index : Nat) (s : State) : Host.Outcome State Fault Refusal :=
  s.run (fun m => m.nodeRestored (nodeAddr port.val index))

/-- NODE_LEFT: LEAVE_LIMIT clusters without an accepted frame, by each lane's own count; the Port Hub's side follows the lead lane. -/
def Mach.nodeLeft (m : Mach) (a : Nat) : Mach :=
  let due := fun (c : NodeComm) => decide (c.state = 1) && decide (c.since + m.portImg.leaveLimit (nodePort a) ≤ m.sys.cluster)
  if due (m.comm a) then m.setAbsentIf due a
  else m.updComm everyLane a (fun c => if due c then { c with state := 2, lost := 0, restore := 0 } else c)

def execNodeLeft (port : Fin 16) (index : Nat) (s : State) : Host.Outcome State Fault Refusal :=
  s.run (fun m => m.nodeLeft (nodeAddr port.val index))

/-- QUARANTINE_HOLD_EXPIRY (R224). -/
def Mach.quarExpiry (m : Mach) (a : Nat) : Mach :=
  let n := m.node a
  if n.quarantined && !n.held && decide (n.quarAt + m.ph.regs.fld F.STG_QUAR_CFG_HOLD ≤ m.sys.cluster) then m.setAbsent a else m

def execQuarantineHoldExpiry (port : Fin 16) (index : Nat) (s : State) : Host.Outcome State Fault Refusal :=
  s.run (fun m => m.quarExpiry (nodeAddr port.val index))

/-! ### Poll-mode nodes (R235, R236) -/

/-- POLL_REPLY. -/
def execPollReply (port : Fin 16) (link : Link) (rx : RxFrame) (s : State) : Host.Outcome State Fault Refusal :=
  s.run (fun m => (m.receive port.val link rx [12]).1)

/-- POLL_LINK_SWITCH: two consecutive port basic cycles without an accepted reply. -/
def Mach.pollSwitch (m : Mach) (p idx : Nat) : Mach :=
  let a := nodeAddr p idx
  if m.portImg.portMode p = 2 ∧ 2 ≤ (m.node a).silent then
    (m.updNode a (fun n => { n with pollWest := !n.pollWest, silent := 0 })).portRegs p
  else m

def execPollLinkSwitch (port : Fin 16) (index : Nat) (s : State) : Host.Outcome State Fault Refusal :=
  s.run (fun m => m.pollSwitch port.val index)

/-! ### Delay reports and probes (R214 to R216) -/

/-- DELAY_REPORT: KIND 2, passed on as diagnostic traffic. -/
def execDelayReport (port : Fin 16) (link : Link) (rx : RxFrame) (s : State) : Host.Outcome State Fault Refusal :=
  s.run (fun m => m.forwardFrame port.val link rx 10)

/-- A DELAY frame of KIND 1. -/
def delayPayload (seq roundTrip : Nat) : List Byte := be 1 1 ++ be 1 0 ++ be 2 seq ++ be 4 roundTrip ++ be 4 0 ++ be 4 0

/-- STG.PROBE. -/
def Mach.probeReg (m : Mach) (p result node trip : Nat) : Mach :=
  (((m.putPh F.STG_PROBE_RESULT result).putPh F.STG_PROBE_PORT p).putPh F.STG_PROBE_NODE node).putPh F.STG_PROBE_ROUND_TRIP
    (min (trip / 8) 65535)

/-- PROBE_ECHO: the looped copy of this port basic cycle's beacon at `instant` ns after CYCLE_START. -/
def Mach.probeEcho (m : Mach) (p instant : Nat) (crcOk returned : Bool) : Mach :=
  let q := m.port p
  if !q.running || decide (m.portImg.portMode p ≠ 1) then m
  else if q.joinIndex = 0 then m.probeReg p 2 0 0
  else if !crcOk then m.probeReg p 3 q.joinIndex 0
  else if !returned then m.probeReg p 4 q.joinIndex 0
  else
    let seq := moduleSeq m.sys.cluster (m.portImg.perCluster p) q.bc
    (m.probeReg p 1 q.joinIndex instant).queueOwn p 4 (nodeAddr p q.joinIndex) 10 (delayPayload seq instant)

def execProbeEcho (port : Fin 16) (instant : Nat) (crcOk returned : Bool) (s : State) : Host.Outcome State Fault Refusal :=
  s.run (fun m => m.probeEcho port.val instant crcOk returned)

/-- DELAY_SEND: in its class 4 grant. -/
def Mach.delaySend (m : Mach) (p idx : Nat) : Mach :=
  match m.takeOwn p (nodeAddr p idx) 10 16 with
  | some (start, pay, m) => m.sendFrame p 10 false (nodeAddr p idx) (m.cycleStart p + 8 * start) pay
  | none => m

def execDelaySend (port : Fin 16) (index : Nat) (s : State) : Host.Outcome State Fault Refusal :=
  s.run (fun m => m.delaySend port.val index)

/-! ### Rings (R166, R211, R226 to R229) -/

/-- The ring latency measured while the ring is intact. -/
def Mach.noteLatency (m : Mach) (p l : Nat) : Mach :=
  let m := m.updPort p (fun q => { q with measured := l, missed := 0, returned := true,
                                          maxL := if q.started ≤ 16 then max q.maxL l else q.maxL })
  m.putPh (F.TTP_RING_LATENCY_MEASURED_NS p) (min l 65535)

/-- The return deadline of R226, from CYCLE_START: the beacon window's LENGTH stands for the beacon's. -/
def Mach.returnDeadline (m : Mach) (p : Nat) : Nat :=
  let q := m.port p
  let len := match (m.portImg.windowsIn p q.sched q.bc).find? (fun (w : Win) => decide (w.kind = 1)) with
    | some w => w.len
    | none => 0
  m.portImg.ringMax p * 1000 + 8 * len + 1000

/-- A copy whose first bit came `l` ns after CYCLE_START has passed its CRC by the deadline. -/
def Mach.inTime (m : Mach) (p l : Nat) : Bool :=
  decide (l + 8 * (29 + (m.beaconPayload p).length) ≤ m.returnDeadline p)

/-- A missing return: the port heals from here (R227), and is split by an echo or by a second missing return in a row. -/
def Mach.returnMissing (m : Mach) (p : Nat) (echo : Bool) : Mach :=
  let missed := (m.port p).missed + 1
  let m := (m.updPort p (fun q => { q with missed := missed, returned := false })).ringHealing p
  if echo then m.ringSplit p 2 else if 2 ≤ missed then m.ringSplit p 3 else m

/-- RING_RETURN_CHECK: sync, the beacon's return (the latency of its copy in ns) and whether an echo arrived by the deadline. A
copy after the deadline is measured (R211) and missing. -/
def Mach.ringCheck (m : Mach) (p : Nat) (latency : Option Nat) (echo : Bool) : Mach :=
  let q := m.port p
  if !q.running || decide (m.portImg.portMode p ≠ 1) || q.split || !(q.eastUp || q.westUp) then m
  else if !(q.eastUp && q.westUp) then (m.ringHealing p).ringSplit p 1
  else
    match latency with
    | some l =>
      let missed := q.missed
      let back := m.inTime p l
      let m := m.noteLatency p l
      if back then
        let m := m.updPort p (fun q => { q with healing := false })
        (if echo && decide (q.joinIndex = 0) then m.probeReg p 2 0 0 else m).portRegs p
      else (m.updPort p (fun q => { q with missed := missed })).returnMissing p echo
    | none => m.returnMissing p echo

def execRingReturnCheck (port : Fin 16) (latency : Option Nat) (echo : Bool) (s : State) : Host.Outcome State Fault Refusal :=
  s.run (fun m => m.ringCheck port.val latency echo)

/-- Every node of a port that is IN_COMM is lost. -/
def Mach.nodesLost (m : Mach) (p : Nat) : Mach :=
  (m.nodesOf p).foldl (fun (m : Mach) k => if (m.comm (nodeAddr p k)).state = 0 then m.toLost (nodeAddr p k) else m) m

/-- LINK_SYNC_LOSS: one link down splits an intact ring; with both down every node is lost and the ring is not split. -/
def Mach.linkDown (m : Mach) (p : Nat) (link : Link) : Mach :=
  let m := m.updPort p (fun q => match link with
    | .east => { q with eastUp := false, good := 0 }
    | .west => { q with westUp := false, good := 0 })
  let m := ((m.raisePh (.ttp (Fin.ofNat 16 p)) I.TTP_LINK).raisePh .phb I.PHB_LINK_DOWN).portRegs p
  let q := m.port p
  if !q.running || decide (m.portImg.portMode p ≠ 1) then m
  else if !q.eastUp && !q.westUp then 
    ((m.updPort p (fun q => { q with split := false, healing := false, both := false, missed := 0, splitDue := 0 })).nodesLost p).portRegs p
  else if q.split then m
  else (m.ringHealing p).ringSplit p 1

def execLinkSyncLoss (port : Fin 16) (link : Link) (s : State) : Host.Outcome State Fault Refusal :=
  s.run (fun m => m.linkDown port.val link)

/-- RING_RESTORED (R229). -/
def execRingRestored (x : RingEnd) (s : State) : Host.Outcome State Fault Refusal :=
  s.run (fun m => if m.sys.boundary then m.ringRestored x.port.val x.seen else m)

/-- PORT_LATENCY_CHECK (R166, R211): after 16 port basic cycles the port is refused, or offers joins. -/
def Mach.latencyCheck (m : Mach) (p : Nat) : Mach :=
  let q := m.port p
  let limit := m.portImg.ringMax p * 1000
  if !q.running || q.checked || decide (q.started < 16) then m
  else if limit < q.maxL then
    let m := m.updPort p (fun q => { q with running := false, commanding := false, refused := true, announcing := false,
                                             decided := none, target := 0, grants := [], own := [] })
    (((m.endAnnounce p).raisePh (.ttp (Fin.ofNat 16 p)) I.TTP_LINK).record 0x4001 p q.maxL limit 0).portRegs p
  else m.updPort p (fun q => { q with checked := true })

def execPortLatencyCheck (port : Fin 16) (s : State) : Host.Outcome State Fault Refusal :=
  s.run (fun m => m.latencyCheck port.val)

/-! ### SCHED_DECISION (R203) -/

/-- In the last port basic cycle of cluster c + 2. -/
def execSchedDecision (port : Fin 16) (s : State) : Host.Outcome State Fault Refusal :=
  s.run (fun m => if (m.port port.val).running then m.schedDecide port.val else m)

end Sys2Proof.Machine
end

