-- ==== Sys2Proof/Machine/HostReads.lean ====
section
/-!
DEFINITION. Machine/HostReads.lean: reads of the host through BAR0 and the windows of BAR2 (R344 to R347, R352, R353, R418): the bytes
they return, and why they fail.
-/
namespace Sys2Proof.Machine

/-- Byte `k` of a register: bit 0 lies in the byte at the lowest address (R344). -/
def wordByte (w : W32) (k : Nat) : Byte := BitVec.ofNat 8 (w.toNat / 256 ^ k)

/-- A register of the Service Controller's pages as the host reads it, completion slots among them (R350). -/
def Mach.ctlRead (m : Mach) (b : Blk) (off : Nat) : W32 :=
  let done := fun (slot half : Nat) => BitVec.ofNat 32 ((Store.get noDone m.sc.done slot).toNat / 2 ^ (32 * half))
  if b = .mbx ∧ 0x40 ≤ off ∧ off < 0x140 ∧ 0x8 ≤ off % 0x20 ∧ off % 0x20 < 0x10 then done ((off - 0x40) / 0x20) (off % 0x20 / 4 - 2)
  else if b = .hbr ∧ 0xC0 ≤ off ∧ off < 0xE0 then done (9 + (off - 0xC0) / 4) 0
  else if b = .hbr ∧ off = 0xE4 then done 8 0
  else m.readReg b .a off

/-- A register as the host reads it; `guard`: within the 2 µs before a cluster boundary, which SHADOW_CTRL shows (R415). -/
def Mach.hostReg (m : Mach) (b : Blk) (l : LaneId) (off : Nat) (guard : Bool) : W32 :=
  let v := if blkHome b = .ctl then m.ctlRead b off else m.readReg b l off
  if guard && decide (off = 0x2C) && hasShadow b then v ||| 4 else v

/-- The 32-bit word at an offset of BAR0 (R344): registers, SYS views, the MSI-X table and its pending bits; reserved offsets read zero. -/
def Mach.bar0Word (m : Mach) (off : Nat) (guard : Bool) : W32 :=
  match bar0Page off with
  | some b => m.hostReg b .a (off % 0x1000) guard
  | none =>
    if 0x4000 ≤ off ∧ off < 0x7000 then m.hostReg .sys (laneOf (off / 0x1000 - 4)) (off % 0x1000) guard
    else if 0x7000 ≤ off ∧ off < 0x7200 then Store.get msixDword m.msi.table ((off - 0x7000) / 4)
    else if off = 0x7800 then m.msi.pend
    else 0

/-- The lane answers a read: it is powered, not isolated, and its host link is up (R352, cause 1). -/
def Mach.answers (m : Mach) (l : LaneId) : Bool := decide (2 ≤ m.sys.mode) && !m.laneTested l && (m.lane l).hostLink

def Mach.bar0Bytes (m : Mach) (off len : Nat) (guard : Bool) : List Byte :=
  (List.range len).map (fun k => wordByte (m.bar0Word ((off + k) / 4 * 4) guard) ((off + k) % 4))

/-- Why a read of BAR0 fails: it touches the SYS view of a lane that does not answer. -/
def Mach.bar0Fails (m : Mach) (off len : Nat) : Option Nat :=
  if laneIds.any (fun l => overlap off len (0x4000 + 0x1000 * laneIx l) 0x1000 && !m.answers l) then some 1 else none

/-- What a register of counter, module time or BASE returns at the instant of a read through a window, which latches nothing (R346):
a LO register its value as it stands, a HI register too in an aligned 8-byte read, else what the last latching read left in it (R258). -/
def Lane.timeRead (x : Lane) (b : Blk) (off : Nat) (wide : Bool) : Option W32 :=
  let half := fun (v k : Nat) => if k = 0 ∨ wide then some (BitVec.ofNat 32 (v / 2 ^ (32 * k))) else none
  if b ≠ .tsu then none
  else match off with
    | 0x40 => half x.time.count 0
    | 0x44 => half x.time.count 1
    | 0x48 => half (x.time.at x.time.count) 0
    | 0x4C => half (x.time.at x.time.count) 1
    | 0x50 => half x.time.base 0
    | 0x54 => half x.time.base 1
    | _ => none

/-- The byte at an offset of what a window maps to (R345, R346); `wide`: an aligned 8-byte read. -/
def Mach.windowTarget (m : Mach) (n t : Nat) (guard wide : Bool) : Byte :=
  let l := laneOf (m.sc.regs.fld (F.HBR_WIN_CFGn_LANE n))
  let a := m.windowBase n + t
  match m.sc.regs.fld (F.HBR_WIN_CFGn_TARGET n) with
  | 1 => wordByte (m.hostReg .mbx .a (t / 4 * 4) guard) (t % 4)
  | 2 => if a < 0x200000000 then (m.lane l).dramByte a else (m.lane l).sramByte (a - 0x200000000)
  | 3 => match pageOf (0x40000000 + t) with
    | some b =>
      let o := t % 0x1000 / 4 * 4
      wordByte (((m.lane l).timeRead b o wide).getD (m.hostReg b l o guard)) (t % 4)
    | none => 0
  | 4 => m.sc.dram.byte a
  | _ => 0

/-- An offset of a window lies outside its target. -/
def Mach.windowOutside (m : Mach) (n t : Nat) : Bool :=
  let a := m.windowBase n + t
  match m.sc.regs.fld (F.HBR_WIN_CFGn_TARGET n) with
  | 1 => decide (0x1000 ≤ t)
  | 2 => decide (0x200800000 ≤ a)
  | 3 => decide (0x30000 ≤ t)
  | _ => decide (a < 0x20000000) || decide (0x80000000 ≤ a)

/-- The target offsets of a read of a window, in the order of the host's bytes (R347). -/
def Mach.windowOffsets (m : Mach) (n off len : Nat) : List Nat :=
  (List.range len).map (fun k => windowByte (m.sc.regs.fld (F.HBR_WIN_CFGn_ORDER n)) (wordSize len) (off + k))

/-- The read touches registers of a Port Hub under test, whose links carry nothing (R304; assumption 139). -/
def Mach.hubDark (m : Mach) (n off len : Nat) : Bool :=
  m.hubTested && (m.windowOffsets n off len).any (fun t => ((pageOf (0x40000000 + t)).map (fun b => blkHome b == .hub)).getD false)

/-- Why a read of a window fails (R352): 4 OFF, 5 alignment, 3 outside the target, 1 the lane, or the Port Hub behind it, does not
answer. -/
def Mach.bar2Fails (m : Mach) (n off len : Nat) : Option Nat :=
  let r := m.sc.regs
  let t := r.fld (F.HBR_WIN_CFGn_TARGET n)
  if r.fld (F.HBR_WIN_CFGn_ENABLE n) = 0 ∨ t = 0 then some 4
  else if misaligned (r.fld (F.HBR_WIN_CFGn_ORDER n)) off len then some 5
  else if (m.windowOffsets n off len).any (m.windowOutside n) then some 3
  else if (t = 2 ∨ t = 3) ∧ !m.answers (laneOf (r.fld (F.HBR_WIN_CFGn_LANE n))) then some 1
  else if t = 3 ∧ m.hubDark n off len then some 1
  else none

def Mach.bar2Bytes (m : Mach) (n off len : Nat) (guard : Bool) : List Byte :=
  let wide := decide (len = 8) && decide (off % 8 = 0)
  (m.windowOffsets n off len).map (fun t => m.windowTarget n t guard wide)

/-- What a read at a BAR offset meets, and what it returns. -/
def Mach.readFails (m : Mach) (bar2 : Bool) (off len : Nat) : Option Nat :=
  if bar2 then m.bar2Fails (off / 0x2000000) (off % 0x2000000) len else m.bar0Fails off len
def Mach.readBytes (m : Mach) (bar2 : Bool) (off len : Nat) (guard : Bool) : List Byte :=
  if bar2 then m.bar2Bytes (off / 0x2000000) (off % 0x2000000) len guard else m.bar0Bytes off len guard

/-- The mailbox whose MBX.RESULT_LOn one aligned 4-byte read of BAR0 names (R73). -/
def resultMailbox (bar2 : Bool) (off len : Nat) : Option Nat :=
  (List.range 8).find? (fun n => !bar2 && decide (len = 4) && decide (off = 0x3054 + 0x20 * n))

/-- A read of the host: it fails with the cause it meets or, from outside, with 1 or 2; else it has the effect of R73 or is refused under
R353, and a read without a side effect returns its bytes. -/
def Mach.hostRead (m : Mach) (bar2 : Bool) (off len cause : Nat) (guard : Bool) : Mach :=
  match m.readFails bar2 off len with
  | some c => m.failedAccess (some len) bar2 off c
  | none =>
    if cause = 1 ∨ cause = 2 then m.failedAccess (some len) bar2 off cause
    else if !bar2 && sideRead off len then m.prefetchRefused off len
    else match resultMailbox bar2 off len with
      | some n => m.resultRead n
      | none => m.emit (.readData (m.readBytes bar2 off len guard))

end Sys2Proof.Machine
end

