-- ==== Sys2Proof/Machine/Requests.lean ====
section
/-!
DEFINITION. Machine/Requests.lean: the request rows of the mailboxes (chapter 3), the reads of completion slots and results,
and the accesses that fail (chapter 12).
-/
namespace Sys2Proof.Machine

/-- SET_ROUTE (R94): written to a mailbox and accepted into the queues, or refused. -/
def execSetRoute (mb : Fin 8) (word : W64) (silent : BitVec 3) (s : State) : Host.Outcome State Fault Refusal :=
  s.run (fun m => m.request mb.val word silent)

/-- CANCEL_ROUTE (R108): written to a mailbox and accepted into the queues, or refused. -/
def execCancelRoute (mb : Fin 8) (word : W64) (silent : BitVec 3) (s : State) : Host.Outcome State Fault Refusal :=
  s.run (fun m => m.request mb.val word silent)

/-- THROW_POINT (R109): written to a mailbox and accepted into the queues, or refused. -/
def execThrowPoint (mb : Fin 8) (word : W64) (silent : BitVec 3) (s : State) : Host.Outcome State Fault Refusal :=
  s.run (fun m => m.request mb.val word silent)

/-- WITHDRAW (R111): written to a mailbox and accepted into the queues, or refused. -/
def execWithdraw (mb : Fin 8) (word : W64) (silent : BitVec 3) (s : State) : Host.Outcome State Fault Refusal :=
  s.run (fun m => m.request mb.val word silent)

/-- RESTRICT_OBJECT (R78): written to a mailbox and accepted into the queues, or refused. -/
def execRestrictObject (mb : Fin 8) (word : W64) (silent : BitVec 3) (s : State) : Host.Outcome State Fault Refusal :=
  s.run (fun m => m.request mb.val word silent)

/-- RESTRICT_AREA (R78): written to a mailbox and accepted into the queues, or refused. -/
def execRestrictArea (mb : Fin 8) (word : W64) (silent : BitVec 3) (s : State) : Host.Outcome State Fault Refusal :=
  s.run (fun m => m.request mb.val word silent)

/-- RESTRICT_ALL (R78): written to a mailbox and accepted into the queues, or refused. -/
def execRestrictAll (mb : Fin 8) (word : W64) (silent : BitVec 3) (s : State) : Host.Outcome State Fault Refusal :=
  s.run (fun m => m.request mb.val word silent)

/-- LIFT_OBJECT (R110): written to a mailbox and accepted into the queues, or refused. -/
def execLiftObject (mb : Fin 8) (word : W64) (silent : BitVec 3) (s : State) : Host.Outcome State Fault Refusal :=
  s.run (fun m => m.request mb.val word silent)

/-- LIFT_AREA (R110): written to a mailbox and accepted into the queues, or refused. -/
def execLiftArea (mb : Fin 8) (word : W64) (silent : BitVec 3) (s : State) : Host.Outcome State Fault Refusal :=
  s.run (fun m => m.request mb.val word silent)

/-- LIFT_ALL (R110): written to a mailbox and accepted into the queues, or refused. -/
def execLiftAll (mb : Fin 8) (word : W64) (silent : BitVec 3) (s : State) : Host.Outcome State Fault Refusal :=
  s.run (fun m => m.request mb.val word silent)

/-- COMPLETION_SLOT_READ (R350): the answer of the command write before it. -/
def execCompletionSlotRead (slot : CompSlot) (s : State) : Host.Outcome State Fault Refusal :=
  s.run (fun m => m.emit (.completion (Store.get noDone m.sc.done (slotIx slot)).toNat))

/-- RESULT_LO_READ (R73). -/
def execResultLoRead (mb : Fin 8) (s : State) : Host.Outcome State Fault Refusal := s.run (fun m => m.resultRead mb.val)

/-- PREFETCH_REFUSED (R353): nothing is removed. -/
def execPrefetchRefused (offset : W16) (len : Nat) (s : State) : Host.Outcome State Fault Refusal :=
  s.run (fun m => if sideRead offset.toNat len then m.prefetchRefused offset.toNat len else m)

/-- RESULT_PLACED (R81). -/
def execResultPlaced (s : State) : Host.Outcome State Fault Refusal := s.run Mach.resultPlaced

/-- FAILED_ACCESS (R352): of a read the cause is judged, but for 1 and 2 that come from outside; a posted write has the cause given,
which REGISTER_WRITE judges for a write that may succeed (assumption 125). -/
def execFailedAccess (access : HostAccess) (bar2 : Bool) (offset : BitVec 28) (cause : BitVec 4) (s : State) :
    Host.Outcome State Fault Refusal :=
  s.run (fun m => match access with
    | .read len guard => m.hostRead bar2 offset.toNat len.toNat cause.toNat guard
    | .posted => if cause = 0 then m else m.failedAccess none bar2 offset.toNat cause.toNat)

/-- UNSUPPORTED_ATOMIC (R349): completed as Unsupported Request and counted. -/
def execUnsupportedAtomic (offset : W32) (s : State) : Host.Outcome State Fault Refusal :=
  s.run (fun m => m.unsupported offset.toNat)

/-- PCIE_LINK_DOWN (R357): the link goes down and trains again. -/
def execPcieLinkDown (s : State) : Host.Outcome State Fault Refusal := s.run Mach.hostLinkDown

end Sys2Proof.Machine
end

