-- ==== Sys2Proof/Machine/Time.lean ====
section
/-!
DEFINITION. Machine/Time.lean: the commands of the timebase and of PTP (chapter 8).
-/
namespace Sys2Proof.Machine

/-! ### Lane time and the latching reads -/

/-- LANE_TIME_MESSAGE (R244, R245): lane `x` has the stamps `a` and `b` of its message and of lane `y`'s, for the mark with
nominal time `n`. -/
def execLaneTimeMessage (x y : LaneId) (a b n : Int) (s : State) : Host.Outcome State Fault Refusal :=
  s.run (fun m => m.timeMessage x y a b n)

/-- A LO and HI pair of one lane. -/
def Regs.put64 (r : Regs) (lo hi : Field) (v : Nat) : Regs := (r.put lo v).put hi (v / 2 ^ 32)

/-- What a latching read of a lane leaves in its registers (R258, R239). -/
def Lane.latchRead (which : TsuLatch) (x : Lane) : Lane :=
  let t := x.time
  let c := t.count
  match which with
  | .countLo => { x with regs := x.regs.put64 F.TSU_COUNT_LO_COUNT F.TSU_COUNT_HI_COUNT c }
  | .timeLo => { x with regs := x.regs.put64 F.TSU_TIME_LO_TIME F.TSU_TIME_HI_TIME (t.at c) }
  | .baseLo =>
    { x with regs := ((((x.regs.put64 F.TSU_BASE_LO_BASE F.TSU_BASE_HI_BASE t.base).put64 F.TSU_CREF_LO_CREF F.TSU_CREF_HI_CREF
      t.cref).put F.TSU_RATE_FRAC_FRAC t.rate).put F.TSU_RATE_INT_INT (t.rate / 2 ^ 32)) }

/-- TSU_LATCHING_READ (R258); `ticks` of the counter have passed since it was last seen, at a mark or a read (R238). -/
def execTsuLatchingRead (l : LaneId) (which : TsuLatch) (ticks : Nat) (s : State) : Host.Outcome State Fault Refusal :=
  s.run (fun m => (m.countTicks ticks).updLane l (Lane.latchRead which))

/-! ### PTP -/

/-- PTP_SYNC (R251, R248): a Sync of the network's master and its timestamps. -/
def execPtpSync (n : Net) (t1 t2 : Int) (s : State) : Host.Outcome State Fault Refusal := s.run (fun m => m.ptpSync n t1 t2)

/-- PTP_ANNOUNCE (R250, R252). -/
def execPtpAnnounce (n : Net) (ds : PtpDataset) (s : State) : Host.Outcome State Fault Refusal :=
  s.run (fun m => m.ptpAnnounce n ds)

/-- PTP_DELAY_RESP (R251): an exchange with its four timestamps. -/
def execPtpDelayResp (n : Net) (t1 t2 t3 t4 : Int) (s : State) : Host.Outcome State Fault Refusal :=
  s.run (fun m => m.ptpDelay n t1 t2 t3 t4)

/-- PTP_SYNC_TIMEOUT (R253): LOCKED to a master, four Sync intervals without an accepted Sync. -/
def Mach.syncTimeout (m : Mach) : Mach :=
  if m.fld F.TSU_PTP_STATE = 3 ∧ m.fld F.TSU_PTP_NET ≠ 0 then m.ptpTo 4 else m

def execPtpSyncTimeout (s : State) : Host.Outcome State Fault Refusal := s.run Mach.syncTimeout

/-- PTP_ANNOUNCE_TIMEOUT (R253, R250). -/
def execPtpAnnounceTimeout (s : State) : Host.Outcome State Fault Refusal := s.run Mach.announceTimeout

/-- HOLDOVER_LIMIT (R253): the timer reaches MAX_S in HOLDOVER or ACQUIRING. -/
def Mach.holdoverLimit (m : Mach) : Mach :=
  let st := m.fld F.TSU_PTP_STATE
  let limit := m.fld F.TSU_HOLDOVER_CFG_MAX_S * 1000000
  if (st = 4 ∨ st = 2) ∧ m.fld F.TSU_STATUS_HOLDOVER = 1 then
    ({ m with fed := { m.fed with holdUs := max m.fed.holdUs limit } } : Mach).ptpTo 5
  else m

def execHoldoverLimit (s : State) : Host.Outcome State Fault Refusal := s.run Mach.holdoverLimit

/-- What a master sends, by the trace's code. -/
def ptpWhat : PtpSend → Nat
  | .syncFollowUp => 1
  | .announce => 2

/-- PTP_MASTER_SEND (R250): two-step Sync with Follow_Up, or Announce, on a network on which the module is master. -/
def execPtpMasterSend (n : Net) (what : PtpSend) (s : State) : Host.Outcome State Fault Refusal :=
  s.run (fun m => if m.netOn n && (m.ptp n).isMaster then m.emit (.ptp n (ptpWhat what)) else m)

/-- PTP_DELAY_REQ_SEND (R250, R251): whether or not the network is selected. -/
def execPtpDelayReqSend (n : Net) (s : State) : Host.Outcome State Fault Refusal :=
  s.run (fun m => if m.netOn n && !(m.ptp n).isMaster && (m.ptp n).master.isSome then m.emit (.ptp n 3) else m)

end Sys2Proof.Machine
end

