-- ==== Sys2Proof/Machine/Vote.lean ====
section
/-!
DEFINITION. Machine/Vote.lean: the commands of the vote (chapter 5): the output and image windows, the Port Hub's frame
assembly, the enactment of exclusions, the scans of the working tables and the image, the self-fault conditions of R151 and
R321, and the degraded limit.
-/
namespace Sys2Proof.Machine

/-- Marks exist: in every mode from PROVING on, UPDATE among them (R452). -/
def Mach.voting (m : Mach) : Bool := m.sys.originAgreed && !m.sys.preOrigin && decide (5 ≤ m.sys.mode)

/-- OUTPUT_WINDOW_COMPARE (R147). -/
def execOutputWindowCompare (x : Exchange) (s : State) : Host.Outcome State Fault Refusal :=
  s.run (fun m => if m.voting then m.window 1 x else m)

/-- IMAGE_WINDOW_COMPARE (R147): in basic cycle 0, of the scan that started in basic cycle 14. -/
def Mach.imageWindow (m : Mach) (x : Exchange) : Mach :=
  if m.voting && decide (m.sys.bc = 0) && m.leadLane.scanned then
    (m.window 3 x).mapLanes (fun x => { x with scanned := false })
  else m

def execImageWindowCompare (x : Exchange) (s : State) : Host.Outcome State Fault Refusal :=
  s.run (fun m => m.imageWindow x)

/-! ### Enactment (R152, R153, R155) -/

/-- The code slot of a lane in a frame's codes becomes the fill (R152, R190). -/
def fillSlot (ix : Nat) : Nat → List W32 → List W32
  | _, [] => []
  | k, c :: t => (if k % 3 = ix then 0 else c) :: fillSlot ix (k + 1) t

/-- The Port Hub fills the slot of an excluded lane in every frame it has formed. Where the differing payloads bring SAFE_HALT, the frames
they stand in go with the codes they were formed with (R14, R155). -/
def Mach.blankCodes (m : Mach) (l : LaneId) : Mach :=
  let asFormed := fun (k : Nat) => decide (m.sys.mode = 14) && m.ph.split.contains k
  { m with ph := ({ m.ph with frames := (m.ph.frames.map (fun e =>
      if asFormed e.1 then e
      else (e.1, e.2.map (fun (f : List Byte × Nat × List W32) => (f.1, f.2.1, fillSlot (laneIx l) 0 f.2.2))))) }) }

/-- The Port Hub's registers of the lanes it takes and fills. -/
def Mach.hubLanes (m : Mach) (taken : Nat) : Mach :=
  ((m.putPh F.PHB_LANES_TAKEN taken).putPh F.PHB_LANES_FILLED (7 - taken)).putPh F.PHB_STATUS_FILLING (b2n (taken ≠ 7))

/-- The joining lane's renewed exclusion, where one is decided: Darn has failed (R160). -/
def Mach.enactJoiner (m : Mach) (ex : List (LaneId × Nat × Nat)) : Mach :=
  match ex.find? (fun e => decide ((m.lane e.1).role = .joining)) with
  | some e => m.darnFail false e.2.2
  | none => m

/-- EXCLUSION_ENACTED: a SAFE_HALT due comes first (R14, R155, R294), then each exclusion with its consequence. -/
def Mach.enactExclusions (m : Mach) : Mach :=
  let ex := m.sys.pendingExcl
  let m := m.updSys (fun s => { s with pendingExcl := [] })
  let m := match m.sys.pendingHalt with
    | some c => (m.updSys (fun s => { s with pendingHalt := none })).safeHalt c
    | none => m
  let out := laneIds.filterMap (fun l => if (m.lane l).isServing then ex.find? (fun e => decide (e.1 = l)) else none)
  let m := out.foldl (fun (m : Mach) e => (m.excludeLane e.1 e.2.1 e.2.2).blankCodes e.1) m
  let m := match out with
    | [] => m
    | e :: _ => (m.hubLanes m.servingSet).afterExclusion e.1 e.2.1
  m.enactJoiner ex

def execExclusionEnacted (s : State) : Host.Outcome State Fault Refusal := s.run Mach.enactExclusions

/-! ### PH_FRAME_ASSEMBLY (R14) -/

/-- Hand-offs that came late or failed their lane-link CRC: a late lane counts once, and PHB.ERR_ADDR names the last node whose
payload it would have given. -/
def Mach.handOffs (m : Mach) (late crcFailed : Nat) : Mach :=
  let lates := laneIds.filter (fun l => bitOf late (laneIx l))
  let m := lates.foldl (fun (m : Mach) _ => m.incPh F.PHB_LATE_PAYLOAD_COUNT) m
  let m := match (lates.flatMap (fun l => (m.lane l).staged.map (fun (q : Payload) => q.node))).getLast? with
    | some a => { m with ph := ({ m.ph with regs := m.ph.regs.set (blkBase .phb + 0x24) (BitVec.ofNat 32 a) }) }
    | none => m
  let m := if late = 0 then m else (m.putPh F.PHB_LATE_PAYLOAD_LANES late).raisePh .phb I.PHB_LATE_PAYLOAD
  (laneIds.filter (fun l => bitOf crcFailed (laneIx l))).foldl (fun (m : Mach) _ => m.incPhReg (blkBase .phb + 0x20)) m

/-- The Port Hub forms the frames of the next basic cycle. A lane due for re-admission at the coming boundary is taken. -/
def Mach.assemble (m : Mach) (late crcFailed : Nat) : Mach :=
  if !(m.sys.originAgreed && !m.sys.preOrigin) then m
  else
    let i := m.leadLane.img
    let n := m.sys.cluster * 16 + m.sys.bc + 1
    let due := m.readmitDue
    let counts := fun (l : LaneId) => m.voters.contains l || (due && (m.lane l).probation)
    let taken := fun (l : LaneId) => counts l && !bitOf late (laneIx l) && !bitOf crcFailed (laneIx l)
    let m1 := m.handOffs (laneSet (fun l => counts l && bitOf late (laneIx l)))
      (laneSet (fun l => counts l && bitOf crcFailed (laneIx l)))
    let stale := fun (k : Nat) =>
      let p := nodePort (k % 2048)
      i.startsIn p (n % 16) && decide (k / 2048 = i.frameSlot p (n % 16))
    let m1 := { m1 with ph := { m1.ph with frames := m1.ph.frames.filter (fun e => !stale e.1), split := m1.ph.split.filter (fun k => !stale k) } }
    let nodes := dedup (laneIds.flatMap (fun l => if taken l then (m.lane l).staged.map (fun (q : Payload) => q.node) else []))
    let m1 := nodes.foldl (fun (a : Mach) d => m.assembleNode taken (n / 16) (n % 16) a d) m1
    m1.hubLanes (laneSet taken)

def execPhFrameAssembly (late crcFailed : BitVec 3) (s : State) : Host.Outcome State Fault Refusal :=
  s.run (fun m => m.assemble late.toNat crcFailed.toNat)

/-! ### Scans in service (R67, R141) -/

/-- WORKING_TABLE_RESCAN: 1,024 of the 262,144 blocks. -/
def Mach.rescan (m : Mach) (l : LaneId) (failing : List Nat) : Mach :=
  let x := m.lane l
  if !x.loaded then m
  else
    let pos := x.regs.fld F.VOT_WT_SCAN_POSITION
    let next := (pos + 1024) % 262144
    let here := failing.filter (fun b => decide (pos ≤ b) && decide (b < pos + 1024))
    let m := m.updLane l (fun x => { x with regs :=
      (let r := x.regs.put F.VOT_WT_SCAN_POSITION next
      if next = 0 then r.addWrap F.VOT_WT_SCAN_PASSES 1 else r) })
    if here.isEmpty then m
    else
      let last := BitVec.ofNat 32 (here.foldl max 0)
      (m.updLane l (fun x => { (x.selfFault 8) with
        regs := (x.regs.put F.VOT_WT_SCAN_FAULT 1).set (blkBase .vot + 0x24) last })).raiseLane l .vot I.VOT_WT_FAULT

def execWorkingTableRescan (l : LaneId) (failing : List Nat) (s : State) : Host.Outcome State Fault Refusal :=
  s.run (fun m => m.rescan l failing)

/-- An image fault (R67) with its event record; the block index of a section fault is a free value. -/
def Mach.imageFault (m : Mach) (l : LaneId) (kind : Nat) : Mach :=
  let f := m.fresh
  ((f.2).updLane l (fun x => x.selfFault 8)).recordLane l 0x0011 kind (Config.freeWord f.1).toNat (laneIx l) 0

/-- IMAGE_INTEGRITY_SCAN: the sections against their CRCs, and the on-die copies. -/
def Mach.integrityScan (m : Mach) (l : LaneId) : Mach :=
  let x := m.lane l
  if !(x.loaded && modeActive m.sys.mode) then m
  else
    let i := x.img
    match i.secs.find? (fun s => !i.secCrcOk s) with
    | some s => m.imageFault l s.kind
    | none => if x.onDieOk then m else m.imageFault l 0

def execImageIntegrityScan (l : LaneId) (s : State) : Host.Outcome State Fault Refusal := s.run (fun m => m.integrityScan l)

/-! ### Self-fault conditions (R151, R321) -/

/-- A lane runs: not in OFF or DORMANT. -/
def Mach.awake (m : Mach) : Bool := decide (2 ≤ m.sys.mode)

/-- A lane names itself from the next window on. -/
def Mach.selfFault (m : Mach) (l : LaneId) (cause : Nat) : Mach :=
  if m.awake then m.updLane l (fun x => x.selfFault cause) else m

/-- SUPPLY_FAULT (R321): the sample, and cause 10 outside 0.80 V to 0.90 V. -/
def Mach.supplyFault (m : Mach) (l : LaneId) (mv : Nat) : Mach :=
  if !m.awake then m
  else
    let m := m.updLane l (fun x => { x with regs :=
      (let lo := x.regs.fld F.SYS_VCORE_MIN_MV
      let r := (x.regs.put F.SYS_VCORE_MV mv).put F.SYS_VCORE_MAX_MV (max (x.regs.fld F.SYS_VCORE_MAX_MV) mv)
      r.put F.SYS_VCORE_MIN_MV (if lo = 0 then mv else min lo mv)) })
    if mv < 800 ∨ 900 < mv then m.selfFault l 10 else m

def execSupplyFault (l : LaneId) (mv : BitVec 10) (s : State) : Host.Outcome State Fault Refusal :=
  s.run (fun m => m.supplyFault l mv.toNat)

/-- CLOCK_MONITOR_TRIP (R321): the window's deviation, and cause 10 beyond ± 0.5 %. -/
def Mach.clockTrip (m : Mach) (l : LaneId) (ppm : W16) : Mach :=
  if !m.awake then m
  else
    let far := decide (5000 < (signed 16 ppm.toNat).natAbs)
    let m := m.updLane l (fun x => { x with regs := ((x.regs.put F.CLK_MONITOR_FAST_PPM ppm.toNat).put F.CLK_STATUS_MONITOR_OK
      (b2n (!far))) })
    if far then
      ((m.updLane l (fun x => { x with regs := (x.regs.inc F.CLK_MONITOR_TRIPS).incReg (blkBase .clk + 0x20) })).raiseLane l .clk
        I.CLK_MONITOR_TRIP).selfFault l 10
    else m

def execClockMonitorTrip (l : LaneId) (ppm : W16) (s : State) : Host.Outcome State Fault Refusal :=
  s.run (fun m => m.clockTrip l ppm)

/-- PLL_UNLOCK (R321). -/
def Mach.pllUnlock (m : Mach) (l : LaneId) : Mach :=
  if !m.awake then m
  else ((m.updLane l (fun x => { x with regs := (x.regs.inc F.CLK_PLL_UNLOCKS).put F.CLK_STATUS_PLL_LOCKED 0 })).raiseLane l .clk
    I.CLK_PLL_UNLOCK).selfFault l 10

def execPllUnlock (l : LaneId) (s : State) : Host.Outcome State Fault Refusal := s.run (fun m => m.pllUnlock l)

/-- LATE_WAKE (R18, R321): cause 9. -/
def Mach.lateWake (m : Mach) (l : LaneId) : Mach :=
  if !m.awake then m
  else ((m.updLane l (fun x => { x with regs := x.regs.inc F.CLK_WAKES_LATE })).raiseLane l .clk I.CLK_WAKE_LATE).selfFault l 9

def execLateWake (l : LaneId) (s : State) : Host.Outcome State Fault Refusal := s.run (fun m => m.lateWake l)

/-- WATCHDOG (R151): cause 9; a Patch on probation does not confirm in this boot (R407). -/
def Mach.watchdog (m : Mach) (l : LaneId) : Mach :=
  if m.awake then { (m.selfFault l 9) with sc := { m.sc with watchdogSeen := true } } else m

def execWatchdog (l : LaneId) (s : State) : Host.Outcome State Fault Refusal := s.run (fun m => m.watchdog l)

/-- MEMORY_ERROR (R151): cause 7, whichever of the vital memories it is; a corrected single-bit error is counted and excludes
nothing. -/
def Mach.memoryError (m : Mach) (l : LaneId) (corrected : Bool) : Mach :=
  if !corrected then m.selfFault l 7
  else if m.awake then m.updLane l (fun x => { x with regs := x.regs.incReg (blkBase .vot + 0x20) })
  else m

def execMemoryError (l : LaneId) (e : MemError) (s : State) : Host.Outcome State Fault Refusal :=
  s.run (fun m => m.memoryError l e.corrected)

/-! ### The degraded limit (R156) -/

/-- A serving lane's own timing of the degraded limit has `n` s or less to run; the earlier of them governs. -/
def Mach.limitWithin (m : Mach) (n : Nat) : Bool :=
  m.serving.any (fun l => decide ((m.lane l).regs.fld F.RED_STATUS_DEGRADED = 1) &&
    decide ((m.lane l).regs.fld F.RED_DEGRADED_REMAIN_SECONDS ≤ n))

/-- DEGRADED_LIMIT_EXPIRY. -/
def Mach.limitExpiry (m : Mach) : Mach :=
  if m.limitWithin 0 then
    ((m.raiseAll .red I.RED_LIMIT_EXPIRED).stopDegraded).safeHalt 1
  else m

def execDegradedLimitExpiry (s : State) : Host.Outcome State Fault Refusal := s.run Mach.limitExpiry

/-- LIMIT_WARN. -/
def Mach.limitWarn (m : Mach) : Mach :=
  if m.limitWithin 3600 then m.raiseAll .red I.RED_LIMIT_WARN else m

def execLimitWarn (s : State) : Host.Outcome State Fault Refusal := s.run Mach.limitWarn

end Sys2Proof.Machine
end

