-- ==== Sys2Proof/Machine/Dispatch.lean ====
section
/-!
DEFINITION. Machine/Dispatch.lean: one arm per command of spec/opcode_table.json, each one direct call of its meaning.
-/
namespace Sys2Proof.Machine

def exec (i : Instr) (s : State) : Host.Outcome State Fault Refusal :=
  match i with
  | .feedPresent f voltsA voltsB => Sys2Proof.Machine.execFeedPresent f voltsA voltsB s
  | .feedLost f voltsA voltsB => Sys2Proof.Machine.execFeedLost f voltsA voltsB s
  | .rideThroughExpiry => Sys2Proof.Machine.execRideThroughExpiry s
  | .powerRecovery => Sys2Proof.Machine.execPowerRecovery s
  | .holdupExhausted => Sys2Proof.Machine.execHoldupExhausted s
  | .pllLocked lockUs => Sys2Proof.Machine.execPllLocked lockUs s
  | .resetEdge inp => Sys2Proof.Machine.execResetEdge inp s
  | .resetStuck inp => Sys2Proof.Machine.execResetStuck inp s
  | .resetReleased inp => Sys2Proof.Machine.execResetReleased inp s
  | .resetEnact => Sys2Proof.Machine.execResetEnact s
  | .bootComplete eeprom => Sys2Proof.Machine.execBootComplete eeprom s
  | .bootTimeout => Sys2Proof.Machine.execBootTimeout s
  | .selfTestComplete => Sys2Proof.Machine.execSelfTestComplete s
  | .holdupReady capacityMs chargePct => Sys2Proof.Machine.execHoldupReady capacityMs chargePct s
  | .holdupReadyTimeout => Sys2Proof.Machine.execHoldupReadyTimeout s
  | .holdupMeasurement capacityMs chargePct => Sys2Proof.Machine.execHoldupMeasurement capacityMs chargePct s
  | .imageStreamDone differing => Sys2Proof.Machine.execImageStreamDone differing s
  | .imageScanDone l => Sys2Proof.Machine.execImageScanDone l s
  | .workingTablesBuilt sealA sealB sealC => Sys2Proof.Machine.execWorkingTablesBuilt sealA sealB sealC s
  | .onDieCompareDone => Sys2Proof.Machine.execOnDieCompareDone s
  | .fedTimeAligned => Sys2Proof.Machine.execFedTimeAligned s
  | .startWaitExpiry => Sys2Proof.Machine.execStartWaitExpiry s
  | .pairListenEnd => Sys2Proof.Machine.execPairListenEnd s
  | .clusterBoundary => Sys2Proof.Machine.execClusterBoundary s
  | .requestedTransition => Sys2Proof.Machine.execRequestedTransition s
  | .expressPass inp => Sys2Proof.Machine.execExpressPass inp s
  | .fullSweep zvlFaults us => Sys2Proof.Machine.execFullSweep zvlFaults us s
  | .zvlEnteredReset route => Sys2Proof.Machine.execZvlEnteredReset route s
  | .gather => Sys2Proof.Machine.execGather s
  | .evaluationDone l ctx atUs => Sys2Proof.Machine.execEvaluationDone l ctx atUs s
  | .evaluateEnd => Sys2Proof.Machine.execEvaluateEnd s
  | .overrun seq => Sys2Proof.Machine.execOverrun seq s
  | .press mergeA mergeB mergeC => Sys2Proof.Machine.execPress mergeA mergeB mergeC s
  | .timerExpiry object slot => Sys2Proof.Machine.execTimerExpiry object slot s
  | .requestExpiry seq => Sys2Proof.Machine.execRequestExpiry seq s
  | .pressWindowCompare x => Sys2Proof.Machine.execPressWindowCompare x s
  | .emit => Sys2Proof.Machine.execEmit s
  | .outputWindowCompare x => Sys2Proof.Machine.execOutputWindowCompare x s
  | .imageWindowCompare x => Sys2Proof.Machine.execImageWindowCompare x s
  | .exclusionEnacted => Sys2Proof.Machine.execExclusionEnacted s
  | .phFrameAssembly late crcFailed => Sys2Proof.Machine.execPhFrameAssembly late crcFailed s
  | .workingTableRescan l failing => Sys2Proof.Machine.execWorkingTableRescan l failing s
  | .imageIntegrityScan l => Sys2Proof.Machine.execImageIntegrityScan l s
  | .laneTimeMessage x y a b m => Sys2Proof.Machine.execLaneTimeMessage x y a b m s
  | .supplyFault l mv => Sys2Proof.Machine.execSupplyFault l mv s
  | .clockMonitorTrip l ppm => Sys2Proof.Machine.execClockMonitorTrip l ppm s
  | .pllUnlock l => Sys2Proof.Machine.execPllUnlock l s
  | .lateWake l => Sys2Proof.Machine.execLateWake l s
  | .watchdog l => Sys2Proof.Machine.execWatchdog l s
  | .memoryError l m => Sys2Proof.Machine.execMemoryError l m s
  | .degradedLimitExpiry => Sys2Proof.Machine.execDegradedLimitExpiry s
  | .limitWarn => Sys2Proof.Machine.execLimitWarn s
  | .darnAutoStart => Sys2Proof.Machine.execDarnAutoStart s
  | .darnStart => Sys2Proof.Machine.execDarnStart s
  | .darnZeroFillDone => Sys2Proof.Machine.execDarnZeroFillDone s
  | .darnBistDone r => Sys2Proof.Machine.execDarnBistDone r s
  | .darnImageDone wtSeal differing => Sys2Proof.Machine.execDarnImageDone wtSeal differing s
  | .darnTimebaseAligned => Sys2Proof.Machine.execDarnTimebaseAligned s
  | .darnSnapshotReceived => Sys2Proof.Machine.execDarnSnapshotReceived s
  | .darnTrackingMatched => Sys2Proof.Machine.execDarnTrackingMatched s
  | .darnCutOver => Sys2Proof.Machine.execDarnCutOver s
  | .darnReadmission => Sys2Proof.Machine.execDarnReadmission s
  | .darnStepTimeout => Sys2Proof.Machine.execDarnStepTimeout s
  | .setRoute mb word silent => Sys2Proof.Machine.execSetRoute mb word silent s
  | .cancelRoute mb word silent => Sys2Proof.Machine.execCancelRoute mb word silent s
  | .throwPoint mb word silent => Sys2Proof.Machine.execThrowPoint mb word silent s
  | .withdraw mb word silent => Sys2Proof.Machine.execWithdraw mb word silent s
  | .restrictObject mb word silent => Sys2Proof.Machine.execRestrictObject mb word silent s
  | .restrictArea mb word silent => Sys2Proof.Machine.execRestrictArea mb word silent s
  | .restrictAll mb word silent => Sys2Proof.Machine.execRestrictAll mb word silent s
  | .liftObject mb word silent => Sys2Proof.Machine.execLiftObject mb word silent s
  | .liftArea mb word silent => Sys2Proof.Machine.execLiftArea mb word silent s
  | .liftAll mb word silent => Sys2Proof.Machine.execLiftAll mb word silent s
  | .completionSlotRead slot => Sys2Proof.Machine.execCompletionSlotRead slot s
  | .resultLoRead mb => Sys2Proof.Machine.execResultLoRead mb s
  | .prefetchRefused offset len => Sys2Proof.Machine.execPrefetchRefused offset len s
  | .resultPlaced => Sys2Proof.Machine.execResultPlaced s
  | .modeReqDormant word silent => Sys2Proof.Machine.execModeReqDormant word silent s
  | .restartOrWake word silent => Sys2Proof.Machine.execRestartOrWake word silent s
  | .returnToService word silent => Sys2Proof.Machine.execReturnToService word silent s
  | .modeReqMaintenance word silent => Sys2Proof.Machine.execModeReqMaintenance word silent s
  | .modeReqUpdate word silent => Sys2Proof.Machine.execModeReqUpdate word silent s
  | .lifecycleService word silent => Sys2Proof.Machine.execLifecycleService word silent s
  | .lifecycleRetired word silent => Sys2Proof.Machine.execLifecycleRetired word silent s
  | .fuseBlown => Sys2Proof.Machine.execFuseBlown s
  | .bistSessionOpen word silent => Sys2Proof.Machine.execBistSessionOpen word silent s
  | .bistSessionClose word silent => Sys2Proof.Machine.execBistSessionClose word silent s
  | .challengeExpiry => Sys2Proof.Machine.execChallengeExpiry s
  | .authLockoutEnd => Sys2Proof.Machine.execAuthLockoutEnd s
  | .registerWrite offset size value => Sys2Proof.Machine.execRegisterWrite offset size value s
  | .laneRegsWrite window offset value silent => Sys2Proof.Machine.execLaneRegsWrite window offset value silent s
  | .unsupportedAtomic offset => Sys2Proof.Machine.execUnsupportedAtomic offset s
  | .tsuLatchingRead l which ticks => Sys2Proof.Machine.execTsuLatchingRead l which ticks s
  | .lockArm b silent => Sys2Proof.Machine.execLockArm b silent s
  | .lockOpen b key silent => Sys2Proof.Machine.execLockOpen b key silent s
  | .lockClose b silent => Sys2Proof.Machine.execLockClose b silent s
  | .lockArmTimeout b => Sys2Proof.Machine.execLockArmTimeout b s
  | .shadowWrite b offset value late silent => Sys2Proof.Machine.execShadowWrite b offset value late silent s
  | .shadowDiscard b late silent => Sys2Proof.Machine.execShadowDiscard b late silent s
  | .intPendingClear b value silent => Sys2Proof.Machine.execIntPendingClear b value silent s
  | .intEnableWrite b value silent => Sys2Proof.Machine.execIntEnableWrite b value silent s
  | .intForce b value silent => Sys2Proof.Machine.execIntForce b value silent s
  | .queueFlush silent => Sys2Proof.Machine.execQueueFlush silent s
  | .signatureInject kind silent => Sys2Proof.Machine.execSignatureInject kind silent s
  | .darnStartRequest silent => Sys2Proof.Machine.execDarnStartRequest silent s
  | .darnAbort silent => Sys2Proof.Machine.execDarnAbort silent s
  | .handbackRelease silent => Sys2Proof.Machine.execHandbackRelease silent s
  | .nodeLeaveRequest port index silent => Sys2Proof.Machine.execNodeLeaveRequest port index silent s
  | .quarantineRelease node silent => Sys2Proof.Machine.execQuarantineRelease node silent s
  | .imgErase slot => Sys2Proof.Machine.execImgErase slot s
  | .imgEraseDone slot => Sys2Proof.Machine.execImgEraseDone slot s
  | .imgOpen slot => Sys2Proof.Machine.execImgOpen slot s
  | .imgClose slot => Sys2Proof.Machine.execImgClose slot s
  | .imgCheckDone slot => Sys2Proof.Machine.execImgCheckDone slot s
  | .imgSelect value => Sys2Proof.Machine.execImgSelect value s
  | .evrFlush => Sys2Proof.Machine.execEvrFlush s
  | .evrFetch => Sys2Proof.Machine.execEvrFetch s
  | .evrFetchDone => Sys2Proof.Machine.execEvrFetchDone s
  | .evrClear upto => Sys2Proof.Machine.execEvrClear upto s
  | .evrClearEraseDone => Sys2Proof.Machine.execEvrClearEraseDone s
  | .commissioningKeyStore word => Sys2Proof.Machine.execCommissioningKeyStore word s
  | .bistStart ctrl silent => Sys2Proof.Machine.execBistStart ctrl silent s
  | .bistDone d r => Sys2Proof.Machine.execBistDone d r s
  | .dmaCopy u ch ctrl beats hostData => Sys2Proof.Machine.execDmaCopy u ch ctrl beats hostData s
  | .dmaFill u ch ctrl beats => Sys2Proof.Machine.execDmaFill u ch ctrl beats s
  | .dmaCompare u ch ctrl beats hostData => Sys2Proof.Machine.execDmaCompare u ch ctrl beats hostData s
  | .dmaAbort u ch => Sys2Proof.Machine.execDmaAbort u ch s
  | .dmaDone u ch hostData => Sys2Proof.Machine.execDmaDone u ch hostData s
  | .dmaStopped u ch => Sys2Proof.Machine.execDmaStopped u ch s
  | .scanCrc64 l m => Sys2Proof.Machine.execScanCrc64 l m s
  | .scanCrc32c l m => Sys2Proof.Machine.execScanCrc32c l m s
  | .scanSealWrite l m => Sys2Proof.Machine.execScanSealWrite l m s
  | .scanSealCheck l m => Sys2Proof.Machine.execScanSealCheck l m s
  | .scanPause l m words => Sys2Proof.Machine.execScanPause l m words s
  | .scanContinue l m => Sys2Proof.Machine.execScanContinue l m s
  | .scanDone l m uncorrectable => Sys2Proof.Machine.execScanDone l m uncorrectable s
  | .snoopInit l alg => Sys2Proof.Machine.execSnoopInit l alg s
  | .crcChannelEnable l k ctrl => Sys2Proof.Machine.execCrcChannelEnable l k ctrl s
  | .perst asserted => Sys2Proof.Machine.execPerst asserted s
  | .hostLinkFail l => Sys2Proof.Machine.execHostLinkFail l s
  | .hostLinkRestore l => Sys2Proof.Machine.execHostLinkRestore l s
  | .eventReport l => Sys2Proof.Machine.execEventReport l s
  | .mergeTimeout => Sys2Proof.Machine.execMergeTimeout s
  | .flushTimer => Sys2Proof.Machine.execFlushTimer s
  | .flushBatchDone => Sys2Proof.Machine.execFlushBatchDone s
  | .patchWriteDone => Sys2Proof.Machine.execPatchWriteDone s
  | .patchConfirm => Sys2Proof.Machine.execPatchConfirm s
  | .probationExpiry => Sys2Proof.Machine.execProbationExpiry s
  | .portBasicCycle port seen => Sys2Proof.Machine.execPortBasicCycle port seen s
  | .commandWindow port index => Sys2Proof.Machine.execCommandWindow port index s
  | .pollWindow port index => Sys2Proof.Machine.execPollWindow port index s
  | .inputFrame port link rx => Sys2Proof.Machine.execInputFrame port link rx s
  | .inputWindowEnd port index snoopFailed => Sys2Proof.Machine.execInputWindowEnd port index snoopFailed s
  | .eventFrame port link rx => Sys2Proof.Machine.execEventFrame port link rx s
  | .diagFrame port p => Sys2Proof.Machine.execDiagFrame port p s
  | .maintFrame port p => Sys2Proof.Machine.execMaintFrame port p s
  | .joinRequest port link rx => Sys2Proof.Machine.execJoinRequest port link rx s
  | .joinGrant port index => Sys2Proof.Machine.execJoinGrant port index s
  | .nodeLeaveFrame port link rx => Sys2Proof.Machine.execNodeLeaveFrame port link rx s
  | .delayReport port link rx => Sys2Proof.Machine.execDelayReport port link rx s
  | .pollReply port link rx => Sys2Proof.Machine.execPollReply port link rx s
  | .probeEcho port instant crcOk returned => Sys2Proof.Machine.execProbeEcho port instant crcOk returned s
  | .delaySend port index => Sys2Proof.Machine.execDelaySend port index s
  | .ringReturnCheck port latency echo => Sys2Proof.Machine.execRingReturnCheck port latency echo s
  | .linkSyncLoss port link => Sys2Proof.Machine.execLinkSyncLoss port link s
  | .ringRestored x => Sys2Proof.Machine.execRingRestored x s
  | .portLatencyCheck port => Sys2Proof.Machine.execPortLatencyCheck port s
  | .nodeLost port index => Sys2Proof.Machine.execNodeLost port index s
  | .nodeRestored port index => Sys2Proof.Machine.execNodeRestored port index s
  | .nodeLeft port index => Sys2Proof.Machine.execNodeLeft port index s
  | .nodeAdmitted port index => Sys2Proof.Machine.execNodeAdmitted port index s
  | .quarantineHoldExpiry port index => Sys2Proof.Machine.execQuarantineHoldExpiry port index s
  | .pollLinkSwitch port index => Sys2Proof.Machine.execPollLinkSwitch port index s
  | .schedDecision port => Sys2Proof.Machine.execSchedDecision port s
  | .boundaryMsg n bytes arrival => Sys2Proof.Machine.execBoundaryMsg n bytes arrival s
  | .statusMsg n bytes arrival => Sys2Proof.Machine.execStatusMsg n bytes arrival s
  | .startMsg n bytes arrival => Sys2Proof.Machine.execStartMsg n bytes arrival s
  | .pairBeatMsg bytes arrival stamp => Sys2Proof.Machine.execPairBeatMsg bytes arrival stamp s
  | .healthMsg bytes arrival => Sys2Proof.Machine.execHealthMsg bytes arrival s
  | .seedMsg bytes arrival => Sys2Proof.Machine.execSeedMsg bytes arrival s
  | .seedAckMsg bytes arrival => Sys2Proof.Machine.execSeedAckMsg bytes arrival s
  | .fedSourceLost source => Sys2Proof.Machine.execFedSourceLost source s
  | .fedSourceRestored source => Sys2Proof.Machine.execFedSourceRestored source s
  | .singleNetworkEnter silent linkLost => Sys2Proof.Machine.execSingleNetworkEnter silent linkLost s
  | .singleNetworkLeave => Sys2Proof.Machine.execSingleNetworkLeave s
  | .singleNetworkExpiry => Sys2Proof.Machine.execSingleNetworkExpiry s
  | .duplicateClear number => Sys2Proof.Machine.execDuplicateClear number s
  | .fedListenEnd => Sys2Proof.Machine.execFedListenEnd s
  | .startSend => Sys2Proof.Machine.execStartSend s
  | .fedClaimEnd => Sys2Proof.Machine.execFedClaimEnd s
  | .fedBackoffEnd => Sys2Proof.Machine.execFedBackoffEnd s
  | .pairSilence => Sys2Proof.Machine.execPairSilence s
  | .takeoverEntry => Sys2Proof.Machine.execTakeoverEntry s
  | .healthTimeout => Sys2Proof.Machine.execHealthTimeout s
  | .standbyLaneTest => Sys2Proof.Machine.execStandbyLaneTest s
  | .standbyTestDone r => Sys2Proof.Machine.execStandbyTestDone r s
  | .handbackReady => Sys2Proof.Machine.execHandbackReady s
  | .handbackEntry => Sys2Proof.Machine.execHandbackEntry s
  | .handbackFinal => Sys2Proof.Machine.execHandbackFinal s
  | .handbackHandover => Sys2Proof.Machine.execHandbackHandover s
  | .handbackAbandon => Sys2Proof.Machine.execHandbackAbandon s
  | .ptpSync n t1 t2 => Sys2Proof.Machine.execPtpSync n t1 t2 s
  | .ptpAnnounce n ds => Sys2Proof.Machine.execPtpAnnounce n ds s
  | .ptpDelayResp n t1 t2 t3 t4 => Sys2Proof.Machine.execPtpDelayResp n t1 t2 t3 t4 s
  | .ptpSyncTimeout => Sys2Proof.Machine.execPtpSyncTimeout s
  | .ptpAnnounceTimeout => Sys2Proof.Machine.execPtpAnnounceTimeout s
  | .holdoverLimit => Sys2Proof.Machine.execHoldoverLimit s
  | .dioSwitchTest => Sys2Proof.Machine.execDioSwitchTest s
  | .demagEnd ch => Sys2Proof.Machine.execDemagEnd ch s
  | .deferEnd ch => Sys2Proof.Machine.execDeferEnd ch s
  | .dioOverload ch current => Sys2Proof.Machine.execDioOverload ch current s
  | .supplyLow g volts => Sys2Proof.Machine.execSupplyLow g volts s
  | .supplyMissing g volts => Sys2Proof.Machine.execSupplyMissing g volts s
  | .supplyRecover g volts => Sys2Proof.Machine.execSupplyRecover g volts s
  | .readbackFault ch => Sys2Proof.Machine.execReadbackFault ch s
  | .inDisagree l ch => Sys2Proof.Machine.execInDisagree l ch s
  | .participationFault l => Sys2Proof.Machine.execParticipationFault l s
  | .partnerBeacon port link bytes => Sys2Proof.Machine.execPartnerBeacon port link bytes s
  | .failedAccess access bar2 offset cause => Sys2Proof.Machine.execFailedAccess access bar2 offset cause s
  | .ptpMasterSend n what => Sys2Proof.Machine.execPtpMasterSend n what s
  | .ptpDelayReqSend n => Sys2Proof.Machine.execPtpDelayReqSend n s
  | .pcieLinkDown => Sys2Proof.Machine.execPcieLinkDown s

end Sys2Proof.Machine
end

