-- ==== Sys2Proof/Safety.lean ====
section
/-!
DEFINITION. Safety.lean: the terms in which statements about the module are made: that a command completes with an effect, that
a register reads a value in every lane, what a transition of mode leaves behind, and what a command leaves as it was.
-/
namespace Sys2Proof.Machine

/-- The step answers a next state. -/
def Steps (s t : State) : Prop := step s = .next t

/-- The command answers a next state: the queue as it stands, the module one that satisfies `P`. -/
def Completes (c : Instr) (s : State) (P : Mach → Prop) : Prop := ∃ m, exec c s = .next { s with m := m } ∧ P m

/-- No restart of R407 is due: the probation of a Patch has not run out of service time. -/
def Settled (s : State) : Prop := s.m.sc.falling = false

/-- The field reads `v` in every lane. -/
def Mach.Reads (m : Mach) (f : Field) (v : Nat) : Prop := ∀ l, (m.lane l).regs.fld f = v

/-- Bit `i` of the block's INT_RAW is set in every lane. -/
def Mach.Raised (m : Mach) (b : Blk) (i : Nat) : Prop := ∀ l, bitOf ((m.lane l).regs.get (blkBase b + 0x10)).toNat i = true

/-- Every register of a file but those listed reads as before. -/
def Regs.Keeps (r r' : Regs) (as : List Nat) : Prop := ∀ a, a ∉ as → r'.get a = r.get a

/-- Nothing was sent but vectors of these blocks (R356). -/
def Mach.SentOnly (m n : Mach) (bs : List Blk) : Prop :=
  ∀ o ∈ n.out, o ∈ m.out ∨ o ∈ bs.filterMap (fun b => (blkVector b).map Output.msix)

/-- All of a lane but its event staging and the listed registers is as before. -/
def Lane.Keeps (x y : Lane) (as : List Nat) : Prop :=
  y = { x with regs := y.regs, events := y.events, evLost := y.evLost } ∧ x.regs.Keeps y.regs as

/-- The registers of the event logger that a record can change: EVL.STAGED, EVL.LOST and EVL.INT_RAW. -/
def eventRegs : List Nat := [0x40008040, 0x40008048, 0x40008010]

/-- Every lane that is not excluded, and has not run out of room in its event staging, has staged a record of this code and
these parameters (R388, R391). -/
def Mach.Recorded (m : Mach) (code p0 p1 p2 : Nat) : Prop :=
  ∀ l, (m.lane l).role ≠ .excluded → (m.lane l).evLost = 0 →
    ∃ e ∈ (m.lane l).events, e.code = code ∧ e.p0 = p0 ∧ e.p1 = p1 ∧ e.p2 = p2

/-- The module has gone from mode `old` to mode `k`: SYS.STATUS and SYS.MODE_HIST in every lane, the interrupt, the event
record with the old mode, the new mode and the cause or TAG `p2`, and no request left waiting (R292, R294). -/
def Mach.Entered (m : Mach) (old k p2 : Nat) : Prop :=
  m.sys.mode = k ∧ m.sys.pendingReq = none ∧ m.Reads F.SYS_STATUS_MODE (k % 16) ∧ m.Reads F.SYS_STATUS_PREV_MODE (old % 16) ∧
  m.Reads F.SYS_MODE_HIST_TO (k % 16) ∧ m.Reads F.SYS_MODE_HIST_FROM (old % 16) ∧ m.Raised .sys I.SYS_MODE_CHANGE ∧
  m.Recorded 0x0001 old k p2

/-- The module has gone from mode `old` to SAFE_HALT with this cause (R316): SYS.HALT keeps the cause and the mode left,
SYS.HALT_CLUSTER the cluster. -/
def Mach.Halted (m : Mach) (old cluster cause : Nat) : Prop :=
  m.Entered old 14 cause ∧ m.Reads F.SYS_HALT_CAUSE (cause % 256) ∧ m.Reads F.SYS_HALT_MODE (old % 16) ∧
  m.Reads F.SYS_HALT_CLUSTER_CLUSTER (cluster % 2 ^ 32) ∧ m.Raised .sys I.SYS_SAFE_HALT

/-- The registers of a lane that a transition can change: SYS.STATUS, SYS.INT_RAW, MODE_RESULT, MODE_HIST, HALT and
HALT_CLUSTER, the STATUS registers of TSU, RTE, ZVL, CRC and BST, RED.PAIR_STATUS, and those of an event record. -/
def modeRegs : List Nat :=
  eventRegs ++ [0x4000000C, 0x40000010, 0x40000044, 0x40000048, 0x4000004C, 0x40000050, 0x4000200C, 0x4000300C, 0x4000400C,
    0x4000600C, 0x4000900C, 0x4000A108]

/-- Of a lane only registers, event staging, role and probation differ: its State Image, memories, queues, ZVL region, timebase,
inputs, payloads and messages are as before. -/
def Lane.RegsOnly (x y : Lane) : Prop :=
  y = { x with regs := y.regs, events := y.events, evLost := y.evLost, role := y.role, probation := y.probation }

/-- Of the module only lane registers, event staging, roles, the module's own `sys`, the Service Controller and what was sent
differ: the Port Hub, the federation, the DIO and everything else in the lanes is as before. -/
def Mach.RegsOnly (m n : Mach) : Prop :=
  (∀ l, (m.lane l).RegsOnly (n.lane l)) ∧ n.ph = m.ph ∧ n.fed = m.fed ∧ n.dio = m.dio ∧ n.nextSeq = m.nextSeq ∧ n.lastSeq = m.lastSeq

/-- Of the Service Controller only registers, the flush in progress and the watchdog mark differ: its memories, slots, event
store, settings, result queues, completion slots and firmware are as before. -/
def Sc.RegsOnly (c d : Sc) : Prop :=
  d = { c with regs := d.regs, flushing := d.flushing, watchdogSeen := d.watchdogSeen }

/-- The fields of `sys` that hold power, reset inputs, keys, fuses and the authorisation are as before. -/
def Sys.PowerKept (s t : Sys) : Prop :=
  t.feedA = s.feedA ∧ t.feedB = s.feedB ∧ t.front = s.front ∧ t.rear = s.rear ∧ t.key = s.key ∧ t.keySet = s.keySet ∧
  t.fuse = s.fuse ∧ t.challenge = s.challenge ∧ t.lockout = s.lockout

/-- An honoured reset has begun in mode `old` (R309 step 1): it waits for its instant with its source, SYS.RESET and the event
record show it, and every lane's gate substitutes every command and its DIO lines go off. -/
def Mach.ResetBegun (m : Mach) (old source : Nat) : Prop :=
  m.sys.rst = some source ∧ m.sys.rstAt = m.upUs ∧ m.sys.mode = old ∧ m.Reads F.SYS_RESET_SOURCE (source % 16) ∧
  m.Recorded 0x0002 source old 0 ∧ ∀ l, (m.lane l).zvl.gating = true ∧ (m.lane l).dioNext = 0

/-- From `m` every device but the always-on domains and the holdup controller has been reset, and the mode is BOOT (R309 step
2): no origin, queue, State Image or ZVL route is left; timebase, fuses, feeds, key, SYS.HALT and flash are as they were. -/
def Mach.Rebooted (m n : Mach) : Prop :=
  n.sys.mode = 2 ∧ n.sys.cluster = 0 ∧ n.sys.originAgreed = false ∧ n.sys.rst = none ∧ n.sys.pendingReq = none ∧
  n.sys.feedA = m.sys.feedA ∧ n.sys.feedB = m.sys.feedB ∧ n.sys.key = m.sys.key ∧ n.sys.keySet = m.sys.keySet ∧
  n.ph = m.ph.afterReset ∧ n.fed = Fed.reset ∧ n.sc.slotA = m.sc.slotA ∧ n.sc.slotB = m.sc.slotB ∧
  n.sc.host = m.sc.host ∧
  ∀ l, (n.lane l).si = [] ∧ (n.lane l).rte = Rte.reset ∧ (n.lane l).zvl = Zvl.reset ∧ (n.lane l).loaded = false ∧
    (n.lane l).role = .serving ∧ (n.lane l).time = (m.lane l).time ∧ (n.lane l).serial = (m.lane l).serial ∧
    (n.lane l).golden = (m.lane l).golden ∧ (n.lane l).lifecycle = (m.lane l).lifecycle ∧
    (n.lane l).regs.fld F.SYS_HALT_CAUSE = (m.lane l).regs.fld F.SYS_HALT_CAUSE

/-- What the header check of R62 step 1 finds in the selected slot: no valid image is fault 1. -/
def Mach.loadHeader (m : Mach) : Option Nat :=
  let s := m.slotOf (m.sc.regs.fld F.UPD_IMG_SELECT_SLOT)
  if s.state = 2 then Img.step1 ⟨s.bytes, 0⟩ s.len else some 1

/-- From `m` the module has entered LOAD from mode `old` (R62 step 1): the selected slot, no origin, every lane serving with no image and no
outcome; step 2 runs, or the header's fault has ended LOAD in MAINTENANCE. `tag` is that of the request, 0 with none. -/
def Mach.LoadEntered (m n : Mach) (old tag : Nat) : Prop :=
  n.sys.slot = m.sc.regs.fld F.UPD_IMG_SELECT_SLOT ∧ n.sys.originAgreed = false ∧ n.sys.cluster = 0 ∧ n.sys.holdupWait = false ∧
  (∀ l, (n.lane l).role = .serving ∧ (n.lane l).loaded = false ∧ (n.lane l).outcome = none) ∧
  (m.loadHeader = none → n.Entered old 4 tag ∧ n.Reads F.SYS_IMG_LOAD_STEP 2 ∧ n.Reads F.SYS_IMG_LOAD_FAULT 0) ∧
  (∀ f, m.loadHeader = some f → n.Entered 4 12 0 ∧ n.Reads F.SYS_IMG_LOAD_STEP 1 ∧ n.Reads F.SYS_IMG_LOAD_FAULT (f % 16))

/-- Every participating lane answers the mode request with ACCEPTED, and none is silent (R76, R296). -/
def Mach.Grants (m : Mach) (w : W32) (silent : BitVec 3) : Prop :=
  m.sys.mode ≠ 1 ∧ m.participants ≠ [] ∧ ∀ l ∈ m.participants, m.mute silent l = false ∧ m.mqAnswer w (m.lane l) = 1

/-- No authorisation is needed, or the response answers the challenge for this word (R297). -/
def Mach.Authorised (m : Mach) (w : W32) : Prop := m.a.lifecycle ≠ 4 ∨ m.responds (be 4 w.toNat) = true

/-- The answer to a mode request, in SYS.MODE_RESULT of every lane and in the completion slot of HBR.MODE_REQ (R296, R350). -/
def Mach.ModeAnswered (m : Mach) (w : W32) (result shown : Nat) : Prop :=
  m.Reads F.SYS_MODE_RESULT_TAG (mqTag w) ∧ m.Reads F.SYS_MODE_RESULT_KIND (mqKind w) ∧
  m.Reads F.SYS_MODE_RESULT_VALUE (mqValue w) ∧ m.Reads F.SYS_MODE_RESULT_RESULT shown ∧
  Store.get noDone m.sc.done 8 = BitVec.ofNat 64 (mqResult w result)

/-! ### ZVL and the guard gate -/

/-- The items of R124 for a slot, on the latched inputs of its lane. -/
def Lane.MayPass (x : Lane) (t : Slot) : Prop :=
  t.mismatch = false ∧ t.collided = false ∧ t.held = false ∧ t.entered = false ∧ x.zRestricted t.guarded = false ∧
  (∀ e ∈ t.list,
    let o := cwObj e.2
    let held := (SI.at x.si o).overlapList.contains t.route
    (cwKind e.2 = 1 → t.hasEnded e.1 = false ∧ x.zAt x.latched o (cwPos e.2) = true ∧ x.zRestricted o = false) ∧
    (cwKind e.2 = 2 → x.zAt x.latched o (cwPos e.2) = true ∧ x.zRestricted o = false) ∧
    (cwKind e.2 = 3 → t.hasEnded e.1 = false ∧
      (cwClaimOnly e.2 = false → x.zOccupied x.latched o = false ∧ x.zRestricted o = false)) ∧
    (cwKind e.2 = 4 → held = true → x.zOccupied x.latched o = false ∧ x.zRestricted o = false)) ∧
  ((∃ e ∈ t.list, cwKind e.2 = 4) → ∃ e ∈ t.list, cwKind e.2 = 4 ∧ (SI.at x.si (cwObj e.2)).overlapList.contains t.route = true)

/-- The forbid code of the guard gate for an object: that of the pass, and 3 while the gate substitutes every command (R130, R133). -/
def Lane.gateCode (x : Lane) (o : Nat) : Nat := if x.zvl.gating then 3 else Store.get noCode x.zvl.forbid o

/-- A command as the guard gate lets it out (R16, R130): what the RTE permits or more restrictive, and the object's GUARD_COMMAND
wherever the forbid code stands against it. -/
def Lane.Gated (x : Lane) (o : Nat) (cmd : W32) : Prop :=
  let guard := x.img.guardCommand o % 65536
  (cmd.toNat % 65536 = guard ∨ cmd.toNat % 65536 = x.img.restrictive o % 65536 ∨
    cmd.toNat % 65536 = (x.fieldCommand o).toNat % 65536) ∧
  (x.gateCode o = 3 → cmd.toNat % 65536 = guard) ∧
  (x.gateCode o = 1 → cmd.toNat % 4 = 2 → cmd.toNat % 65536 = guard) ∧
  (x.gateCode o = 2 → cmd.toNat % 4 = 1 → cmd.toNat % 65536 = guard)

/-- Every command in the payloads that a lane has built has come through its guard gate, and every DIO line that its next word drives is
that of such a command. -/
def Lane.AllGated (x : Lane) : Prop :=
  (∀ p ∈ x.staged, ∃ es, p.part = codedPart p.node es ∧ ∀ e ∈ es, x.Gated e.1 e.2.2) ∧
  ∀ ch, bitOf x.dioNext.toNat ch = true → ∃ o k cmd, x.img.isOutput o k = true ∧ x.img.channel o k = ch ∧ x.Gated o cmd ∧
    bitOf cmd.toNat (if x.img.cls o = 8 then k else 0) = true

/-! ### Register writes through the lanes -/

/-- Every participating lane answers a write at this offset of the block's page with ACCEPTED, and none is silent; to the Port Hub, which
is not under test, two lanes deliver it (R304, R349, R351, R424). -/
def Mach.Takes (m : Mach) (b : Blk) (off v : Nat) (o : Offer) : Prop :=
  m.participants ≠ [] ∧
  (∀ l ∈ m.participants, m.mute o.silent l = false ∧ (m.regJudge l b off v (bitOf o.late.toNat (laneIx l))).1 = 1) ∧
  (blkHome b = .hub → 2 ≤ m.participants.length ∧ m.hubTested = false)

/-- The participating lanes as a set. -/
def Mach.partSet (m : Mach) : Nat := laneSet (fun l => m.participants.contains l)

/-- The completion slot of a window shows the write ACCEPTED by every participating lane of `m` (R350). -/
def Mach.SlotAccepted (m n : Mach) (slot off : Nat) : Prop :=
  Store.get noDone n.sc.done slot = BitVec.ofNat 64 (statusWord 1 m.partSet off)

/-- A write of a row that names a block is accepted: by the lanes, or in the Service Controller's own page. -/
def Mach.Accepted (m : Mach) (b : Blk) (off v : Nat) (silent : BitVec 3) : Prop :=
  (blkHome b ≠ .ctl → m.Takes b off v ⟨silent, 0⟩) ∧ (blkHome b = .ctl → (m.regJudge .a b off v false).1 = 1)

/-- The register at an offset of a block's page, in every file that a write accepted by the lanes of `m` reaches, reads `f` of what it
read. -/
def Mach.Rewrites (m n : Mach) (b : Blk) (off : Nat) (f : W32 → W32) : Prop :=
  ∀ l, (blkHome b = .lane → l ∈ m.participants) →
    (n.fileOf b l).get (blkBase b + off) = f ((m.fileOf b l).get (blkBase b + off))

/-! ### Transfers -/

/-- A unit with CHn_CTRL written, its start not yet judged. -/
def Mach.dmaSet (m : Mach) (u : DmaUnit) (ch : Nat) (ctrl : W32) : Mach :=
  m.dmaUpd u (fun r => r.set (dmaBase u + 0x400 + ch * 0x40) (BitVec.ofNat 32 (dmaCtrlBits u ctrl.toNat)))

/-- A start of channel `ch` of lane `l`, which has power, that passes its checks and meets no channel of a higher priority and none that would
take turns with it, between two places of the lane's DRAM. -/
def Mach.DramStart (m : Mach) (l : LaneId) (ch : Nat) (ctrl : W32) (op : Nat) : Prop :=
  2 ≤ m.sys.mode ∧ ch < 12 ∧ bitOf ctrl.toNat 31 = true ∧ m.dmaState (.lane l) ch ∉ [1, 2, 3] ∧
  (m.dmaSet (.lane l) ch ctrl).dmaPeers (.lane l) ch = [] ∧ (m.dmaSet (.lane l) ch ctrl).dmaCheck (.lane l) ch = 0 ∧
  (m.dmaSet (.lane l) ch ctrl).dmaOutranked (.lane l) ch = false ∧ ((m.dmaSet (.lane l) ch ctrl).xfer (.lane l) ch).op = op ∧
  ((m.dmaSet (.lane l) ch ctrl).xfer (.lane l) ch).srcSpace = 1 ∧ ((m.dmaSet (.lane l) ch ctrl).xfer (.lane l) ch).dstSpace = 1

/-! ### Frames of nodes -/

/-- A copy that the guardian is asked about (R172, R220): the port runs, and the copy is neither the module's own frame come back nor one
whose SOURCE names no node. -/
def Mach.Guarded (m : Mach) (p : Nat) (rx : RxFrame) : Prop :=
  (m.port p).running = true ∧ ownReturn p rx.bytes = false ∧ badIndex rx.bytes = false

/-- No quarantine bars the copy: its node is in none, or entered it by a cut in this copy's own window (R223). -/
def Mach.Unbarred (m : Mach) (p : Nat) (rx : RxFrame) : Prop :=
  (m.node (readHusk rx.bytes).source).quarantined = true →
    (m.node (readHusk rx.bytes).source).quarWin = some (m.guardian p rx).2.1

/-- A copy that a port accepts as the first of its window (R172, R220): the guardian finds it in its window, no quarantine bars it, no
check of R172 fails. -/
def Mach.Accepts (m : Mach) (p : Nat) (rx : RxFrame) (type : Nat) : Prop :=
  m.Guarded p rx ∧ (m.guardian p rx).1 = 0 ∧ m.Unbarred p rx ∧ m.discardReason p (m.guardian p rx).2.1 rx.bytes = none ∧
  (readHusk rx.bytes).type = type ∧ ∀ c ∈ (m.node (readHusk rx.bytes).source).copies, c.win ≠ (m.guardian p rx).2.1

/-- The node of an accepted frame shows its SEQUENCE, and its copy is kept. -/
def Mach.Kept (m n : Mach) (p : Nat) (link : Link) (rx : RxFrame) : Prop :=
  let h := readHusk rx.bytes
  (n.node h.source).seq = some h.seq ∧ (n.node h.source).copies = (m.node h.source).copies ++
    [⟨(m.guardian p rx).2.1, h.type, h.seq, rx.last, decide (link = .east), framePayload rx.bytes⟩]

/-! ### Messages -/

/-- A message of a federation network or of the pair link that passes R264, of this type. -/
def Mach.Receives (m : Mach) (n : Net) (bytes : List Byte) (arrival type : Nat) : Prop :=
  m.hasImage = true ∧ (n ≠ .pair → m.fld F.FED_CFG_ENABLE ≠ 0) ∧ (n = .pair → m.paired = true) ∧
  m.fedReason n (readMsg bytes) arrival = none ∧ (readMsg bytes).type = type

end Sys2Proof.Machine
end

