-- ==== Sys2Proof/WellFormed.lean ====
section
/-!
DEFINITION. WellFormed.lean: when a command is one its row of the table names: a request word carries the TYPE of its row
(R75), a mode request word the KIND and VALUE of its row (R296), a register access is of 4 or 8 bytes and aligned (R342), and a
context number is below 256 (R87).
-/
namespace Sys2Proof

/-- TYPE of a request word (R75). -/
def reqType (w : W64) : Nat := (w >>> 60).toNat

/-- KIND of a mode request word (R296). -/
def modeKind (w : W32) : Nat := (w >>> 12).toNat % 16

/-- VALUE of a mode request word (R296). -/
def modeValue (w : W32) : Nat := w.toNat % 16

/-- The offset at which a register is written, in its page or in BAR0. -/
def RegPlace.offset : RegPlace → Nat
  | .bar0 off _ => off.toNat
  | .bar2 _ off _ => off.toNat
  | .core _ off => off.toNat
  | .firmware off => off.toNat

/-- The row of a command agrees with its operands. -/
def Instr.wf : Instr → Bool
  | .setRoute _ w _ => reqType w == 1
  | .cancelRoute _ w _ => reqType w == 2
  | .throwPoint _ w _ => reqType w == 3
  | .withdraw _ w _ => reqType w == 4
  | .restrictObject _ w _ => reqType w == 8
  | .restrictArea _ w _ => reqType w == 9
  | .restrictAll _ w _ => reqType w == 10
  | .liftObject _ w _ => reqType w == 12
  | .liftArea _ w _ => reqType w == 13
  | .liftAll _ w _ => reqType w == 14
  | .modeReqDormant w _ => modeKind w == 1 && modeValue w == 1
  | .restartOrWake w _ => modeKind w == 1 && modeValue w == 2
  | .returnToService w _ => modeKind w == 1 && modeValue w == 4
  | .modeReqMaintenance w _ => modeKind w == 1 && modeValue w == 12
  | .modeReqUpdate w _ => modeKind w == 1 && modeValue w == 13
  | .lifecycleService w _ => modeKind w == 2 && modeValue w == 4
  | .lifecycleRetired w _ => modeKind w == 2 && modeValue w == 5
  | .bistSessionOpen w _ => modeKind w == 3 && modeValue w == 1
  | .bistSessionClose w _ => modeKind w == 3 && modeValue w == 0
  | .registerWrite p size _ => (size == 4 || size == 8) && p.offset % size == 0
  | .laneRegsWrite _ off _ _ => off.toNat % 4 == 0
  | .shadowWrite _ off _ _ _ => off.toNat % 4 == 0
  | .evaluationDone _ ctx _ => decide (ctx < 256)
  | _ => true

end Sys2Proof
end

