-- ==== Sys2Proof/Certificates/Slice0/Obligations.lean ====
section
/-!
DEFINITION. Certificates/Slice0/Obligations.lean: the statements for the provers. A clause that opens with the condition under which
a command has no effect says so in full: the module is as it was.
-/
open Sys2Proof Sys2Proof.Machine

/-- With a command at the front of the queue, one step is that command on the state with the queue's rest.
With an empty queue the block idles (the model's own choice, assumption 8). -/
def Obligations.StepRunsFront : Prop :=
  (∀ (c : Instr) (rest : List Instr) (s : State), s.pending = c :: rest → step s = exec c { s with pending := rest }) ∧
  (∀ s : State, s.pending = [] → step s = .next s)

/-- Every command completes in every state, with the queue's rest as it stands: no command stops the block, and none but the
step takes from the queue. It says nothing of what a command does; that a command whose condition does not hold completes too, with no effect,
is the model's own choice (assumption 11). -/
def Obligations.EveryCommandCompletes : Prop :=
  ∀ (c : Instr) (s : State), ∃ t, exec c s = .next t ∧ t.pending = s.pending

/-- FEED_PRESENT and FEED_LOST (R300, R311, R312): the voltages, the feed, DORMANT from OFF, and the declaration of power loss when
the last feed goes; a feed at 16.0 V or more is not lost. The Port Hub, the federation, the DIO and all of the lanes but registers, events and roles are
as they were. That OFF stands as 0 in PREV_MODE, MODE_HIST and the record is the model's own choice (assumption 64). -/
def Obligations.FeedsComeAndGo : Prop :=
  ∀ (s : State) (f : Feed) (a b : W16),
    (voltsOf f a.toNat b.toNat < 168 → Completes (.feedPresent f a b) s (fun m =>
      m.Reads F.SYS_FEEDS_FEED_A a.toNat ∧ m.Reads F.SYS_FEEDS_FEED_B b.toNat ∧ m.sys = s.m.sys ∧ m.sc = s.m.sc ∧
      m.out = s.m.out ∧ s.m.RegsOnly m)) ∧
    (168 ≤ voltsOf f a.toNat b.toNat → Completes (.feedPresent f a b) s (fun m =>
      m.Reads F.SYS_FEEDS_FEED_A a.toNat ∧ m.Reads F.SYS_FEEDS_FEED_B b.toNat ∧ m.sys.powerLoss = false ∧
      (f = .feedA → m.sys.feedA = true ∧ m.sys.feedB = s.m.sys.feedB ∧ m.Reads F.SYS_STATUS_FEED_A 1) ∧
      (f = .feedB → m.sys.feedB = true ∧ m.sys.feedA = s.m.sys.feedA ∧ m.Reads F.SYS_STATUS_FEED_B 1) ∧
      (s.m.sys.mode = 0 → m.Entered 0 1 0 ∧ m.sys.rst = some 0 ∧ m.sc.dram = s.m.sc.dram ∧ m.sc.store = s.m.sc.store) ∧
      (s.m.sys.mode ≠ 0 → m.sys.mode = s.m.sys.mode ∧ m.sc = s.m.sc ∧ m.out = s.m.out) ∧ s.m.RegsOnly m)) ∧
    (s.m.sys.mode ≠ 0 → voltsOf f a.toNat b.toNat < 160 → Completes (.feedLost f a b) s (fun m =>
      m.Reads F.SYS_FEEDS_FEED_A a.toNat ∧ m.Reads F.SYS_FEEDS_FEED_B b.toNat ∧ m.sys.mode = s.m.sys.mode ∧
      (f = .feedA → m.sys.feedA = false ∧ m.sys.feedB = s.m.sys.feedB ∧ m.Reads F.SYS_STATUS_FEED_A 0) ∧
      (f = .feedB → m.sys.feedB = false ∧ m.sys.feedA = s.m.sys.feedA ∧ m.Reads F.SYS_STATUS_FEED_B 0) ∧
      ((m.sys.feedA || m.sys.feedB) = true → m.sys.powerLoss = s.m.sys.powerLoss ∧ m.sc = s.m.sc ∧ m.out = s.m.out) ∧
      ((m.sys.feedA || m.sys.feedB) = false → s.m.sys.powerLoss = false →
        m.sys.powerLoss = true ∧ m.Raised .sys I.SYS_POWER_LOSS ∧ m.sc.flushing = true ∧
        (s.m.sys.mode ≠ 1 → s.m.sys.mode ≠ 13 → m.Recorded 0x0004 a.toNat b.toNat 0)) ∧ s.m.RegsOnly m)) ∧
    (s.m.sys.mode = 0 → Completes (.feedLost f a b) s (fun m => m = s.m)) ∧
    (s.m.sys.mode ≠ 0 → 160 ≤ voltsOf f a.toNat b.toNat → Completes (.feedLost f a b) s (fun m =>
      m.Reads F.SYS_FEEDS_FEED_A a.toNat ∧ m.Reads F.SYS_FEEDS_FEED_B b.toNat ∧ m.sys = s.m.sys ∧ m.sc = s.m.sc ∧
      m.out = s.m.out ∧ s.m.RegsOnly m))

/-- RIDE_THROUGH_EXPIRY, HOLDUP_READY_TIMEOUT and BOOT_TIMEOUT end in SAFE_HALT with the cause R312, R306 and R301 give; in
DORMANT and UPDATE the module stays where it is (R314), in UPDATE with the loss marked; a holdup that is ready ends no wait, where a reset is due no
SAFE_HALT is entered (R294), and a condition that does not hold changes nothing. -/
def Obligations.LimitsHalt : Prop :=
  ∀ s : State, Settled s →
    (s.m.resetDue = true → s.m.sys.mode ≠ 13 → Completes .rideThroughExpiry s (fun m => m = s.m) ∧
      Completes .holdupReadyTimeout s (fun m => m = s.m) ∧ Completes .bootTimeout s (fun m => m = s.m)) ∧
    (s.m.resetDue = false → s.m.sys.powerLoss = true → s.m.sys.mode ∉ [0, 1, 13, 14] → Completes .rideThroughExpiry s (fun m =>
      m.Halted s.m.sys.mode s.m.sys.cluster 10 ∧ s.m.RegsOnly m ∧ s.m.sc.RegsOnly m.sc ∧ s.m.sys.PowerKept m.sys)) ∧
    (s.m.sys.powerLoss = true → s.m.sys.mode = 13 → Completes .rideThroughExpiry s (fun m =>
      m = { s.m with sys := { s.m.sys with rideOver := true } })) ∧
    (s.m.sys.mode = 1 → Completes .rideThroughExpiry s (fun m => m = s.m)) ∧
    (s.m.sys.powerLoss = false → Completes .rideThroughExpiry s (fun m => m = s.m)) ∧
    (s.m.resetDue = false → s.m.sys.holdupWait = true → s.m.sys.holdupReady = false → s.m.sys.mode ∉ [0, 1, 13, 14] →
      Completes .holdupReadyTimeout s (fun m =>
      m.Halted s.m.sys.mode s.m.sys.cluster 13 ∧ m.sys.holdupWait = false ∧ s.m.RegsOnly m ∧ s.m.sc.RegsOnly m.sc)) ∧
    (s.m.sys.holdupWait = false ∨ s.m.sys.holdupReady = true → Completes .holdupReadyTimeout s (fun m => m = s.m)) ∧
    (s.m.resetDue = false → s.m.sys.mode = 2 → Completes .bootTimeout s (fun m =>
      m.Halted 2 s.m.sys.cluster 12 ∧ s.m.RegsOnly m ∧ s.m.sc.RegsOnly m.sc)) ∧
    (s.m.sys.mode ≠ 2 → Completes .bootTimeout s (fun m => m = s.m))

/-- HOLDUP_READY and HOLDUP_MEASUREMENT (R306, R315, R322, R433, R436): what was measured, ready from 40 ms on; HOLDUP_LOW with its record when
readiness is lost in a mode that serves a station; an entry into LOAD that waits in SELF_TEST or in MAINTENANCE for the holdup takes place. TESTING is set
from the discharge to its result; without a discharge, or in a loss of power, there is no result and the charge alone shows.
HOLDUP_EXHAUSTED (R435): without power the mode is OFF and every lane, the Port Hub and the Service Controller's memory are
empty; fuses, the commissioning key, the image slots and what the host holds stay. That an emptied memory reads zero, and that registers without a reset
value in the manual restart at zero, is the model's own choice (assumptions 4 and 6). -/
def Obligations.HoldupKept : Prop :=
  (∀ (s : State) (cap : W16) (pct : BitVec 8), s.m.sys.mode ≠ 0 →
     (s.m.sys.powerLoss = false → s.m.sys.holdupWait = false → Completes (.holdupReady cap pct) s (fun m =>
       m.sys.holdupReady = decide (40 ≤ cap.toNat) ∧ m.Reads F.SYS_HOLDUP_CAPACITY_MS cap.toNat ∧
       m.Reads F.SYS_HOLDUP_CHARGE_PCT pct.toNat ∧ m.Reads F.SYS_HOLDUP_READY (b2n (decide (40 ≤ cap.toNat))) ∧
       m.Reads F.SYS_STATUS_HOLDUP_READY (b2n (decide (40 ≤ cap.toNat))) ∧ m.sys.mode = s.m.sys.mode ∧ m.sc = s.m.sc ∧
       (s.m.sys.holdupReady = true → cap.toNat < 40 → modeActive s.m.sys.mode = true →
         m.Raised .sys I.SYS_HOLDUP_LOW ∧ m.Recorded 0x0005 cap.toNat pct.toNat 0) ∧
       (40 ≤ cap.toNat → m.out = s.m.out) ∧ s.m.RegsOnly m)) ∧
     (s.m.sys.powerLoss = false → s.m.sys.holdupWait = true → s.m.sys.mode ∈ [3, 12] → 40 ≤ cap.toNat →
       Completes (.holdupReady cap pct) s (fun m =>
         m.sys.holdupReady = true ∧ m.Reads F.SYS_HOLDUP_CAPACITY_MS cap.toNat ∧ m.Reads F.SYS_STATUS_HOLDUP_READY 1 ∧
         s.m.LoadEntered m s.m.sys.mode (if s.m.sys.mode = 12 then s.m.fld F.SYS_MODE_RESULT_TAG else 0) ∧
         (s.m.sys.mode = 12 → s.m.sys.pendingReq = none → m.Reads F.SYS_MODE_RESULT_RESULT 2))) ∧
     (s.m.sys.powerLoss = false →
       Completes (.holdupMeasurement none pct) s (fun m => m.Reads F.SYS_HOLDUP_TESTING 1 ∧
         m.Reads F.SYS_HOLDUP_CHARGE_PCT pct.toNat ∧ m.sys = s.m.sys ∧ m.sc = s.m.sc ∧
         m.out = s.m.out ∧ s.m.RegsOnly m) ∧
       (s.m.fld F.SYS_HOLDUP_TESTING = 1 → s.m.sys.holdupWait = false → Completes (.holdupMeasurement (some cap) pct) s (fun m =>
         m.sys.holdupReady = decide (40 ≤ cap.toNat) ∧ m.Reads F.SYS_HOLDUP_CAPACITY_MS cap.toNat ∧ m.Reads F.SYS_HOLDUP_TESTING 0 ∧
         m.Reads F.SYS_HOLDUP_CHARGE_PCT pct.toNat ∧ m.sys.mode = s.m.sys.mode ∧ m.sc = s.m.sc ∧ s.m.RegsOnly m ∧
         (s.m.sys.holdupReady = true → cap.toNat < 40 → modeActive s.m.sys.mode = true →
           m.Raised .sys I.SYS_HOLDUP_LOW ∧ m.Recorded 0x0005 cap.toNat pct.toNat 0) ∧
         (40 ≤ cap.toNat → m.out = s.m.out))) ∧
       (s.m.fld F.SYS_HOLDUP_TESTING = 0 → Completes (.holdupMeasurement (some cap) pct) s (fun m =>
         m = s.m.putAll F.SYS_HOLDUP_CHARGE_PCT pct.toNat))) ∧
     (s.m.sys.powerLoss = true → Completes (.holdupReady cap pct) s (fun m => m = s.m.putAll F.SYS_HOLDUP_CHARGE_PCT pct.toNat) ∧
       ∀ c, Completes (.holdupMeasurement c pct) s (fun m => m = s.m.putAll F.SYS_HOLDUP_CHARGE_PCT pct.toNat))) ∧
  (∀ s : State, Settled s → s.m.sys.powerLoss = true → s.m.sys.mode ≠ 0 → Completes .holdupExhausted s (fun m =>
     m.sys.mode = 0 ∧ m.sys.feedA = false ∧ m.sys.feedB = false ∧ m.sys.key = s.m.sys.key ∧ m.sys.keySet = s.m.sys.keySet ∧
     m.sys.fuse = s.m.sys.fuse ∧ m.ph = { Ph.reset with golden := s.m.ph.golden } ∧ m.fed = Fed.reset ∧ m.dio = Dio.reset ∧
     m.sc.dram = [] ∧ m.sc.slotA = s.m.sc.slotA ∧ m.sc.slotB = s.m.sc.slotB ∧ m.sc.host = s.m.sc.host ∧
     ∀ l, (m.lane l).dram = [] ∧ (m.lane l).sram = [] ∧ (m.lane l).si = [] ∧ (m.lane l).time = Time.reset ∧
       (m.lane l).serial = (s.m.lane l).serial ∧ (m.lane l).golden = (s.m.lane l).golden ∧
       (m.lane l).lifecycle = (s.m.lane l).lifecycle))

/-- POWER_RECOVERY (R313, R314): a feed back for 1 s begins a reset of source 4 in SAFE_HALT with cause 10, and in UPDATE after a loss; with no
feed nothing happens. -/
def Obligations.PowerRecoveryResets : Prop :=
  ∀ s : State,
    ((s.m.sys.feedA || s.m.sys.feedB) = true → s.m.sys.rst = none →
      ((s.m.sys.mode = 13 ∧ s.m.sys.rideOver = true) ∨ (s.m.sys.mode = 14 ∧ s.m.fld F.SYS_HALT_CAUSE = 10)) →
      Completes .powerRecovery s (fun m => m.ResetBegun s.m.sys.mode 4 ∧ m.sys.rideOver = false ∧
        m.sys.pendingReq = s.m.sys.pendingReq ∧ m.ph = s.m.ph ∧
        m.fed = s.m.fed ∧ m.dio = s.m.dio ∧ s.m.sc.RegsOnly m.sc)) ∧
    ((s.m.sys.feedA || s.m.sys.feedB) = false → Completes .powerRecovery s (fun m => m = s.m))

/-- RESET_EDGE (R307, R309): honoured while the input is released, at once in BOOT, SELF_TEST and LOAD, elsewhere at its instant;
an edge on an input that is not released or is stuck changes nothing.
RESET_STUCK, RESET_RELEASED and RESET_ENACT (R307 to R309): an input held for 2,000 samples is stuck and recorded; a released
input is neither; a reset that waits is enacted when 1 ms has passed since its edge, at a boundary or while no origin is agreed, and not before. A
request that waits is not overtaken by the edge (R294). -/
def Obligations.ResetHonoured : Prop :=
  (∀ (s : State) (i : ResetInput),
     (s.m.sys.mode ≠ 0 → s.m.input i = ⟨true, false⟩ → s.m.sys.rst = none →
       (s.m.sys.mode ∉ [2, 3, 4] → Completes (.resetEdge i) s (fun m =>
         m.ResetBegun s.m.sys.mode (inputSource i) ∧ m.input i = ⟨false, false⟩ ∧ m.sys.pendingReq = s.m.sys.pendingReq ∧ m.ph = s.m.ph ∧ m.fed = s.m.fed ∧
         m.dio = s.m.dio ∧ s.m.sc.RegsOnly m.sc)) ∧
       (s.m.sys.mode ∈ [2, 3, 4] → Completes (.resetEdge i) s (fun m =>
         s.m.Rebooted m ∧ m.input i = ⟨false, false⟩ ∧ m.Reads F.SYS_RESET_SOURCE (inputSource i)))) ∧
     (s.m.sys.mode ≠ 0 → s.m.input i = ⟨true, false⟩ → s.m.sys.rst ≠ none → Completes (.resetEdge i) s (fun m =>
       m.input i = ⟨false, false⟩ ∧ m.sys.rst = s.m.sys.rst ∧ m.sys.rstAt = s.m.sys.rstAt ∧ m.sys.mode = s.m.sys.mode ∧
       m.sc = s.m.sc ∧ s.m.RegsOnly m)) ∧
     (s.m.sys.mode = 0 ∨ (s.m.input i).released = false ∨ (s.m.input i).stuck = true →
       Completes (.resetEdge i) s (fun m => m = s.m))) ∧
  (∀ (s : State) (i : ResetInput), s.m.sys.mode ≠ 0 →
     ((s.m.input i).stuck = false → Completes (.resetStuck i) s (fun m =>
       m.input i = ⟨false, true⟩ ∧ m.Raised .sys I.SYS_RESET_STUCK ∧ m.Recorded 0x0003 (inputSource i) 0 0 ∧
       m.Reads F.SYS_STATUS_RESET_STUCK 1 ∧ m.sys.mode = s.m.sys.mode ∧ m.sc = s.m.sc ∧ s.m.RegsOnly m)) ∧
     Completes (.resetReleased i) s (fun m => m.input i = ⟨true, false⟩ ∧
       m.Reads F.SYS_RESET_FRONT_STUCK (b2n m.sys.front.stuck) ∧ m.Reads F.SYS_RESET_REAR_STUCK (b2n m.sys.rear.stuck) ∧
       m.sys.mode = s.m.sys.mode ∧ m.sc = s.m.sc ∧ m.out = s.m.out ∧ s.m.RegsOnly m) ∧
     (s.m.sys.rst ≠ none → 2 ≤ s.m.sys.mode → s.m.sys.boundary = true ∨ s.m.sys.originAgreed = false →
       s.m.sys.rstAt + 1000 ≤ s.m.upUs →
         Completes .resetEnact s (fun m => s.m.Rebooted m ∧ m.Entered s.m.sys.mode 2 s.m.sys.bootTag))) ∧
  (∀ s : State, s.m.sys.rst = none ∨ s.m.sys.mode < 2 ∨ (s.m.sys.boundary = false ∧ s.m.sys.originAgreed = true) ∨
     s.m.upUs < s.m.sys.rstAt + 1000 → Completes .resetEnact s (fun m => m = s.m)) ∧
  (∀ (s : State) (i : ResetInput), s.m.sys.mode = 0 ∨ (s.m.input i).stuck = true → Completes (.resetStuck i) s (fun m => m = s.m))

/-- PLL_LOCKED (R300, R320): the lock and its time in every lane; a module that waits in DORMANT for its PLLs goes to BOOT. -/
def Obligations.PllLockStartsBoot : Prop :=
  ∀ (s : State) (us : BitVec 8), s.m.sys.mode ≠ 0 →
    Completes (.pllLocked us) s (fun m =>
      m.Reads F.CLK_PLL_LOCK_US us.toNat ∧ m.Reads F.CLK_STATUS_PLL_LOCKED 1 ∧ m.Reads F.CLK_STATUS_MONITOR_OK 1 ∧
      m.Raised .clk I.CLK_PLL_LOCK ∧
      (s.m.sys.mode = 1 ∧ s.m.sys.rst.isSome → s.m.Rebooted m) ∧
      (¬(s.m.sys.mode = 1 ∧ s.m.sys.rst.isSome) → m.sys = s.m.sys ∧ m.sc = s.m.sc ∧ s.m.RegsOnly m))

/-- BOOT_COMPLETE and SELF_TEST_COMPLETE (R62, R301 to R306, R439): lanes that read different fuses, or lifecycle BLANK or RETIRED, end in
SAFE_HALT with cause 11, firmware that does not verify with cause 12, and a failed or void run with cause 8 or 9; MANUFACTURE goes to MAINTENANCE;
otherwise BOOT ends with a run of BIST on all four devices and the RTM's table read, and SELF_TEST enters LOAD with the holdup ready, else waits for it.
The table's layout is the model's own (assumption 141). -/
def Obligations.BootAndSelfTestEnd : Prop :=
  ∀ (s : State) (rtm : List Byte),
    (s.m.sys.mode = 2 → s.m.resetDue = false → (s.m.fusesAgree = false ∨ s.m.a.lifecycle = 1 ∨ s.m.a.lifecycle = 5) →
      Completes (.bootComplete rtm) s (fun m => m.Halted 2 s.m.sys.cluster 11)) ∧
    (s.m.sys.mode = 2 → s.m.resetDue = false → s.m.fusesAgree = true → s.m.a.lifecycle ∈ [2, 3, 4] → s.m.sc.verified = false →
      Completes (.bootComplete rtm) s (fun m => m.Halted 2 s.m.sys.cluster 12)) ∧
    (s.m.sys.mode = 2 → s.m.fusesAgree = true → s.m.a.lifecycle ∈ [2, 3, 4] → s.m.sc.verified = true → s.m.sys.bistRun = [] →
      Completes (.bootComplete rtm) s (fun m =>
        m.sys.mode = 3 ∧ m.sys.bistRun = allDevices ∧ m.sys.bistHost = s.m.sys.bistHost ∧ m.sys.rtm = rtmOf rtm ∧ m.Reads F.SYS_STATUS_MODE 3 ∧
        m.Reads F.BST_STATUS_RUNNING 1 ∧ m.Reads F.BST_STATUS_ISOLATED 1 ∧
        ∀ l, (m.lane l).regs.fld F.VOT_LANE_LANE = laneIx l ∧
          (m.lane l).regs.fld F.SYS_STATUS_LIFECYCLE = (s.m.lane l).lifecycle % 8)) ∧
    (s.m.sys.mode = 3 → s.m.sys.bistRun = [] → s.m.sys.holdupWait = false →
      (s.m.sys.bistBad ≠ 0 → s.m.resetDue = false → Completes .selfTestComplete s (fun m => m.Halted 3 s.m.sys.cluster s.m.sys.bistBad)) ∧
      (s.m.sys.bistBad = 0 → s.m.a.lifecycle = 2 → Completes .selfTestComplete s (fun m => m.Entered 3 12 0 ∧ s.m.RegsOnly m)) ∧
      (s.m.sys.bistBad = 0 → s.m.a.lifecycle ≠ 2 → s.m.sys.holdupReady = false →
        Completes .selfTestComplete s (fun m => m = { s.m with sys := { s.m.sys with holdupWait := true } })) ∧
      (s.m.sys.bistBad = 0 → s.m.a.lifecycle ≠ 2 → s.m.sys.holdupReady = true →
        Completes .selfTestComplete s (fun m => s.m.LoadEntered m 3 0)))

/-- The nine rows of mode, lifecycle and session requests (R293, R296 to R299, R305, R310, R320): a word that is authorised and that
every participating lane accepts ends with RESULT 1 in SYS.MODE_RESULT and in the completion slot (2 for a session, which takes effect at
once); a transition waits for its instant, a restart begins a reset of source 3, a lifecycle change waits for its fuse. -/
def Obligations.ModeRequestsAccepted : Prop :=
  ∀ (s : State) (w : W32) (q : BitVec 3), s.m.Grants w q → s.m.Authorised w → s.m.sys.pendingReq = none → s.m.sys.rst = none →
    let waits := fun (c : Instr) => c.wf = true → Completes c s (fun m =>
      m.sys.pendingReq = some w ∧ m.ModeAnswered w 1 1 ∧ m.sys.mode = s.m.sys.mode)
    waits (.modeReqDormant w q) ∧ waits (.returnToService w q) ∧ waits (.modeReqMaintenance w q) ∧ waits (.modeReqUpdate w q) ∧
    ((Instr.restartOrWake w q).wf = true → Completes (.restartOrWake w q) s (fun m =>
      m.ResetBegun s.m.sys.mode 3 ∧ m.sys.bootTag = mqTag w ∧ m.ModeAnswered w 1 1)) ∧
    ((Instr.lifecycleService w q).wf = true → Completes (.lifecycleService w q) s (fun m =>
      m.sys.fuse = some 4 ∧ m.ModeAnswered w 1 1 ∧ m.sys.mode = s.m.sys.mode)) ∧
    ((Instr.lifecycleRetired w q).wf = true → Completes (.lifecycleRetired w q) s (fun m =>
      m.sys.fuse = some 5 ∧ m.ModeAnswered w 1 1 ∧ m.sys.mode = s.m.sys.mode)) ∧
    ((Instr.bistSessionOpen w q).wf = true → Completes (.bistSessionOpen w q) s (fun m =>
      m.sys.session = true ∧ m.Reads F.BST_STATUS_SESSION 1 ∧ m.ModeAnswered w 1 2)) ∧
    ((Instr.bistSessionClose w q).wf = true → Completes (.bistSessionClose w q) s (fun m =>
      m.sys.session = false ∧ m.Reads F.BST_STATUS_SESSION 0 ∧ m.ModeAnswered w 1 2))

/-- The same rows refused (R296, R297): without authorisation the result is 4; a word the lanes refuse alike carries their answer; the
request is not kept, the mode and what waits are as they were, and a refusal without authorisation spends the challenge: a fresh one stands in its place,
or none from the fifth refusal in a row on. -/
def Obligations.ModeRequestsRefused : Prop :=
  ∀ (s : State) (c : Instr) (w : W32) (q : BitVec 3),
    c ∈ [.modeReqDormant w q, .restartOrWake w q, .returnToService w q, .modeReqMaintenance w q, .modeReqUpdate w q,
         .lifecycleService w q, .lifecycleRetired w q, .bistSessionOpen w q, .bistSessionClose w q] →
    (¬ s.m.Authorised w → Completes c s (fun m =>
      m.ModeAnswered w 4 4 ∧ m.Raised .sys I.SYS_AUTH_FAIL ∧ m.sys.pendingReq = s.m.sys.pendingReq ∧ m.sys.mode = s.m.sys.mode ∧
      m.sys.rst = s.m.sys.rst ∧ m.sys.fuse = s.m.sys.fuse ∧
      (s.m.sys.challenge ≠ none → m.sys.refusals = s.m.sys.refusals + 1 ∧
        (s.m.sys.lockout = false → s.m.sys.refusals < 4 → m.sys.lockout = false ∧
          m.sys.challenge = some ((List.range 16).map (Config.challengeByte s.m.sys.free)) ∧ m.sys.free = s.m.sys.free + 1) ∧
        (s.m.sys.lockout = true ∨ 4 ≤ s.m.sys.refusals → m.sys.lockout = true ∧ m.sys.challenge = none)))) ∧
    (∀ a, s.m.Authorised w → s.m.sys.mode ≠ 1 → s.m.participants ≠ [] → a ≠ 1 → a < 16 →
      (∀ l ∈ s.m.participants, s.m.mute q l = false ∧ s.m.mqAnswer w (s.m.lane l) = a) → Completes c s (fun m =>
        m.ModeAnswered w a a ∧ m.sys.pendingReq = s.m.sys.pendingReq ∧ m.sys.mode = s.m.sys.mode ∧ m.sys.rst = s.m.sys.rst ∧
        m.sys.fuse = s.m.sys.fuse ∧ m.sys.session = s.m.sys.session))

/-- REQUESTED_TRANSITION (R20, R62, R292, R294, R306, R318, R320): at the boundary, or at once while no origin is agreed, an accepted request takes
effect with RESULT 2 and its TAG, and in DORMANT nothing is left of a lane's powered domains; a return to service enters LOAD when the holdup is ready,
and first tests the lanes excluded or tested by software since the last SELF_TEST; before the boundary, or while a reset, a
SAFE_HALT or another chapter's transition is due, a request waits. That the replace pin is de-energised in DORMANT (assumption 45) and that unpowered
memory reads zero (assumption 6) is the model's own. -/
def Obligations.RequestedTransitionTakes : Prop :=
  ∀ (s : State) (w : W32), Settled s → s.m.sys.pendingReq = some w →
    (s.m.preempted = false → s.m.chapterDue = false → s.m.sys.boundary = true ∨ s.m.sys.originAgreed = false →
      (mqValue w = 12 → Completes .requestedTransition s (fun m =>
        m.Entered s.m.sys.mode 12 (mqTag w) ∧ m.Reads F.SYS_MODE_RESULT_RESULT 2)) ∧
      (mqValue w = 1 → Completes .requestedTransition s (fun m =>
        m.Entered s.m.sys.mode 1 (mqTag w) ∧ m.Reads F.SYS_MODE_RESULT_RESULT 2 ∧ m.Reads F.CLK_STATUS_PLL_LOCKED 0 ∧
        m.Reads F.DIO_REPLACE_PIN_ENERGISED 0 ∧ m.sc.dram = [] ∧ m.ph = s.m.ph.afterReset ∧ m.dio = s.m.dio.afterReset ∧
        ∀ l, (m.lane l).loaded = false ∧ (m.lane l).si = [] ∧ (m.lane l).rte = Rte.reset ∧ (m.lane l).zvl = Zvl.reset ∧
          (m.lane l).time = (s.m.lane l).time ∧ m.domains l = 0)) ∧
      (mqValue w = 13 → Completes .requestedTransition s (fun m =>
        m.Entered s.m.sys.mode 13 (mqTag w) ∧ m.Reads F.SYS_MODE_RESULT_RESULT 2 ∧ m.ph.ports = [] ∧
        m.sc.regs.fld F.UPD_STATE_STAGE = 1)) ∧
      (mqValue w = 4 → s.m.sys.mode = 12 → s.m.sys.bistRun = [] →
        let left := fun (l : LaneId) => s.m.sys.retest.contains l || decide ((s.m.lane l).role ≠ .serving)
        ((∀ l, left l = false) → s.m.sys.holdupReady = true → Completes .requestedTransition s (fun m =>
          s.m.LoadEntered m 12 (s.m.fld F.SYS_MODE_RESULT_TAG) ∧ m.Reads F.SYS_MODE_RESULT_RESULT 2)) ∧
        ((∀ l, left l = false) → s.m.sys.holdupReady = false → Completes .requestedTransition s (fun m =>
          m.sys.mode = 12 ∧ m.sys.pendingReq = none ∧ m.sys.returning = true ∧ m.sys.holdupWait = true ∧ m.sc = s.m.sc ∧ s.m.RegsOnly m)) ∧
        ((∃ l, left l = true) → Completes .requestedTransition s (fun m =>
          m.sys.mode = 12 ∧ m.sys.pendingReq = none ∧ m.sys.returning = true ∧ (∀ l, Device.lane l ∈ m.sys.bistRun ↔ left l = true) ∧
          ∀ l, left l = true → (m.lane l).regs.fld F.BST_STATUS_RUNNING = 1 ∧ (m.lane l).regs.fld F.BST_STATUS_ISOLATED = 1)))) ∧
    (s.m.preempted = true ∨ s.m.chapterDue = true ∨ (s.m.sys.boundary = false ∧ s.m.sys.originAgreed = true) →
      Completes .requestedTransition s (fun m => m = s.m))

/-- FUSE_BLOWN, CHALLENGE_EXPIRY and AUTH_LOCKOUT_END (R297, R299): the new lifecycle state in every lane with a restart, the key erased
at RETIRED; a fresh challenge of sixteen bytes for an expired one; the end of the lockout offers one again in SERVICE.
COMMISSIONING_KEY_STORE (R297, R357): in COMMISSION, with the seven other words written, the key is the eight words most significant byte
first and is set; without them the word waits; elsewhere, or with a key set, nothing but the error count changes. -/
def Obligations.FusesAndKeys : Prop :=
  (∀ s : State,
     (∀ v, s.m.sys.fuse = some v → s.m.sys.mode ∉ [0, 2, 3, 4] → s.m.sys.rst = none → Completes .fuseBlown s (fun m =>
       m.ResetBegun s.m.sys.mode 3 ∧ m.sys.fuse = none ∧ (∀ l, (m.lane l).lifecycle = v) ∧
       (v = 5 → m.sys.key = [] ∧ m.sys.keySet = false) ∧ (v ≠ 5 → m.sys.key = s.m.sys.key ∧ m.sys.keySet = s.m.sys.keySet))) ∧
     (s.m.sys.challenge ≠ none → s.m.sys.lockout = false → s.m.a.lifecycle = 4 → Completes .challengeExpiry s (fun m =>
       m.sys.challenge = some ((List.range 16).map (Config.challengeByte s.m.sys.free)) ∧ m.sys.free = s.m.sys.free + 1 ∧
       m.sc = s.m.sc ∧ m.out = s.m.out ∧ s.m.RegsOnly m)) ∧
     (s.m.sys.challenge = none → Completes .challengeExpiry s (fun m => m = s.m)) ∧
     (s.m.sys.lockout = true → Completes .authLockoutEnd s (fun m =>
       m.sys.lockout = false ∧ m.sys.refusals = 0 ∧ (m.sys.challenge ≠ none ↔ s.m.a.lifecycle = 4) ∧ m.sc = s.m.sc ∧
       m.out = s.m.out ∧ s.m.RegsOnly m))) ∧
  (∀ (s : State) (w : W32),
     (s.m.a.lifecycle = 3 → s.m.sys.keySet = false → (∀ k < 7, (Store.get noShadow s.m.sc.keys k).isSome = true) →
       Completes (.commissioningKeyStore w) s (fun m => m.sys.keySet = true ∧ m.sc.keys = [] ∧
         m.sys.key = (List.range 7).flatMap (fun k => be 4 ((Store.get noShadow s.m.sc.keys k).getD 0).toNat) ++ be 4 w.toNat ∧
         m.sc.regs.fld F.HBR_STATUS_KEY_SET = 1 ∧ (∀ l, m.lane l = s.m.lane l) ∧ m.sys.mode = s.m.sys.mode)) ∧
     (s.m.a.lifecycle = 3 → s.m.sys.keySet = false → (∃ k < 7, Store.get noShadow s.m.sc.keys k = none) →
       Completes (.commissioningKeyStore w) s (fun m => m.sys = s.m.sys ∧ Store.get noShadow m.sc.keys 7 = some w)) ∧
     (s.m.a.lifecycle ≠ 3 ∨ s.m.sys.keySet = true → Completes (.commissioningKeyStore w) s (fun m => m.sys = s.m.sys ∧
       m.sc.keys = s.m.sc.keys ∧ m.sc.regs.get (blkBase .hbr + 0x24) = 0x11C)))

/-- IMAGE_STREAM_DONE (R31, R62 step 2): the staging region of every lane whose host link is up and that has no outcome yet holds the slot's image byte
for byte but for the bytes that came to it otherwise, and nothing outside its region has changed; another lane is as it was; at another step, and
outside LOAD, nothing happens.
IMAGE_SCAN_DONE (R63): a lane's outcome is kept; with three outcomes LOAD goes to step 6, or to MAINTENANCE with the fault they
agree on, or back to step 2 for one lane; at another step, outside LOAD, and of a lane that has its outcome nothing happens. The judgement is that of
R63: three lanes with one fault code, that fault; with no fault and one pair of IMAGE_ID and seal, the stored seal passes and another is fault 3; of two
that agree against a third, their fault, fault 3, or the third lane streamed once more and then fault 9; no two alike, fault 9. -/
def Obligations.LoadStreamsAndJudges : Prop :=
  (∀ (s : State) (ds : List (LaneId × Nat × Byte)),
     (s.m.sys.mode = 4 → s.m.fld F.SYS_IMG_LOAD_STEP = 2 →
       Completes (.imageStreamDone ds) s (fun m => m.Reads F.SYS_IMG_LOAD_STEP 3 ∧ m.sys = s.m.sys ∧ m.ph = s.m.ph ∧ m.sc = s.m.sc ∧
         m.out = s.m.out ∧
         (∀ l k, (s.m.lane l).outcome = none → (s.m.lane l).hostLink = true → k < (s.m.slotOf s.m.sys.slot).len → k < 0x80000000 →
           (∀ d ∈ ds, d.1 = l → d.2.1 ≠ k) →
           (m.lane l).dram.byte ((s.m.lane l).stagingBase + k) = (s.m.slotOf s.m.sys.slot).bytes.byte k) ∧
         (∀ l a, a < (s.m.lane l).stagingBase ∨ (s.m.lane l).stagingBase + 0x80000000 ≤ a →
           (m.lane l).dram.byte a = (s.m.lane l).dram.byte a) ∧
         ∀ l, m.lane l = { s.m.lane l with dram := (m.lane l).dram, regs := (m.lane l).regs } ∧
           ((s.m.lane l).outcome ≠ none ∨ (s.m.lane l).hostLink = false → (m.lane l).dram = (s.m.lane l).dram))) ∧
     (s.m.sys.mode ≠ 4 ∨ s.m.fld F.SYS_IMG_LOAD_STEP ≠ 2 → Completes (.imageStreamDone ds) s (fun m => m = s.m))) ∧
  (∀ (s : State) (l : LaneId), s.m.sys.mode = 4 → s.m.fld F.SYS_IMG_LOAD_STEP = 3 → (s.m.lane l).outcome = none →
     let n := s.m.updLane l (fun x => { x with outcome := some x.scanOutcome })
     ((∃ k, (n.lane k).outcome = none) → Completes (.imageScanDone l) s (fun m => m = n)) ∧
     ((∀ k, (n.lane k).outcome ≠ none) →
       (n.judgeLoad.1 = .pass → Completes (.imageScanDone l) s (fun m => m.Reads F.SYS_IMG_LOAD_STEP 6 ∧ m.sys = s.m.sys ∧
         m.sc = s.m.sc ∧ m.ph = s.m.ph)) ∧
       (∀ f, n.judgeLoad.1 = .fault f → Completes (.imageScanDone l) s (fun m =>
         m.Entered 4 12 0 ∧ m.Reads F.SYS_IMG_LOAD_FAULT (f % 16) ∧ m.sc.regs.fld F.UPD_IMG_SLOT_STATUS_LOADING = 0)) ∧
       (∀ k, n.judgeLoad.1 = .retry k → Completes (.imageScanDone l) s (fun m =>
         m.Reads F.SYS_IMG_LOAD_STEP 2 ∧ (m.lane k).outcome = none ∧ m.sys = { s.m.sys with retried := true } ∧ m.sc = s.m.sc)))) ∧
  (∀ m : Mach,
     let id := fun (k : LaneId) => (m.lane k).stagingImg.imageId
     let stored := fun (k : LaneId) => (m.lane k).stagingImg.storedSeal
     let found := fun (k : LaneId) (f : Nat) => ∃ v, (m.lane k).outcome = some (f, v)
     (∀ f, f ≠ 0 → (∀ k, found k f) → m.judgeLoad.1 = .fault f) ∧
     (∀ v t, (∀ k, (m.lane k).outcome = some (0, v) ∧ stored k = t ∧ id k = id .a) →
       (v.toNat = t → m.judgeLoad.1 = .pass) ∧ (v.toNat ≠ t → m.judgeLoad.1 = .fault 3)) ∧
     (∀ k f g, f ≠ 0 → g ≠ f → found k g → (∀ j, j ≠ k → found j f) → m.judgeLoad.1 = .fault f) ∧
     (∀ k g w v t i, (m.lane k).outcome = some (g, w) → (g ≠ 0 ∨ w ≠ v ∨ id k ≠ i) →
       (∀ j, j ≠ k → (m.lane j).outcome = some (0, v) ∧ stored j = t ∧ id j = i) →
       (v.toNat ≠ t → m.judgeLoad.1 = .fault 3) ∧ (v.toNat = t → m.sys.retried = false → m.judgeLoad.1 = .retry k) ∧
       (v.toNat = t → m.sys.retried = true → m.judgeLoad.1 = .fault 9)) ∧
     (∀ f g h : Nat × W64, m.a.outcome = some f → m.b.outcome = some g → m.c.outcome = some h →
       (f.1 ≠ g.1 ∨ (f.1 = 0 ∧ f.2 ≠ g.2)) → (g.1 ≠ h.1 ∨ (g.1 = 0 ∧ g.2 ≠ h.2)) → (f.1 ≠ h.1 ∨ (f.1 = 0 ∧ f.2 ≠ h.2)) →
       m.judgeLoad.1 = .fault 9)) ∧
  (∀ (s : State) (l : LaneId), s.m.sys.mode ≠ 4 ∨ s.m.fld F.SYS_IMG_LOAD_STEP ≠ 3 ∨ (s.m.lane l).outcome ≠ none →
     Completes (.imageScanDone l) s (fun m => m = s.m))

/-- WORKING_TABLES_BUILT and ON_DIE_COMPARE_DONE (R41, R62 step 6, R68, R141, R242): with equal seals every lane's active image is the staged
one and its State Image the first of it; three different seals are fault 9; copies that differ are fault 13; else the cluster origin is
agreed, and a module without a partner enters PROVING with its demands set. -/
def Obligations.TablesThenProving : Prop :=
  ∀ (s : State) (u v w : W64), s.m.sys.mode = 4 → s.m.fld F.SYS_IMG_LOAD_STEP = 6 →
    (s.m.sys.step6 = 0 → u = v → v = w → Completes (.workingTablesBuilt u v w) s (fun m => m.sys.mode = 4 ∧ m.sys.step6 = 1 ∧
      ∀ l, (m.lane l).activeHi = !(s.m.lane l).activeHi ∧ (m.lane l).wtSeal = u ∧ (m.lane l).si = (m.lane l).img.firstSi ∧
        (m.lane l).dram = (s.m.lane l).dram ∧ (m.lane l).rte.queue = [])) ∧
    (s.m.sys.step6 = 0 → u ≠ v → v ≠ w → u ≠ w → Completes (.workingTablesBuilt u v w) s (fun m =>
      m.Entered 4 12 0 ∧ m.Reads F.SYS_IMG_LOAD_FAULT 9)) ∧
    (s.m.sys.step6 = 1 → (∃ l, (s.m.lane l).onDieOk = false) → Completes .onDieCompareDone s (fun m =>
      m.Entered 4 12 0 ∧ m.Reads F.SYS_IMG_LOAD_FAULT 13)) ∧
    (s.m.sys.step6 = 1 → (∀ l, (s.m.lane l).onDieOk = true) → s.m.paired = false →
      s.m.leadLane.img.exportCount + s.m.leadLane.img.importCount = 0 → Completes .onDieCompareDone s (fun m =>
        m.Entered 4 5 0 ∧ m.sys.originAgreed = true ∧ m.sys.cluster = 0 ∧ m.nextSeq = 1 ∧
        ∀ l, (m.lane l).loaded = true ∧ (m.lane l).si = (s.m.lane l).setDemands.si ∧
          (m.lane l).time.origin = median3 (s.m.a.time.at s.m.a.time.count + 1000000)
            (s.m.b.time.at s.m.b.time.count + 1000000) (s.m.c.time.at s.m.c.time.count + 1000000)))

/-- FED_TIME_ALIGNED, START_WAIT_EXPIRY and PAIR_LISTEN_END (R273, R280): an aligned origin is a multiple of 4 ms; a module whose wait
expires counts as unaligned; a unit that hears no partner goes on alone. Each ends LOAD in PROVING. -/
def Obligations.LoadWaitsEnd : Prop :=
  ∀ s : State, s.m.sys.mode = 4 →
    (s.m.sys.step6 = 3 → s.m.paired = false →
      (s.m.fed.ptpValid = true → Completes .fedTimeAligned s (fun m => m.Entered 4 5 0 ∧ m.sys.originAgreed = true ∧
        ∀ l, (m.lane l).loaded = true ∧ (m.lane l).time.origin % 4000000 = 0)) ∧
      (s.m.fed.ptpValid = false → Completes .startWaitExpiry s (fun m => m.Entered 4 5 0 ∧ m.sys.originAgreed = true ∧
        m.fed.unaligned = true ∧ m.Reads F.FED_STATUS_UNALIGNED 1))) ∧
    (s.m.sys.step6 = 4 → Completes .pairListenEnd s (fun m => m.Entered 4 5 0 ∧ m.nextSeq = 1 ∧
      ∀ l, (m.lane l).loaded = true ∧ (m.lane l).si = (s.m.lane l).setDemands.si))

/-- CLUSTER_BOUNDARY and EXPRESS_PASS (R131, R138, R242, R309): the boundary starts the next cluster, that of cluster 0 after the agreement of the
origin, and rinses the engines; the express pass starts the next basic cycle in every lane, with the gate substituting while a reset waits, SYS.FEEDS
shows both feeds (R431), and the lanes' counters stand at the first tick that reaches the mark. Neither changes the mode, a State Image or a DRAM;
before the origin there is no boundary, and a pass is only 250 µs of time. That the counters stand at the first tick at or past the mark, and the
12,500 counts before the origin, are the model's own (assumption 33).
At a pass (R16, R124, R125, R130) a slot passes exactly when the items of R124 hold; a signal has forbid code 0 only as the kind 6 object of the one
slot that names it, which passes, and code 3 otherwise; a restricted object and a point that a COLLIDED route names have code 3; and every command
built after the pass has come through the guard gate: none is more permissive than the RTE permits, and where the code stands against it, it is
GUARD_COMMAND.
FULL_SWEEP and ZVL_ENTERED_RESET (R126, R132, R133, R295): only in basic cycle 14
of a mode with express passes does a sweep run, and it shows its time; a fault its checks find is the lane's self-fault 6; a route whose claims passed
sixteen times with none ended is no longer entered. Neither touches a State Image, a queue or the mode. -/
def Obligations.BoundaryPassAndSweep : Prop :=
  (∀ (s : State) (i : PassInput),
     (s.m.sys.originAgreed = true → Completes .clusterBoundary s (fun m =>
       m.sys.cluster = (if s.m.sys.preOrigin then 0 else s.m.sys.cluster + 1) ∧ m.sys.bc = 0 ∧ m.sys.boundary = true ∧
       m.sys.preOrigin = false ∧ m.sys.mode = s.m.sys.mode ∧ m.sys.active = modeActive s.m.sys.mode ∧
       m.Reads F.RTE_CLUSTER_LO_CLUSTER_LO (m.sys.cluster % 2 ^ 32) ∧
       ∀ l, (m.lane l).si = (s.m.lane l).si ∧ (m.lane l).dram = (s.m.lane l).dram ∧ (m.lane l).rte.queue = (s.m.lane l).rte.queue ∧
         (s.m.cycling = true → (s.m.lane l).follows = true → (s.m.lane l).loaded = true →
           (m.lane l).rte = (s.m.lane l).rte.rinse))) ∧
     (s.m.sys.originAgreed = false → Completes .clusterBoundary s (fun m => m = s.m)) ∧
     (s.m.sys.originAgreed = true → s.m.sys.preOrigin = false → Completes (.expressPass i) s (fun m =>
       m.sys.bc = s.m.nextBasic ∧ m.sys.boundary = false ∧ m.sys.cluster = s.m.sys.cluster ∧ m.sys.mode = s.m.sys.mode ∧
       m.Reads F.RTE_CYCLE_BASIC (s.m.nextBasic % 16) ∧
       ∀ l, (m.lane l).regs.get F.SYS_FEEDS_FEED_A.addr = i.feeds ∧ (m.lane l).si = (s.m.lane l).si ∧
         (m.lane l).dram = (s.m.lane l).dram ∧ (m.lane l).rte.queue = (s.m.lane l).rte.queue ∧
         (m.lane l).time.count = max (s.m.lane l).time.count
           ((s.m.lane l).time.markAt ((s.m.lane l).time.origin + (s.m.sys.cluster * 16 + s.m.nextBasic) * 250000)) ∧
         (s.m.sys.rst ≠ none → (s.m.lane l).follows = true → (s.m.lane l).loaded = true → (m.lane l).zvl.gating = true))) ∧
     (s.m.sys.originAgreed = true → s.m.sys.preOrigin = false → modePasses s.m.sys.mode = true → Completes (.expressPass i) s (fun m =>
       ∀ l, (s.m.lane l).follows = true → (s.m.lane l).loaded = true →
         let x := m.lane l
         (s.m.nextBasic ≠ 14 → x.AllGated) ∧
         (∀ e ∈ x.zvl.slotList, e.2.passes = true ↔ x.MayPass e.2) ∧
         (∀ o ∈ x.img.objects,
           (x.img.cls o = 3 → Store.get noCode x.zvl.forbid o = 3 ∨ (Store.get noCode x.zvl.forbid o = 0 ∧
             (∀ r ∈ x.zvl.slotless, x.img.rEntry r ≠ o) ∧
             ∃ e ∈ x.zvl.slotList, e.2.guarded = o ∧ e.2.passes = true ∧ ∀ f ∈ x.zvl.slotList, f.2.guarded = o → f = e)) ∧
           (x.img.cls o ≠ 3 → x.zRestricted o = true → Store.get noCode x.zvl.forbid o = 3) ∧
           (x.img.cls o = 2 → (∃ e ∈ x.zvl.slotList, e.2.collided = true ∧ ∃ p ∈ e.2.positions, p.1 = o) →
             Store.get noCode x.zvl.forbid o = 3)))) ∧
     (s.m.sys.originAgreed = false ∨ s.m.sys.preOrigin = true →
       (s.m.sys.mode = 0 → Completes (.expressPass i) s (fun m => m = s.m)) ∧
       (s.m.sys.mode ≠ 0 → Completes (.expressPass i) s (fun m => m.sys.mode = s.m.sys.mode ∧ m.sys.bc = s.m.sys.bc ∧
         m.sys.boundary = s.m.sys.boundary ∧ m.ph = s.m.ph ∧ m.dio = s.m.dio ∧ ∀ l, (m.lane l).si = (s.m.lane l).si ∧
           (m.lane l).rte = (s.m.lane l).rte ∧ (m.lane l).zvl = (s.m.lane l).zvl ∧
           (m.lane l).time.count = ((s.m.lane l).time.count + 12500) % 2 ^ 64)))) ∧
  (∀ (s : State) (us : BitVec 8) (r : Nat),
     (s.m.sys.bc = 14 → modePasses s.m.sys.mode = true → Completes (.fullSweep [] us) s (fun m =>
       m.sys = s.m.sys ∧ m.ph = s.m.ph ∧ m.sc = s.m.sc ∧ s.m.SentOnly m [.zvl] ∧
       ∀ l, (m.lane l).si = (s.m.lane l).si ∧ (m.lane l).rte = (s.m.lane l).rte ∧
         ((s.m.lane l).follows = true → (s.m.lane l).loaded = true →
           (m.lane l).regs.fld F.ZVL_SWEEP_LAST_US = us.toNat) ∧
         (((s.m.lane l).follows && (s.m.lane l).loaded) = false → m.lane l = s.m.lane l))) ∧
     (s.m.sys.bc ≠ 14 ∨ modePasses s.m.sys.mode = false → ∀ fs, Completes (.fullSweep fs us) s (fun m => m = s.m)) ∧
     (s.m.sys.bc = 14 → modePasses s.m.sys.mode = true → ∀ fs, Completes (.fullSweep fs us) s (fun m =>
       m.sys = s.m.sys ∧ ∀ l, (m.lane l).si = (s.m.lane l).si ∧
         ((s.m.lane l).follows = true → (s.m.lane l).loaded = true → (∃ f ∈ fs, f.1 = l) →
           6 ∈ (m.lane l).selfFaults ∧ (m.lane l).regs.fld F.ZVL_STATUS_FAULT = 1))) ∧
     Completes (.zvlEnteredReset r) s (fun m => m.sys = s.m.sys ∧ m.ph = s.m.ph ∧ m.sc = s.m.sc ∧ m.fed = s.m.fed ∧
       m.dio = s.m.dio ∧ m.out = s.m.out ∧
       ∀ l, m.lane l = (if (s.m.lane l).follows && (s.m.lane l).loaded then 
         { s.m.lane l with zvl := ((s.m.lane l).zvl.mapSlots (fun t =>
           if t.route = r ∧ t.clears ≥ 16 ∧ t.ended = 0 then { t with entered := false, seen := 0 } else t)) }
         else s.m.lane l)))

/-- GATHER (R85): in basic cycle 0 of a cycle that runs, every lane that runs it takes the same cut, freezes its live inputs and counts
entries up to the cut as its own; no State Image changes.
EVALUATION_DONE and EVALUATE_END (R87, R89): a context that finishes by 3,250 µs hands its work over, in its lane alone; at the end the
contexts are empty and the supervisions not completed are deferred; neither changes a State Image. -/
def Obligations.GatherAndEvaluate : Prop :=
  (∀ s : State,
     (s.m.cycling = true → s.m.sys.bc = 0 → Completes .gather s (fun m =>
       m.sys = s.m.sys ∧ m.ph = s.m.ph ∧ m.sc = s.m.sc ∧ m.out = s.m.out ∧
       ∀ l, (m.lane l).si = (s.m.lane l).si ∧ (m.lane l).live = (s.m.lane l).live ∧
         ((s.m.lane l).follows = true → (s.m.lane l).loaded = true →
           (m.lane l).rte.gathered = true ∧ (m.lane l).rte.frozen = (s.m.lane l).live ∧
           (m.lane l).rte.cut = lowestSeq (s.m.followers.map (fun k => (s.m.lane k).highest)) ∧
           (m.lane l).regs.fld F.RTE_QUEUE_CUT_CUT = (m.lane l).rte.cut % 2 ^ 32 ∧
           ∀ q ∈ (s.m.lane l).rte.queue, q.gathered = false → upTo (m.lane l).rte.cut q.seq = true →
             { q with gathered := true } ∈ (m.lane l).rte.queue))) ∧
     (s.m.cycling = false ∨ s.m.sys.bc ≠ 0 → Completes .gather s (fun m => m = s.m))) ∧
  (∀ (s : State) (l : LaneId) (ctx t : Nat),
     (∀ w, t ≤ 3250 → Store.get noWork (s.m.lane l).rte.contexts ctx = some w → Completes (.evaluationDone l ctx t) s (fun m =>
       (m.lane l).rte.done = (s.m.lane l).rte.done ++ [w] ∧ (m.lane l).si = (s.m.lane l).si ∧ (∀ k, k ≠ l → m.lane k = s.m.lane k) ∧
       m.sys = s.m.sys ∧ m.ph = s.m.ph ∧ m.sc = s.m.sc)) ∧
     (3250 < t → Completes (.evaluationDone l ctx t) s (fun m => m = s.m)) ∧
     Completes .evaluateEnd s (fun m => m.sys = s.m.sys ∧ m.ph = s.m.ph ∧ m.sc = s.m.sc ∧ s.m.SentOnly m [.rte] ∧
       ∀ k, (m.lane k).si = (s.m.lane k).si ∧
         ((s.m.lane k).follows = true → (s.m.lane k).loaded = true → (s.m.lane k).rte.gathered = true →
           (m.lane k).rte.contexts = [] ∧ (m.lane k).rte.order = [] ∧
           (m.lane k).rte.deferred = (s.m.lane k).rte.due.filter (fun r => !(s.m.lane k).rte.done.contains (Work.sup r))) ∧
         (((s.m.lane k).follows && (s.m.lane k).loaded && (s.m.lane k).rte.gathered) = false → m.lane k = s.m.lane k)))

/-- OVERRUN, TIMER_EXPIRY and REQUEST_EXPIRY (R22, R51, R80, R89): a request dropped three times is rejected with OVERRUN, with its record; a
running timer whose count is zero is expired in the write list of the staged Press, and no other record of it changes; a stored SET_ROUTE whose
lifetime has passed leaves the queue with EXPIRED and the reason of its last blocking. What a Press has staged carries the outcome; no committed State
Image changes here. That TIMER_EXPIRY acts on the staged Press is the model's own choice (assumption 99). -/
def Obligations.ExpiriesAtPress : Prop :=
  ∀ (s : State),
    (∀ (n : W32) (q : Req), s.m.leadLane.rte.queue.find? (fun r => decide (r.seq = n.toNat) && decide (3 ≤ r.drops)) = some q →
      Completes (.overrun n) s (fun m => m.Raised .rte I.RTE_OVERRUN ∧ m.Recorded 0x2003 q.mbx n.toNat (rqTag q.word) ∧
        m.sys = s.m.sys ∧ m.ph = s.m.ph ∧ m.sc = s.m.sc ∧ ∀ l, (m.lane l).si = (s.m.lane l).si ∧
          ∀ (r : Req) (p : PressOut), (s.m.lane l).follows = true → (s.m.lane l).loaded = true → (s.m.lane l).rte.press = some p →
            (s.m.lane l).rte.queue.find? (fun r => decide (r.seq = n.toNat) && decide (3 ≤ r.drops)) = some r →
            ∃ p', (m.lane l).rte.press = some p' ∧ endResult s.m.sys.cluster (r, 6, 14) ∈ p'.results ∧ p'.si = p.si ∧
              p'.queue = p.queue.filter (fun e => decide (e.seq ≠ n.toNat)))) ∧
    (∀ (o slot : Nat), Completes (.timerExpiry o slot) s (fun m => m.sys = s.m.sys ∧ m.ph = s.m.ph ∧ m.sc = s.m.sc ∧ m.out = s.m.out ∧
      ∀ l, m.lane l = { s.m.lane l with rte := { (s.m.lane l).rte with press := (m.lane l).rte.press } } ∧
        (((s.m.lane l).follows && (s.m.lane l).loaded) = false ∨ (s.m.lane l).rte.press = none → m.lane l = s.m.lane l) ∧
        (∀ p, (s.m.lane l).follows = true → (s.m.lane l).loaded = true → (s.m.lane l).rte.press = some p →
          ∃ p', (m.lane l).rte.press = some p' ∧ p'.queue = p.queue ∧ p'.results = p.results ∧
            SI.at p'.si o = (SI.at p.si o).expire slot ∧ ∀ k, k ≠ o → SI.at p'.si k = SI.at p.si k))) ∧
    (∀ (o : Nat) (l : LaneId) (p : PressOut), (s.m.lane l).follows = true → (s.m.lane l).loaded = true →
      (s.m.lane l).rte.press = some p →
      ((SI.at p.si o).timer0.state = 1 → (SI.at p.si o).timer0.remaining = 0 → Completes (.timerExpiry o 0) s (fun m =>
        ∃ p', (m.lane l).rte.press = some p' ∧ (SI.at p'.si o).timer0.state = 2)) ∧
      ((SI.at p.si o).timer1.state = 1 → (SI.at p.si o).timer1.remaining = 0 → Completes (.timerExpiry o 1) s (fun m =>
        ∃ p', (m.lane l).rte.press = some p' ∧ (SI.at p'.si o).timer1.state = 2))) ∧
    (∀ (n : W32) (l : LaneId) (q : Req), (s.m.lane l).follows = true → (s.m.lane l).loaded = true → (s.m.lane l).rte.press = none →
      (s.m.lane l).rte.queue.find? (fun r => decide (r.seq = n.toNat) && decide (rqType r.word = 1) && rqStore r.word &&
        !r.follower && decide ((s.m.lane l).regs.fld F.RTE_REQ_LIFETIME_CLUSTERS ≤ r.clusters)) = some q →
      Completes (.requestExpiry n) s (fun m =>
        (m.lane l).rte.queue = (s.m.lane l).rte.queue.filter (fun e => decide (e.seq ≠ n.toNat)) ∧
        (m.lane l).rte.report = (s.m.lane l).rte.report ++ [endResult s.m.sys.cluster (q, 7, q.reason)] ∧
        (m.lane l).si = (s.m.lane l).si ∧ m.sys = s.m.sys ∧ m.sc = s.m.sc)) ∧
    (∀ (n : W32) (l : LaneId) (q e : Req) (p : PressOut), (s.m.lane l).follows = true → (s.m.lane l).loaded = true →
      (s.m.lane l).rte.press = some p →
      (s.m.lane l).rte.queue.find? (fun r => decide (r.seq = n.toNat) && decide (rqType r.word = 1) && rqStore r.word &&
        !r.follower && decide ((s.m.lane l).regs.fld F.RTE_REQ_LIFETIME_CLUSTERS ≤ r.clusters)) = some q →
      p.queue.find? (fun r => decide (r.seq = n.toNat) && !r.follower) = some e →
      Completes (.requestExpiry n) s (fun m =>
        (∃ p', (m.lane l).rte.press = some p' ∧ endResult s.m.sys.cluster (e, 7, e.reason) ∈ p'.results ∧ p'.si = p.si ∧
          p'.queue = p.queue.filter (fun r => decide (r.seq ≠ n.toNat))) ∧
        (m.lane l).rte.queue = (s.m.lane l).rte.queue ∧ (m.lane l).si = (s.m.lane l).si ∧ m.sys = s.m.sys ∧ m.sc = s.m.sc))

/-- PRESS (R71, R90, R287): in basic cycle 13 every lane that runs the cycle stages the Press it has built and changes no State Image; a
module in PROVING whose staged Press leaves no demand goes to SERVICE_3; in TAKEOVER the Press at which every node of the Seedbank is back in
communication, or that the limit has reached, ends it in SERVICE_3, or in SERVICE_2 with fewer than three lanes; in another basic cycle nothing happens.
What the Press holds of the requests (R90, R94 to R111): request results follow the supervision in REQ_SEQ order, and step 5 leaves locks, slots,
restrictions and timers as they are but for LOCK_KIND 2. SET_ROUTE that ends LOCKED has passed the checks of R94 and R91 and has written its locks;
one that does not changes no record. CANCEL_ROUTE refuses what R108 refuses, releases every lock or starts the timer at LOCK_KIND 3. THROW_POINT
commands the position or says why not. A restriction or a lift writes its RESTRICT bit on its objects and on no other. -/
def Obligations.PressStages : Prop :=
  (∀ (x : Lane) (z : Fz) (st : Option (List (Nat × Nat))) (q : Req), x.rte.queue = [q] →
     (x.pressTo4 z st).s = ((x.pressTo3 z st).request z x.rte.done q).s ∧
     (x.pressTo4 z st).ends = ((x.pressTo3 z st).request z x.rte.done q).ends) ∧
  (∀ (x : Lane) (cluster o : Nat),
     let b := SI.at (x.pressTo4 (x.fz cluster) (some (x.settled (x.fz cluster)))).s o
     let r := SI.at (x.buildPress cluster).si o
     r.restrict = b.restrict ∧ r.routeLock = b.routeLock ∧ r.proving = b.proving ∧ r.release = b.release ∧
     r.overlapList = b.overlapList ∧ r.flankList = b.flankList ∧ r.timer0 = b.timer0 ∧ r.timer1 = b.timer1 ∧
     (r.lockKind = b.lockKind ∨ (b.lockKind ≠ 0 ∧ r.lockKind = 2))) ∧
  (∀ (z : Fz) (done : List Work) (p : PS) (q : Req), q ∈ p.queue → q.follower = false → (∀ e ∈ p.ends, e.1 ≠ q) →
     let i := z.i
     let n := p.request z done q
     let t := rqType q.word
     let r := rqTarget q.word
     let es := i.rEntry r
     let ends := fun (outcome reason : Nat) => (q, outcome, reason) ∈ n.ends ∧ ∀ x ∈ n.queue, x.seq ≠ q.seq
     let marks := fun (b : Bool) => ends 3 0 ∧ ∀ o, SI.at n.s o = (if o ∈ i.restrictTargets q.word then
       { SI.at p.s o with restrict := BitVec.ofNat 8 (putBit (SI.at p.s o).restrict.toNat (restrictBit t) b) } else SI.at p.s o)
     (isRestriction t = true → q.gathered = true → marks true) ∧
     (Work.req q.seq ∈ done → q.drops < 3 →
       (t ∈ [12, 13, 14] → marks false) ∧
       (t = 3 →
         (z.throwPoint r (rqOption q.word) = .throwTo none → ends 3 0 ∧ n.s = p.s) ∧
         (∀ k c, z.throwPoint r (rqOption q.word) = .block k c → ends 6 k ∧ n.s = p.s) ∧
         (∀ pos, z.throwPoint r (rqOption q.word) = .throwTo (some pos) → r ∉ p.written → ends 3 0 ∧
           SI.at n.s r = (SI.at p.s r).setCommand i r pos ∧ ∀ o, o ≠ r → SI.at n.s o = SI.at p.s o)) ∧
       (t = 2 →
         (i.isLocked z.f r = false → ends 6 11 ∧ n.s = p.s) ∧
         (i.isLocked z.f r = true → i.entered z.f r = true → ends 6 12 ∧ n.s = p.s) ∧
         (i.isLocked z.f r = true → i.entered z.f r = false →
           ((z.at es).lockKind = 3 → ends 6 13 ∧ n.s = p.s) ∧
           ((z.at es).lockKind ≠ 3 →
             let free := (z.at es).lockKind = 1 ∨ ((i.rule r).cancel = 0 ∧ ∀ o ∈ i.approach r, z.occupied o = false)
             (p.written = [] → free → ends 5 0 ∧ (SI.at n.s es).command = i.restrictive es % 65536 ∧
               ∀ o ∈ es :: (i.elems r).map (·.obj), (SI.at n.s o).routeHeld r = false) ∧
             (p.written = [] → ¬ free → (q, 4, 0) ∈ n.ends ∧ (SI.at n.s es).command = i.restrictive es % 65536 ∧
               (SI.at n.s es).timer0 = ⟨1, r, i.timerClusters es 0⟩ ∧
               ∀ o ∈ es :: (i.elems r).map (·.obj), (SI.at p.s o).routeHeld r = true → (SI.at n.s o).lockKind = 3)))) ∧
       (t = 1 → i.isLocked z.f r = false →
         ((q, 1, 0) ∉ n.ends → n.s = p.s) ∧
         (∀ k c, z.setRoute r (rqOption q.word) = .block k c → (c = true ∨ rqStore q.word = false → ends 6 k) ∧
           (c = false → rqStore q.word = true → ∃ x ∈ n.queue, x.seq = q.seq ∧ x.follower = false ∧ x.reason = k)) ∧
         ((q, 1, 0) ∈ n.ends →
           (∀ o ∈ i.routeObjects r, (z.at o).demand = false ∧ (z.at o).restrict = 0 ∧ z.lost o = false) ∧
           (∀ k ∈ i.lockedRoutes z.f, i.conflict r k = false) ∧ (∀ k ∈ i.lockedRoutes p.s, i.conflict r k = false) ∧
           (i.lockedRoutes p.s).length < 2048 ∧ (∀ o ∈ i.testedSections r, z.occupied o = false) ∧
           (∀ o ∈ es :: (i.elems r).map (·.obj), (SI.at n.s o).routeLock = r ∧ (SI.at n.s o).lockKind = 1) ∧
           (SI.at n.s es).phase = (i.groups r).headD 0 % 128 ∧
           (∀ f ∈ i.flanks r, r ∈ (SI.at n.s f.obj).flankList) ∧ ∃ x ∈ n.queue, x.seq = q.seq ∧ x.follower = true)))) ∧
  ∀ (s : State) (ua ub uc : BitVec 8),
    (s.m.cycling = true → s.m.sys.bc = 13 → Completes (.press ua ub uc) s (fun m =>
      (∀ l, (m.lane l).si = (s.m.lane l).si ∧ (m.lane l).rte.queue = (s.m.lane l).rte.queue ∧
        ((s.m.lane l).follows = true → (s.m.lane l).loaded = true → (s.m.lane l).rte.gathered = true →
          (m.lane l).rte.press = some ((s.m.lane l).buildPress s.m.sys.cluster))) ∧
      (s.m.sys.mode ∉ [5, 9] → m.sys = s.m.sys) ∧
      (s.m.sys.mode = 9 →
        let ended := (∀ a ∈ s.m.fed.takeComm, (Store.get NodeComm.absent s.m.leadLane.rte.frozen.node a).state = 0) ∨
          s.m.fed.takeoverAt + s.m.fld F.RED_PAIR_LIMIT_TAKEOVER_LIMIT ≤ s.m.sys.cluster
        (¬ ended → m.sys = s.m.sys) ∧
        (ended → s.m.serving.length = 3 → m.Entered 9 6 0) ∧
        (ended → s.m.serving.length < 3 → m.Entered 9 7 0 ∧ m.Reads F.RED_STATUS_DEGRADED 1 ∧ m.Raised .red I.RED_DEGRADED)) ∧
      (s.m.sys.mode = 5 → s.m.leadLane.follows = true → s.m.leadLane.loaded = true → s.m.leadLane.rte.gathered = true →
        (outstanding (s.m.leadLane.buildPress s.m.sys.cluster).si = 0 → m.Entered 5 6 0) ∧
        (outstanding (s.m.leadLane.buildPress s.m.sys.cluster).si ≠ 0 → m.sys = s.m.sys)))) ∧
    (s.m.cycling = false ∨ s.m.sys.bc ≠ 13 → Completes (.press ua ub uc) s (fun m => m = s.m))

/-- PRESS_WINDOW_COMPARE (R22, R90, R119, R123, R147): after the window's decision the staged Press becomes the State Image and the queue of every lane
that runs the cycle and is not excluded by it; a lane that is excluded commits nothing. ZVL of a lane that commits admits every route whose lock the
Press writes in a signal's record: it has a slot, fresh but for its checks, or with no slot free is forbidden without one; and an admitted route
whose claims collide with another's leaves both COLLIDED. -/
def Obligations.PressCommits : Prop :=
  ∀ (s : State) (x : Exchange), s.m.leadLane.rte.press ≠ none → s.m.sys.bc = 13 →
    Completes (.pressWindowCompare x) s (fun m => ∀ l, (s.m.lane l).follows = true → (s.m.lane l).loaded = true →
      (m.lane l).rte.press = none ∧
      (∀ p, (s.m.lane l).rte.press = some p → (∀ e ∈ m.sys.pendingExcl, e.1 ≠ l) →
        (m.lane l).si = p.si ∧ (m.lane l).rte.queue = p.queue ∧
        (m.lane l).rte.report = (s.m.lane l).rte.report ++ p.results ∧
        (m.lane l).rte.deferred = p.deferred ∧
        let x := m.lane l
        let new := fun (t : Slot) => ∀ u ∈ (s.m.lane l).zvl.slotList, u.2.route ≠ t.route
        (∀ o ∈ p.changed, x.img.cls o = 3 → (SI.at p.si o).lockKind ≠ 0 →
          (∃ t ∈ x.zvl.slotList, t.2.route = (SI.at p.si o).routeLock) ∨ (SI.at p.si o).routeLock ∈ x.zvl.slotless) ∧
        (∀ t ∈ x.zvl.slotList, new t.2 → t.2.words = x.img.fetchList t.2.route ∧ t.2.cleared = false ∧ t.2.entered = false ∧
          t.2.ended = 0 ∧ t.2.seen = 0 ∧
          ((t.2.guarded ∉ p.changed ∨ (SI.at p.si t.2.guarded).routeHeld t.2.route = false) → t.2.mismatch = true)) ∧
        (∀ t ∈ x.zvl.slotList, ∀ u ∈ x.zvl.slotList, t.1 ≠ u.1 → new t.2 → slotsCollide t.2 u.2 = true → slotsCollide u.2 t.2 = true →
          t.2.collided = true ∧ u.2.collided = true)) ∧
      ((∃ e ∈ m.sys.pendingExcl, e.1 = l) → (m.lane l).si = (s.m.lane l).si))

/-- EMIT (R81, R93): in basic cycle 14 the outcomes of every serving lane pass to the Service Controller and leave the lanes; no State Image
changes. -/
def Obligations.EmitReports : Prop :=
  ∀ s : State,
    (s.m.cycling = true → s.m.sys.bc = 14 → Completes .emit s (fun m =>
      m.sc.reported = s.m.sc.reported ++ s.m.serving.flatMap (fun l => (s.m.lane l).rte.report.map (fun r => (l, r))) ∧
      m.sys = s.m.sys ∧ ∀ l, (m.lane l).si = (s.m.lane l).si ∧ (m.lane l).rte.queue = (s.m.lane l).rte.queue ∧
        ((s.m.lane l).follows = true → (s.m.lane l).loaded = true → (m.lane l).rte.report = [] ∧
          (m.lane l).rte.shared = (s.m.lane l).time.origin + (s.m.sys.cluster + 1) * 4000000 +
            (s.m.lane l).regs.fld F.RTE_LAUNCH_LEAD_LEAD * 1000))) ∧
    (s.m.cycling = false ∨ s.m.sys.bc ≠ 14 → Completes .emit s (fun m => m = s.m))

/-- OUTPUT_WINDOW_COMPARE and IMAGE_WINDOW_COMPARE with three lanes that vote and nothing lost (R147 to R149): equal signatures decide nothing;
where one lane's signature differs from the two others', which agree, that lane is excluded with the window's own cause, and MISMATCH is raised.
With two lanes that vote (R155): equal signatures decide nothing, signatures that differ, or one that its direct link has lost, bring SAFE_HALT with
cause 3, and a lane that names itself is excluded too and brings cause 2, in DARN 7. With three, two lanes that name each other alone lose the later of
them, cause 5 (R150). -/
def Obligations.OddLaneNamed : Prop :=
  ∀ (s : State) (c : Instr) (w : Nat) (u v : W64),
    ((c = .outputWindowCompare ⟨[], [], [], []⟩ ∧ w = 1) ∨
      (c = .imageWindowCompare ⟨[], [], [], []⟩ ∧ w = 3 ∧ s.m.sys.bc = 0 ∧ s.m.leadLane.scanned = true)) →
    s.m.voting = true →
    (((∀ l, l ∈ s.m.voters ∧ (s.m.lane l).selfFaults = []) →
    ((∀ l, s.m.signature w l = some u) → Completes c s (fun m =>
      m.sys.pendingExcl = s.m.sys.pendingExcl ∧ m.sys.pendingHalt = s.m.sys.pendingHalt ∧ m.sys.mode = s.m.sys.mode ∧
      m.out = s.m.out ∧ m.ph = s.m.ph)) ∧
    (∀ l, u ≠ v → s.m.signature w l = some v → (∀ k, k ≠ l → s.m.signature w k = some u) → Completes c s (fun m =>
      m.sys.pendingExcl = s.m.sys.pendingExcl ++ [(l, w, w)] ∧ m.sys.pendingHalt = s.m.sys.pendingHalt ∧
      m.sys.mode = s.m.sys.mode ∧ m.Raised .vot I.VOT_MISMATCH ∧ m.ph = s.m.ph))) ∧
    (∀ k, (∀ l, l ∈ s.m.voters ↔ l ≠ k) → (s.m.lane k).role = .excluded →
      ((∀ l, l ≠ k → (s.m.lane l).selfFaults = [] ∧ s.m.signature w l = some u) → Completes c s (fun m =>
        m.sys.pendingExcl = s.m.sys.pendingExcl ∧ m.sys.pendingHalt = s.m.sys.pendingHalt ∧ m.sys.mode = s.m.sys.mode)) ∧
      (∀ x y, x ≠ k → y ≠ k → u ≠ v → s.m.signature w x = some u → s.m.signature w y = some v → s.m.sys.mode ∈ [7, 9, 11] →
        (∀ l, l ≠ k → (s.m.lane l).selfFaults = []) → Completes c s (fun m => m.sys.pendingHalt = some 3 ∧
          m.sys.pendingExcl = s.m.sys.pendingExcl ∧ m.sys.mode = s.m.sys.mode ∧ m.Raised .vot I.VOT_MISMATCH)) ∧
      (∀ x f t, x ≠ k → (s.m.lane x).selfFaults = f :: t → f ≠ 11 → s.m.sys.mode ∈ [7, 9, 11] → Completes c s (fun m =>
        m.sys.pendingHalt = some 2 ∧ (x, f, w) ∈ m.sys.pendingExcl ∧ m.sys.mode = s.m.sys.mode)))) ∧
    (s.m.voting = true → (∀ l, l ∈ s.m.voters ∧ (s.m.lane l).selfFaults = [] ∧ s.m.signature 1 l = some u) → ∀ x y, laneIx x < laneIx y →
      Completes (.outputWindowCompare ⟨[(x, y), (y, x)], [], [], []⟩) s (fun m =>
        m.sys.pendingExcl = s.m.sys.pendingExcl ++ [(y, 5, 1)] ∧ m.sys.pendingHalt = s.m.sys.pendingHalt)) ∧
    (s.m.voting = true → s.m.sys.mode = 10 → ∀ x y, x ≠ y → (∀ l, l ∈ s.m.voters ↔ l = x ∨ l = y) →
      ((∀ l, (s.m.lane l).selfFaults = []) → u ≠ v → s.m.signature 1 x = some u → s.m.signature 1 y = some v →
        Completes (.outputWindowCompare ⟨[], [], [], []⟩) s (fun m => m.sys.pendingHalt = some 3)) ∧
      (∀ f t, (s.m.lane x).selfFaults = f :: t → f ≠ 11 → Completes (.outputWindowCompare ⟨[], [], [], []⟩) s (fun m =>
        m.sys.pendingHalt = some 7)) ∧
      ((∀ l, (s.m.lane l).selfFaults = []) → s.m.signature 1 x = some u → s.m.signature 1 y = some u →
        Completes (.outputWindowCompare ⟨[(x, y)], [], [], []⟩) s (fun m => m.sys.pendingHalt = some 3)))

/-- EXCLUSION_ENACTED (R152 to R154, R157, R294): a lane excluded in SERVICE_3 leaves the module in SERVICE_2 with its payloads and DIO word gone, the
exclusion recorded, the replace request raised and the degraded limit started, unless a reset is due, which goes first; in PROVING the module halts with
cause 6; a halt that is due comes alone. -/
def Obligations.ExclusionEnacted : Prop :=
  ∀ (s : State) (l : LaneId) (c w : Nat), Settled s → c < 12 →
    (s.m.sys.pendingHalt = none → s.m.sys.pendingExcl = [(l, c, w)] → (∀ k, (s.m.lane k).role = .serving) →
      (s.m.sys.mode = 6 → s.m.resetDue = true → Completes .exclusionEnacted s (fun m =>
        m.sys.mode = 6 ∧ m.sys.pendingExcl = [] ∧ (m.lane l).role = .excluded ∧ m.Recorded 0x1001 (laneIx l) c w)) ∧
      (s.m.sys.mode = 6 → s.m.resetDue = false → Completes .exclusionEnacted s (fun m =>
        m.Entered 6 7 0 ∧ m.sys.pendingExcl = [] ∧ (m.lane l).role = .excluded ∧ (m.lane l).payloads = [] ∧
        (m.lane l).dioNext = 0 ∧ (∀ k, k ≠ l → (m.lane k).role = .serving) ∧ m.Reads F.VOT_EXCLUSION_LANE (laneIx l) ∧
        m.Reads F.VOT_EXCLUSION_CAUSE c ∧ m.Recorded 0x1001 (laneIx l) c w ∧ m.Reads F.RED_REPLACE_REQUEST 1 ∧
        m.Reads F.RED_STATUS_DEGRADED 1 ∧ m.Raised .red I.RED_DEGRADED ∧ ∀ k, (m.lane k).si = (s.m.lane k).si)) ∧
      (s.m.sys.mode = 5 → s.m.resetDue = false → Completes .exclusionEnacted s (fun m =>
        m.Halted 5 s.m.sys.cluster 6 ∧ (m.lane l).role = .excluded ∧ m.sys.pendingExcl = []))) ∧
    (s.m.resetDue = false → s.m.sys.pendingHalt = some c → s.m.sys.pendingExcl = [] → s.m.sys.mode ∉ [0, 1, 13, 14] → Completes .exclusionEnacted s (fun m =>
      m.Halted s.m.sys.mode s.m.sys.cluster c ∧ m.sys.pendingHalt = none ∧ s.m.RegsOnly m)) ∧
    (s.m.sys.pendingHalt = none → s.m.sys.pendingExcl = [] → Completes .exclusionEnacted s (fun m => m = s.m))

/-- PH_FRAME_ASSEMBLY (R14, R155, R191, R304): the Port Hub takes the serving lanes, none of them under test, whose hand-off came in time and whole,
shows them, and forms for a node for which all of them handed over the same payload a frame of that payload and launch; of three different payloads
for one node it forms the frame of lane A's, raises PAYLOAD_3, and SAFE_HALT with cause 4 is due; of two different ones where two lanes serve, SAFE_HALT
with cause 3. No lane changes. -/
def Obligations.FramesAssembled : Prop :=
  ∀ (s : State) (late bad : BitVec 3), s.m.sys.originAgreed = true → s.m.sys.preOrigin = false → s.m.readmitDue = false →
    let taken := fun (l : LaneId) => s.m.speaks l && !bitOf late.toNat (laneIx l) && !bitOf bad.toNat (laneIx l)
    Completes (.phFrameAssembly late bad) s (fun m =>
      m.ph.regs.fld F.PHB_LANES_TAKEN = laneSet taken ∧ m.ph.regs.fld F.PHB_LANES_FILLED = 7 - laneSet taken ∧
      m.ph.nodes = s.m.ph.nodes ∧ m.ph.ports = s.m.ph.ports ∧ (∀ l, m.lane l = s.m.lane l) ∧ m.sc = s.m.sc ∧
      m.sys.mode = s.m.sys.mode ∧ m.sys.pendingExcl = s.m.sys.pendingExcl ∧
      ∀ d la pa, (∀ l, ∀ q ∈ (s.m.lane l).staged, q.node < 2048) → (∃ l k, l ≠ k ∧ taken l = true ∧ taken k = true) →
        (∀ l, taken l = true → takenPayload s.m taken l d = some ⟨d, la, pa⟩) →
        ∃ codes, Store.get noFrame m.ph.frames (d + 2048 * s.m.leadLane.img.frameSlot (nodePort d)
          ((s.m.sys.cluster * 16 + s.m.sys.bc + 1) % 16)) = some (pa, la, codes)) ∧
    (∀ d la pa lb pb lc pc, (∀ l, taken l = true) → (∀ l, ∀ q ∈ (s.m.lane l).staged, q.node < 2048) →
      takenPayload s.m taken .a d = some ⟨d, la, pa⟩ → takenPayload s.m taken .b d = some ⟨d, lb, pb⟩ →
      takenPayload s.m taken .c d = some ⟨d, lc, pc⟩ → (la, pa) ≠ (lb, pb) → (lb, pb) ≠ (lc, pc) → (la, pa) ≠ (lc, pc) →
      Completes (.phFrameAssembly late bad) s (fun m => m.sys.pendingHalt = some 4 ∧
        bitOf (m.ph.regs.get (blkBase .phb + 0x10)).toNat I.PHB_PAYLOAD_3 = true ∧
        ∃ codes, Store.get noFrame m.ph.frames (d + 2048 * s.m.leadLane.img.frameSlot (nodePort d)
          ((s.m.sys.cluster * 16 + s.m.sys.bc + 1) % 16)) = some (pa, la, codes))) ∧
    (∀ d x y p q, x ≠ y → (∀ l, taken l = true ↔ l = x ∨ l = y) → (∀ l, l ∈ s.m.serving ↔ l = x ∨ l = y) →
      s.m.sys.mode ∈ [7, 9, 10, 11] → s.m.sys.pendingHalt = none →
      takenPayload s.m taken x d = some p → takenPayload s.m taken y d = some q → (p.launch, p.part) ≠ (q.launch, q.part) →
      Completes (.phFrameAssembly late bad) s (fun m => m.sys.pendingHalt = some 3))

/-- WORKING_TABLE_RESCAN and IMAGE_INTEGRITY_SCAN (R67, R141): each rescan passes over 1,024 of 262,144 blocks; a failing block among
them, or a section that fails its CRC, makes the lane name itself with cause 8; without a fault nothing else changes. -/
def Obligations.ScansNameTheLane : Prop :=
  ∀ (s : State) (l : LaneId) (bs : List Nat), (s.m.lane l).loaded = true →
    let pos := (s.m.lane l).regs.fld F.VOT_WT_SCAN_POSITION
    Completes (.workingTableRescan l bs) s (fun m =>
      (m.lane l).regs.fld F.VOT_WT_SCAN_POSITION = (pos + 1024) % 262144 ∧ (∀ k, k ≠ l → m.lane k = s.m.lane k) ∧ m.sys = s.m.sys ∧
      m.ph = s.m.ph ∧ (m.lane l).si = (s.m.lane l).si ∧
      ((∃ b ∈ bs, pos ≤ b ∧ b < pos + 1024) → 8 ∈ (m.lane l).selfFaults ∧
        (m.lane l).regs.fld F.VOT_WT_SCAN_FAULT = 1) ∧
      ((∀ b ∈ bs, b < pos ∨ pos + 1024 ≤ b) → (m.lane l).selfFaults = (s.m.lane l).selfFaults ∧ m.out = s.m.out)) ∧
    (modeActive s.m.sys.mode = true →
      ((∃ x ∈ (s.m.lane l).img.secs, (s.m.lane l).img.secCrcOk x = false) ∨ (s.m.lane l).onDieOk = false →
        Completes (.imageIntegrityScan l) s (fun m => 8 ∈ (m.lane l).selfFaults ∧ (∀ k, k ≠ l → m.lane k = s.m.lane k) ∧
          m.sys.mode = s.m.sys.mode ∧ m.ph = s.m.ph ∧ m.sc = s.m.sc)) ∧
      ((∀ x ∈ (s.m.lane l).img.secs, (s.m.lane l).img.secCrcOk x = true) → (s.m.lane l).onDieOk = true →
        Completes (.imageIntegrityScan l) s (fun m => m = s.m)))

/-- SUPPLY_FAULT, CLOCK_MONITOR_TRIP, PLL_UNLOCK, LATE_WAKE, WATCHDOG and MEMORY_ERROR (R18, R151, R321): the lane names itself with the cause of
R151 and keeps what was measured; a supply inside 0.80 V to 0.90 V or a clock within ± 0.5 % names nothing; the other lanes and the module
are as they were. -/
def Obligations.SelfFaultConditions : Prop :=
  ∀ (s : State) (l : LaneId), s.m.awake = true →
    let rest := fun (m : Mach) => (∀ k, k ≠ l → m.lane k = s.m.lane k) ∧ m.sys = s.m.sys ∧ m.ph = s.m.ph ∧ m.fed = s.m.fed ∧
      m.dio = s.m.dio ∧ (m.lane l).si = (s.m.lane l).si ∧ (m.lane l).role = (s.m.lane l).role
    (∀ mv : BitVec 10, Completes (.supplyFault l mv) s (fun m => rest m ∧ m.sc = s.m.sc ∧
      (m.lane l).regs.fld F.SYS_VCORE_MV = mv.toNat ∧ (mv.toNat < 800 ∨ 900 < mv.toNat → 10 ∈ (m.lane l).selfFaults) ∧
      (800 ≤ mv.toNat → mv.toNat ≤ 900 → (m.lane l).selfFaults = (s.m.lane l).selfFaults))) ∧
    (∀ ppm : W16, Completes (.clockMonitorTrip l ppm) s (fun m => rest m ∧ m.sc = s.m.sc ∧
      (m.lane l).regs.fld F.CLK_MONITOR_FAST_PPM = ppm.toNat ∧ (5000 < ppm.toInt.natAbs → 10 ∈ (m.lane l).selfFaults ∧
        (m.lane l).regs.fld F.CLK_STATUS_MONITOR_OK = 0) ∧
      (ppm.toInt.natAbs ≤ 5000 → (m.lane l).selfFaults = (s.m.lane l).selfFaults ∧
        (m.lane l).regs.fld F.CLK_STATUS_MONITOR_OK = 1))) ∧
    Completes (.pllUnlock l) s (fun m => rest m ∧ m.sc = s.m.sc ∧ 10 ∈ (m.lane l).selfFaults ∧
      (m.lane l).regs.fld F.CLK_STATUS_PLL_LOCKED = 0) ∧
    Completes (.lateWake l) s (fun m => rest m ∧ m.sc = s.m.sc ∧ 9 ∈ (m.lane l).selfFaults) ∧
    Completes (.watchdog l) s (fun m => rest m ∧ m.sc = { s.m.sc with watchdogSeen := true } ∧ 9 ∈ (m.lane l).selfFaults ∧
      (m.lane l).regs = (s.m.lane l).regs) ∧
    (∀ v, Completes (.memoryError l ⟨v, false⟩) s (fun m => rest m ∧ m.sc = s.m.sc ∧ 7 ∈ (m.lane l).selfFaults ∧
      (m.lane l).regs = (s.m.lane l).regs)) ∧
    ∀ v, Completes (.memoryError l ⟨v, true⟩) s (fun m => rest m ∧ m.sc = s.m.sc ∧ (m.lane l).selfFaults = (s.m.lane l).selfFaults ∧
      (m.lane l).regs.get (blkBase .vot + 0x20) = BitVec.ofNat 32 (min (((s.m.lane l).regs.get (blkBase .vot + 0x20)).toNat + 1) (2 ^ 32 - 1)))

/-- DEGRADED_LIMIT_EXPIRY and LIMIT_WARN (R156): at zero remaining the module halts with cause 1; at an hour or less the warning is
raised and nothing else happens. -/
def Obligations.DegradedLimit : Prop :=
  ∀ s : State, Settled s → s.m.fld F.RED_STATUS_DEGRADED = 1 →
    (s.m.fld F.RED_DEGRADED_REMAIN_SECONDS = 0 → s.m.resetDue = false → s.m.sys.mode ∉ [0, 1, 13, 14] → Completes .degradedLimitExpiry s (fun m =>
      m.Halted s.m.sys.mode s.m.sys.cluster 1 ∧ m.Raised .red I.RED_LIMIT_EXPIRED ∧ s.m.RegsOnly m)) ∧
    (s.m.fld F.RED_DEGRADED_REMAIN_SECONDS ≠ 0 → Completes .degradedLimitExpiry s (fun m => m = s.m)) ∧
    (s.m.fld F.RED_DEGRADED_REMAIN_SECONDS ≤ 3600 → Completes .limitWarn s (fun m =>
      m.Raised .red I.RED_LIMIT_WARN ∧ m.sys = s.m.sys ∧ m.sc = s.m.sc ∧ s.m.RegsOnly m)) ∧
    (3600 < s.m.fld F.RED_DEGRADED_REMAIN_SECONDS → Completes .limitWarn s (fun m => m = s.m))

/-- LANE_TIME_MESSAGE and TSU_LATCHING_READ (R239, R244, R258): θ is half the difference of the stamps, δ their mean less the mark's nominal
time, and an exchange whose δ is more than 50 ns from the last gives no θ; the register shows θ; the exchange with the other neighbour gives the other
θ. A latching read leaves both halves of what it reads in its registers; every lane's counter has gone on, and nothing else changes. That the register
truncates a mean of half a nanosecond (assumption 46) and that a read takes the ticks it is given (assumption 33) is the model's own. -/
def Obligations.LaneTimeKept : Prop :=
  ∀ (s : State) (x y : LaneId) (a b n : Int) (ticks : Nat),
    let theta : Rat := ((a - b : Int) : Rat) / 2
    let delta : Rat := ((a + b : Int) : Rat) / 2 - n
    let c := ((s.m.lane x).time.count + ticks) % 2 ^ 64
    let on := fun (k : LaneId) => { s.m.lane k with time := { (s.m.lane k).time with count := ((s.m.lane k).time.count + ticks) % 2 ^ 64 } }
    let rest := fun (m : Mach) => (∀ k, k ≠ x → m.lane k = on k) ∧ m.sys = s.m.sys ∧ m.ph = s.m.ph ∧ m.sc = s.m.sc ∧
      m.out = s.m.out ∧ m.lane x = { on x with regs := (m.lane x).regs }
    (s.m.sys.originAgreed = true → s.m.sys.preOrigin = false → y = nextLane x → Completes (.laneTimeMessage x y a b n) s (fun m =>
      (m.lane x).time.deltaNext = some delta ∧
      (∀ d, (s.m.lane x).time.deltaNext = some d → 50 < ratAbs (delta - d) → (m.lane x).time.thetaNext = none) ∧
      (∀ d, (s.m.lane x).time.deltaNext = some d → ratAbs (delta - d) ≤ 50 → (m.lane x).time.thetaNext = some theta) ∧
      (m.lane x).regs.fld F.TSU_LANE_THETA_THETA_NEXT = satSigned 16 (ratTrunc theta) ∧ m.sys.mode = s.m.sys.mode ∧
      (m.lane x).si = (s.m.lane x).si)) ∧
    (s.m.sys.originAgreed = true → s.m.sys.preOrigin = false → x = nextLane y → Completes (.laneTimeMessage x y a b n) s (fun m =>
      (m.lane x).time.deltaPrev = some delta ∧
      (∀ d, (s.m.lane x).time.deltaPrev = some d → 50 < ratAbs (delta - d) → (m.lane x).time.thetaPrev = none) ∧
      (∀ d, (s.m.lane x).time.deltaPrev = some d → ratAbs (delta - d) ≤ 50 → (m.lane x).time.thetaPrev = some theta) ∧
      (m.lane x).regs.fld F.TSU_LANE_THETA_THETA_PREV = satSigned 16 (ratTrunc theta) ∧ m.sys.mode = s.m.sys.mode ∧
      (m.lane x).si = (s.m.lane x).si)) ∧
    Completes (.tsuLatchingRead x .countLo ticks) s (fun m => rest m ∧
      (m.lane x).regs.fld F.TSU_COUNT_LO_COUNT + 2 ^ 32 * (m.lane x).regs.fld F.TSU_COUNT_HI_COUNT = c) ∧
    Completes (.tsuLatchingRead x .timeLo ticks) s (fun m => rest m ∧
      (m.lane x).regs.fld F.TSU_TIME_LO_TIME + 2 ^ 32 * (m.lane x).regs.fld F.TSU_TIME_HI_TIME = (s.m.lane x).time.at c % 2 ^ 64) ∧
    Completes (.tsuLatchingRead x .baseLo ticks) s (fun m => rest m ∧
      (m.lane x).regs.fld F.TSU_BASE_LO_BASE + 2 ^ 32 * (m.lane x).regs.fld F.TSU_BASE_HI_BASE = (s.m.lane x).time.base % 2 ^ 64)

/-- DARN_AUTO_START, DARN_START_REQUEST, DARN_START and DARN_ABORT (R158 to R160): a start that is not refused falls due; a refused one is
RESULT 4 with its record and leaves the mode, and the write that asked for it is refused (the model's own, assumption 31); at the boundary in SERVICE_2
the module enters DARN with the lane joining and its domains empty; an abort ends in SERVICE_2 with RESULT 3, unless a reset or a SAFE_HALT is due at the
boundary. The slot that answers a write is that of the lowest LANE_REGS window (the model's own choice, assumption 44). -/
def Obligations.DarnStarts : Prop :=
  ∀ (s : State) (l : LaneId),
    (s.m.fld F.RED_DARN_CFG_AUTO = 1 → s.m.sys.darnDue = false → s.m.darnLane = some l → (s.m.lane l).role = .excluded →
      s.m.darnDelayOver = true →
      (s.m.darnRefused l = false → Completes .darnAutoStart s (fun m =>
        m = { s.m with sys := { s.m.sys with darnDue := true, darnFrom := none } })) ∧
      (s.m.darnRefused l = true → Completes .darnAutoStart s (fun m =>
        m.Reads F.RED_DARN_STATUS_RESULT 4 ∧ m.Raised .red I.RED_DARN_FAILED ∧ m.Recorded 0x1002 (laneIx l) 4 0 ∧
        m.sys = { s.m.sys with darnFrom := none } ∧ m.sc = s.m.sc ∧ s.m.RegsOnly m))) ∧
    (s.m.darnDelayOver = false ∨ s.m.fld F.RED_DARN_CFG_AUTO ≠ 1 ∨ s.m.sys.darnDue = true → Completes .darnAutoStart s (fun m =>
      m = s.m)) ∧
    (∀ q, s.m.Takes .red 0x50 1 ⟨q, 0⟩ → Completes (.darnStartRequest q) s (fun m =>
      m.sys = { s.m.sys with darnDue := true } ∧ s.m.SlotAccepted m (9 + s.m.regsWindow) 0x50 ∧ ∀ k, m.lane k = s.m.lane k)) ∧
    (s.m.darnLane = some l → s.m.darnRefused l = true → s.m.participants ≠ [] → (∀ k ∈ s.m.participants, s.m.mute 0 k = false) →
      Completes (.darnStartRequest 0) s (fun m => m.Reads F.RED_DARN_STATUS_RESULT 4 ∧ m.Raised .red I.RED_DARN_FAILED ∧
        m.Recorded 0x1002 (laneIx l) 4 0 ∧ m.sys = s.m.sys ∧
        Store.get noDone m.sc.done (9 + s.m.regsWindow) = BitVec.ofNat 64 (statusWord 7 0 0x50) ∧ s.m.RegsOnly m)) ∧
    (s.m.sys.boundary = true → s.m.sys.darnDue = true → s.m.preempted = false → s.m.sys.mode = 7 → s.m.darnLane = some l →
      Completes .darnStart s (fun m =>
      m.sys.mode = 10 ∧ m.sys.darnDue = false ∧ m.Reads F.SYS_STATUS_MODE 10 ∧ m.Reads F.RED_DARN_STATUS_STEP 2 ∧
      m.Reads F.RED_DARN_STATUS_LANE (laneIx l) ∧ m.Reads F.RED_STATUS_DARN_ACTIVE 1 ∧
      (m.lane l).role = .joining ∧ (m.lane l).si = [] ∧ (m.lane l).rte = Rte.reset ∧ (m.lane l).zvl = Zvl.reset ∧
      (m.lane l).loaded = false ∧ (∀ k, k ≠ l → (m.lane k).role = (s.m.lane k).role ∧ (m.lane k).si = (s.m.lane k).si ∧
        (m.lane k).rte = (s.m.lane k).rte ∧ (m.lane k).zvl = (s.m.lane k).zvl))) ∧
    (s.m.sys.boundary = false ∨ s.m.sys.darnDue = false ∨ s.m.preempted = true → Completes .darnStart s (fun m => m = s.m)) ∧
    (∀ q, s.m.Takes .red 0x50 2 ⟨q, 0⟩ → s.m.sys.mode = 10 → s.m.joiner = some l → s.m.sys.boundary = false ∨ s.m.preempted = false → Completes (.darnAbort q) s (fun m =>
      m.Entered 10 7 0 ∧ (m.lane l).role = .excluded ∧ m.Reads F.RED_DARN_STATUS_RESULT 3 ∧ m.Reads F.RED_DARN_STATUS_STEP 0 ∧
      ∀ k, (m.lane k).si = (s.m.lane k).si))

/-- The commands that end the steps of R159, each in its own step: zero fill, BIST that passes with the lane re-initialised after it (R302, R304), an
image equal to the serving lanes', sixteen aligned marks, equal snapshots, sixteen matches within 64 clusters, the cut-over at a boundary, and
re-admission after 256 clusters with the next epoch and SERVICE_3. At the cut-over the ZVL state comes in halves, and the State Image and the input image
are the lane's own; which half comes from which lane, the node states that the snapshot brings along and what else the lane takes over are the model's
own (assumption 76).
DARN_STEP_TIMEOUT and a failed BIST or snapshot (R160): the joining lane is excluded again with cause 12 and the module returns to
SERVICE_2, with the step in FAIL_STEP, unless a reset or a SAFE_HALT is due at the boundary (R294); outside DARN nothing happens. -/
def Obligations.DarnSteps : Prop :=
  (∀ (s : State) (l : LaneId), s.m.sys.mode = 10 → s.m.joiner = some l →
     let others := fun (m : Mach) => ∀ k, k ≠ l → (s.m.lane k).RegsOnly (m.lane k) ∧ (m.lane k).role = (s.m.lane k).role
     (s.m.darnStep = 2 → Completes .darnZeroFillDone s (fun m => m.darnStep = 3 ∧ (m.lane l).dram = [] ∧ (m.lane l).sram = [] ∧
       .lane l ∈ m.sys.bistRun ∧ others m)) ∧
     (∀ r, s.m.darnStep = 3 → s.m.bistOf (.lane l) r 3 = 1 → Completes (.darnBistDone r) s (fun m => m.darnStep = 4 ∧
       m.sys.mode = 10 ∧ (m.lane l).role = .joining ∧ (m.lane l).si = [] ∧ (m.lane l).sram = [] ∧ (m.lane l).rte = Rte.reset ∧
       (m.lane l).zvl = Zvl.reset ∧ (m.lane l).loaded = false ∧ (m.lane l).regs.fld F.BST_RESULT_RESULT = 1 ∧ others m)) ∧
     (∀ w, s.m.darnStep = 4 →
       let x := (s.m.lane l).stream (s.m.slotOf (s.m.sc.regs.fld F.UPD_IMG_SELECT_SLOT)) []
       x.stagingImg.outcome (x.regs.fld F.RTE_RULE_IF_MIN) (x.regs.fld F.RTE_RULE_IF_MAX) =
         (0, s.m.leadLane.img.imageId, BitVec.ofNat 64 s.m.leadLane.img.storedSeal) → w = s.m.leadLane.wtSeal →
       Completes (.darnImageDone w []) s (fun m => m.darnStep = 5 ∧ (m.lane l).loaded = true ∧ (m.lane l).wtSeal = w ∧
         (m.lane l).time.good = 0 ∧ others m)) ∧
     (s.m.darnStep = 5 → 16 ≤ (s.m.lane l).time.good → Completes .darnTimebaseAligned s (fun m => m.darnStep = 6 ∧ m.sys = s.m.sys ∧
       m.sc = s.m.sc ∧ s.m.RegsOnly m)) ∧
     (∀ n, s.m.darnStep = 6 → s.m.leadLane.snap = some n → (∀ k ∈ s.m.serving, sameSnapshot (s.m.lane k) s.m.leadLane = true) →
       s.m.sys.snapLog = [] → Completes .darnSnapshotReceived s (fun m =>
       m.darnStep = 7 ∧ (m.lane l).si = n.si ∧ (m.lane l).live.node = s.m.leadLane.live.node ∧ (m.lane l).rte.queue = n.rte.queue ++ (s.m.lane l).rte.queue ∧
       (m.lane l).rte.deferred = n.rte.deferred ∧ others m)) ∧
     (s.m.darnStep = 6 → s.m.leadLane.snap = none → Completes .darnSnapshotReceived s (fun m => m = s.m)) ∧
     (s.m.darnStep = 7 → 16 ≤ s.m.sys.track → s.m.sys.sinceSnap ≤ 64 → Completes .darnTrackingMatched s (fun m =>
       m.darnStep = 8 ∧ m.sys = s.m.sys ∧ m.sc = s.m.sc ∧ s.m.RegsOnly m)) ∧
     (s.m.darnStep = 8 → s.m.sys.boundary = true → Completes .darnCutOver s (fun m => m.darnStep = 9 ∧
       (m.lane l).probation = true ∧ (m.lane l).zvl = s.m.leadLane.zvl.halves (s.m.lane (s.m.serving.getD 1 s.m.lead)).zvl ∧
       (m.lane l).live = (s.m.lane l).live ∧ (m.lane l).si = (s.m.lane l).si ∧ (m.lane l).rte.queue = (s.m.lane l).rte.queue ∧
       m.sys.probRun = 0 ∧ others m)) ∧
     (s.m.darnStep = 8 → s.m.sys.boundary = false → Completes .darnCutOver s (fun m => m = s.m)) ∧
     (∀ e, s.m.darnStep = 9 → s.m.sys.boundary = true → 256 ≤ s.m.sys.probRun → s.m.preempted = false →
       s.m.Reads F.RED_EPOCH_EPOCH e → Completes .darnReadmission s (fun m =>
       m.Entered 10 6 0 ∧ (m.lane l).role = .serving ∧ m.Reads F.RED_EPOCH_EPOCH ((e + 1) % 65536) ∧
       m.Reads F.RED_DARN_STATUS_RESULT 1 ∧ m.Reads F.RED_DARN_STATUS_STEP 0 ∧ m.Raised .red I.RED_DARN_DONE ∧
       ∀ k, (m.lane k).si = (s.m.lane k).si))) ∧
  (∀ (s : State) (l : LaneId),
     (s.m.sys.mode = 10 → s.m.joiner = some l → s.m.sys.boundary = false ∨ s.m.preempted = false →
       let failed := fun (m : Mach) => m.Entered 10 7 0 ∧ (m.lane l).role = .excluded ∧ m.Reads F.VOT_EXCLUSION_LANE (laneIx l) ∧
         m.Reads F.VOT_EXCLUSION_CAUSE 12 ∧ m.Reads F.RED_DARN_STATUS_RESULT 2 ∧ m.Reads F.RED_DARN_STATUS_FAIL_STEP s.m.darnStep ∧
         m.Raised .red I.RED_DARN_FAILED ∧ ∀ k, k ≠ l → (m.lane k).si = (s.m.lane k).si
       Completes .darnStepTimeout s failed ∧
       (∀ r, s.m.darnStep = 3 → s.m.bistOf (.lane l) r 3 ≠ 1 → Completes (.darnBistDone r) s failed) ∧
       (s.m.darnStep = 6 → s.m.leadLane.snap ≠ none → (∃ k ∈ s.m.serving, sameSnapshot (s.m.lane k) s.m.leadLane = false) →
         Completes .darnSnapshotReceived s failed)) ∧
     (s.m.sys.mode ≠ 10 ∨ (s.m.sys.boundary = true ∧ s.m.preempted = true) → Completes .darnStepTimeout s (fun m => m = s.m)))

/-- The ten request rows (R76 to R79, R83): a request that every lane accepts, within the mailbox's authority, enters the queue of every lane
that commits it under the next REQ_SEQ, which moves on; its acceptance word stands in the mailbox's completion slot. Of the lanes' State Images,
registers of the ports and the mode nothing changes.
The same rows refused (R76, R77, R83): outside the authority STATUS 4; STATUS 5 in a mode that takes no request; no queue, no REQ_SEQ and
no State Image changes, and the completion slot says so with REQ_SEQ 0. -/
def Obligations.RequestsTaken : Prop :=
  (∀ (s : State) (mb : Fin 8) (w : W64) (q : BitVec 3) (c : Instr),
     c ∈ [.setRoute mb w q, .cancelRoute mb w q, .throwPoint mb w q, .withdraw mb w q, .restrictObject mb w q, .restrictArea mb w q,
       .restrictAll mb w q, .liftObject mb w q, .liftArea mb w q, .liftAll mb w q] →
     c.wf = true → s.m.participants ≠ [] →
     (∀ l ∈ s.m.participants, s.m.mute q l = false ∧ (s.m.lane l).answer s.m.sys.mode w = 1) →
     (s.m.leadLane.loaded = true → rqMalformed s.m.leadLane.img w = false → rqAuthority s.m.leadLane.img w (s.m.areas mb.val) = true) →
     Completes c s (fun m => m.nextSeq = nextReqSeq s.m.nextSeq ∧ m.sys = s.m.sys ∧ m.ph = s.m.ph ∧ m.fed = s.m.fed ∧ m.dio = s.m.dio ∧
       Store.get noDone m.sc.done mb.val = acceptWord s.m.nextSeq 1 s.m.partSet (rqTag w) ∧
       ∀ l, (m.lane l).si = (s.m.lane l).si ∧ (m.lane l).live = (s.m.lane l).live ∧
         (s.m.commits l = true → (m.lane l).rte.queue = (s.m.lane l).rte.queue ++ [Req.fresh w s.m.nextSeq mb.val] ∧
           (isRestriction (rqType w) = true → (m.lane l).zvl.wait = (s.m.lane l).zvl.wait ++ [(s.m.nextSeq, w)])) ∧
         (s.m.commits l = false → m.lane l = s.m.lane l))) ∧
  (∀ (s : State) (mb : Fin 8) (w : W64) (q : BitVec 3) (c : Instr),
     c ∈ [.setRoute mb w q, .cancelRoute mb w q, .throwPoint mb w q, .withdraw mb w q, .restrictObject mb w q, .restrictArea mb w q,
       .restrictAll mb w q, .liftObject mb w q, .liftArea mb w q, .liftAll mb w q] →
     let kept := fun (m : Mach) => m.nextSeq = s.m.nextSeq ∧ m.sys = s.m.sys ∧ m.ph = s.m.ph ∧
       ∀ l, (m.lane l).rte = (s.m.lane l).rte ∧ (m.lane l).si = (s.m.lane l).si ∧ (m.lane l).zvl = (s.m.lane l).zvl
     (s.m.participants ≠ [] → s.m.leadLane.loaded = true → rqMalformed s.m.leadLane.img w = false →
       rqAuthority s.m.leadLane.img w (s.m.areas mb.val) = false → Completes c s (fun m => kept m ∧
         Store.get noDone m.sc.done mb.val = acceptWord 0 4 0 (rqTag w))) ∧
     (s.m.participants ≠ [] → s.m.leadLane.loaded = false → rqMode s.m.sys.mode (rqType w) = false → (∀ l ∈ s.m.participants,
       s.m.mute q l = false) → Completes c s (fun m => kept m ∧ Store.get noDone m.sc.done mb.val = acceptWord 0 5 0 (rqTag w))) ∧
     (s.m.participants = [] → Completes c s (fun m => kept m ∧ Store.get noDone m.sc.done mb.val = acceptWord 0 5 0 (rqTag w))))

/-- COMPLETION_SLOT_READ, RESULT_LO_READ, RESULT_PLACED, PREFETCH_REFUSED, FAILED_ACCESS, UNSUPPORTED_ATOMIC and PCIE_LINK_DOWN (R73, R81, R349 to
R353, R357): a slot read returns the slot and changes nothing; a result read returns the oldest result and removes it; a result two lanes
report alike enters its mailbox's queue; what fails is counted with its offset and cause and returns 0xFF in every byte; a read that meets nothing
returns the bytes of what is there, the bytes of a word of BAR0 lowest first; an atomic is completed as Unsupported Request. None touches a lane, the
Port Hub or the mode. That FAILED_ACCESS stands for a host read that does return bytes (assumptions 39 and 125), and that PCIE_LINK_DOWN leaves the link
up again (assumptions 79 and 126), is the model's own. -/
def Obligations.HostReadsAndErrors : Prop :=
  ∀ s : State,
    let alone := fun (m : Mach) => (∀ l, m.lane l = s.m.lane l) ∧ m.sys = s.m.sys ∧ m.ph = s.m.ph ∧ m.fed = s.m.fed ∧ m.dio = s.m.dio ∧
      m.nextSeq = s.m.nextSeq
    (∀ k, Completes (.completionSlotRead k) s (fun m => alone m ∧ m.sc = s.m.sc ∧
      m.out = .completion (Store.get noDone s.m.sc.done (slotIx k)).toNat :: s.m.out)) ∧
    (∀ (mb : Fin 8) (w : W64) (t : List W64), Store.get noResult s.m.sc.results mb.val = w :: t → Completes (.resultLoRead mb) s (fun m =>
      alone m ∧ m.out = .completion (w.toNat % 2 ^ 32) :: s.m.out ∧ Store.get noResult m.sc.results mb.val = t ∧
      m.sc.regs.fld (F.MBX_RESULT_COUNTn_COUNT mb.val) = t.length % 2 ^ 11 ∧
      (∀ k, k ≠ mb.val → Store.get noResult m.sc.results k = Store.get noResult s.m.sc.results k))) ∧
    (∀ r : Result, twiceReported s.m.sc.reported = some r → (Store.get noResult s.m.sc.results r.mbx).length < 1024 →
      Completes .resultPlaced s (fun m => alone m ∧
        Store.get noResult m.sc.results r.mbx = Store.get noResult s.m.sc.results r.mbx ++ [r.word] ∧
        m.sc.reported = s.m.sc.reported.filter (fun e => decide (e.2 ≠ r)))) ∧
    (twiceReported s.m.sc.reported = none → Completes .resultPlaced s (fun m => m = s.m)) ∧
    (∀ (o : W16) (n : Nat),
      (sideRead o.toNat n = true → Completes (.prefetchRefused o n) s (fun m => alone m ∧ m.sc.results = s.m.sc.results ∧
        m.sc.regs.fld F.HBR_PREFETCH_REFUSED_OFFSET = o.toNat ∧ .readData (List.replicate n 0xFF) ∈ m.out)) ∧
      (sideRead o.toNat n = false → Completes (.prefetchRefused o n) s (fun m => m = s.m))) ∧
    (∀ (bar2 : Bool) (o : BitVec 28) (k : BitVec 4) (len : BitVec 13) (g : Bool),
      let failed := fun (c : Nat) (m : Mach) => alone m ∧ m.sc.regs.fld F.HBR_RD_ERR_CAUSE = c ∧
        m.sc.regs.fld F.HBR_RD_ERR_ADDR_OFFSET = o.toNat ∧ m.sc.results = s.m.sc.results ∧
        .readData (List.replicate len.toNat 0xFF) ∈ m.out
      (∀ c, s.m.readFails bar2 o.toNat len.toNat = some c → Completes (.failedAccess (.read len g) bar2 o k) s (failed c)) ∧
      (s.m.readFails bar2 o.toNat len.toNat = none →
        (k = 1 ∨ k = 2 → Completes (.failedAccess (.read len g) bar2 o k) s (failed k.toNat)) ∧
        (k ≠ 1 → k ≠ 2 → (bar2 || !sideRead o.toNat len.toNat) = true →
          (resultMailbox bar2 o.toNat len.toNat = none → Completes (.failedAccess (.read len g) bar2 o k) s (fun m =>
            m = { s.m with out := .readData (s.m.readBytes bar2 o.toNat len.toNat g) :: s.m.out })) ∧
          (∀ mb : Fin 8, resultMailbox bar2 o.toNat len.toNat = some mb.val →
            exec (.failedAccess (.read len g) bar2 o k) s = exec (.resultLoRead mb) s) ∧
          (∀ b, bar2 = false → len = 4 → o.toNat % 4 = 0 → bar0Page o.toNat = some b → resultMailbox false o.toNat 4 = none →
            Completes (.failedAccess (.read len g) bar2 o k) s (fun m =>
              m.out = .readData ((List.range 4).map (wordByte (s.m.hostReg b .a (o.toNat % 0x1000) g))) :: s.m.out)))) ∧
      (k ≠ 0 → Completes (.failedAccess .posted bar2 o k) s (fun m => alone m ∧ m.sc.regs.fld F.HBR_WR_ERR_CAUSE = k.toNat ∧
        m.sc.regs.fld F.HBR_WR_ERR_ADDR_OFFSET = o.toNat ∧ m.sc.results = s.m.sc.results)) ∧
      Completes (.failedAccess .posted bar2 o 0) s (fun m => m = s.m)) ∧
    (∀ o : W32, Completes (.unsupportedAtomic o) s (fun m => alone m ∧ m.out = .unsupported :: s.m.out ∧
      m.sc.regs.get (blkBase .hbr + 0x24) = o)) ∧
    (s.m.sc.perst ≠ none → Completes .pcieLinkDown s (fun m => m = s.m)) ∧
    (s.m.sc.perst = none → Completes .pcieLinkDown s (fun m => (∀ l, m.lane l = s.m.lane l) ∧ m.sys = { s.m.sys with free := m.sys.free } ∧
      m.ph = s.m.ph ∧ m.fed = s.m.fed ∧ m.dio = s.m.dio ∧ m.nextSeq = s.m.nextSeq ∧ m.sc.results = s.m.sc.results ∧
      m.sc.linkUp = true ∧ m.sc.regs.fld F.HBR_STATUS_LINK_UP = 1 ∧
      m.sc.regs.fld F.HBR_LINK_DOWN_COUNT = min (s.m.sc.regs.fld F.HBR_LINK_DOWN_COUNT + 1) 255))

/-- LOCK_ARM, LOCK_OPEN, LOCK_CLOSE and LOCK_ARM_TIMEOUT (R419, R420): an accepted 0x5A3C arms and leaves OPEN; the block's own KEY opens an
armed lock; KEY 0 closes it; the timeout ends ARMED alone. -/
def Obligations.LocksWork : Prop :=
  ∀ (s : State) (b : Blk) (q : BitVec 3),
    let reached := fun (l : LaneId) => blkHome b = .lane → l ∈ s.m.participants
    (s.m.Accepted b 0x28 0x5A3C q → Completes (.lockArm b q) s (fun m => m.sys = s.m.sys ∧ (∀ l, (m.lane l).si = (s.m.lane l).si) ∧
      ∀ l, reached l → (m.fileOf b l).lockArmed b = true ∧ (m.fileOf b l).lockOpen b = (s.m.fileOf b l).lockOpen b)) ∧
    (∀ k : W16, s.m.Accepted b 0x28 k.toNat q → k.toNat = blkCode b → Completes (.lockOpen b k q) s (fun m => m.sys = s.m.sys ∧
      (∀ l, (m.lane l).si = (s.m.lane l).si) ∧
      ∀ l, reached l → (m.fileOf b l).lockArmed b = false ∧ (m.fileOf b l).lockOpen b = true)) ∧
    (s.m.Accepted b 0x28 0 q → Completes (.lockClose b q) s (fun m => m.sys = s.m.sys ∧ (∀ l, (m.lane l).si = (s.m.lane l).si) ∧
      ∀ l, reached l → (m.fileOf b l).lockArmed b = false ∧ (m.fileOf b l).lockOpen b = false)) ∧
    Completes (.lockArmTimeout b) s (fun m => m.sys = s.m.sys ∧ m.out = s.m.out ∧ m.sc.done = s.m.sc.done ∧
      ∀ l, m.fileOf b l = (s.m.fileOf b l).putLock b ((s.m.fileOf b l).lockOpen b) false ∧ (m.lane l).si = (s.m.lane l).si)

/-- INT_PENDING_CLEAR, INT_ENABLE_WRITE and INT_FORCE (R416, R417): in every file that takes the write the set bits clear INT_RAW, or stand in
INT_ENABLE, or set INT_RAW, those bits alone that the block has. SHADOW_WRITE and SHADOW_DISCARD (R422, R423): the value stands at the
shadow's offset and the register keeps its own until a copy; a discard shows the register again; a write or discard that reaches one of the
participating lanes late is held, and no shadow shows it until the next copy. -/
def Obligations.InterruptsAndShadows : Prop :=
  ∀ (s : State) (b : Blk) (v : W32) (q : BitVec 3),
    let bits := v &&& BitVec.ofNat 32 (intMask b)
    (s.m.Accepted b 0x18 v.toNat q → Completes (.intPendingClear b v q) s (fun m => s.m.Rewrites m b 0x10 (fun x => x &&& ~~~bits) ∧
      s.m.Rewrites m b 0x14 (fun x => x) ∧ m.sys = s.m.sys)) ∧
    (s.m.Accepted b 0x14 v.toNat q → Completes (.intEnableWrite b v q) s (fun m => s.m.Rewrites m b 0x14 (fun _ => bits) ∧
      s.m.Rewrites m b 0x10 (fun x => x) ∧ m.sys = s.m.sys)) ∧
    (s.m.Accepted b 0x1C v.toNat q → Completes (.intForce b v q) s (fun m => s.m.sys.mode = 12 ∧
      s.m.Rewrites m b 0x10 (fun x => x ||| bits) ∧ s.m.Rewrites m b 0x14 (fun x => x) ∧ m.sys = s.m.sys)) ∧
    (∀ (off : BitVec 12) (late : BitVec 3), hasShadow b = true → shadowed b (off.toNat - 0x800) = true → 0x800 ≤ off.toNat →
      (∀ l ∈ s.m.participants, bitOf late.toNat (laneIx l) = false) →
      s.m.Takes b off.toNat v.toNat ⟨q, late⟩ → Completes (.shadowWrite b off v late q) s (fun m => m.sys = s.m.sys ∧
        ∀ l, (blkHome b = .lane → l ∈ s.m.participants) → m.readReg b l off.toNat = shadowValue b (off.toNat - 0x800) v.toNat ∧
          (m.fileOf b l).get (blkBase b + off.toNat - 0x800) = (s.m.fileOf b l).get (blkBase b + off.toNat - 0x800))) ∧
    (∀ (off : BitVec 12) (late : BitVec 3), hasShadow b = true → shadowed b (off.toNat - 0x800) = true → 0x800 ≤ off.toNat →
      (∀ l ∈ s.m.participants, bitOf late.toNat (laneIx l) = false) →
      s.m.Takes b 0x2C 1 ⟨q, late⟩ → Completes (.shadowDiscard b late q) s (fun m => m.sys = s.m.sys ∧
        ∀ l, (blkHome b = .lane → l ∈ s.m.participants) →
          m.readReg b l off.toNat = (s.m.fileOf b l).get (blkBase b + off.toNat - 0x800))) ∧
    (∀ (off : BitVec 12) (late : BitVec 3), hasShadow b = true → shadowed b (off.toNat - 0x800) = true → 0x800 ≤ off.toNat →
      (∃ l ∈ s.m.participants, bitOf late.toNat (laneIx l) = true) →
      (s.m.Takes b off.toNat v.toNat ⟨q, late⟩ → Completes (.shadowWrite b off v late q) s (fun m => m.sys = s.m.sys ∧
        ∀ l, m.readReg b l off.toNat = s.m.readReg b l off.toNat ∧
          (blkHome b = .lane → l ∈ s.m.participants → (blkBase b + off.toNat - 0x800, shadowValue b (off.toNat - 0x800) v.toNat) ∈ (m.lane l).held))) ∧
      (s.m.Takes b 0x2C 1 ⟨q, late⟩ → Completes (.shadowDiscard b late q) s (fun m => m.sys = s.m.sys ∧
        ∀ l, m.readReg b l off.toNat = s.m.readReg b l off.toNat)))

/-- The rows that write a register with an effect of its own: QUEUE_FLUSH (R114) empties the queue of every lane that takes it; SIGNATURE_INJECT
(R162) sets what the next signature carries; HANDBACK_RELEASE (R288) releases a held handback; NODE_LEAVE_REQUEST (R200), of a node in no
quarantine, and QUARANTINE_RELEASE (R224) mark a node as leaving; CLUSTER_BOUNDARY makes every such node ABSENT, in every lane, and it is no longer
leaving; BIST_START (R305) starts a run in the lanes that take it. None changes a State Image or the mode. -/
def Obligations.RegistersWithEffects : Prop :=
  ∀ (s : State) (q : BitVec 3),
    let quiet := fun (m : Mach) => m.sys.mode = s.m.sys.mode ∧ ∀ l, (m.lane l).si = (s.m.lane l).si
    (s.m.Takes .rte 0x8 1 ⟨q, 0⟩ → Completes (.queueFlush q) s (fun m => quiet m ∧ s.m.sys.mode = 12 ∧
      ∀ l, (l ∈ s.m.participants → (m.lane l).rte.queue = [] ∧
        ∀ r ∈ (s.m.lane l).rte.queue, (l, endResult s.m.sys.cluster (r, 8, 0)) ∈ m.sc.reported) ∧
        (l ∉ s.m.participants → (m.lane l).rte = (s.m.lane l).rte))) ∧
    (∀ k : BitVec 2, k ≠ 0 → s.m.Takes .vot 0x8 k.toNat ⟨q, 0⟩ → Completes (.signatureInject k q) s (fun m => quiet m ∧
      ∀ l ∈ s.m.participants, (m.lane l).inject = k.toNat)) ∧
    (s.m.Takes .red 0x114 1 ⟨q, 0⟩ → Completes (.handbackRelease q) s (fun m => quiet m ∧ m.sys = s.m.sys ∧
      (s.m.fld F.RED_PAIR_CFG_HANDBACK_HOLD = 1 → m.fed = { s.m.fed with released := true }) ∧
      (s.m.fld F.RED_PAIR_CFG_HANDBACK_HOLD ≠ 1 → m.fed = s.m.fed))) ∧
    (∀ (p : Fin 16) (k : BitVec 7) (o : Offer), s.m.Takes (.ttp p) 0x6C (0x80 + k.toNat) o → Completes (.nodeLeaveRequest p k o) s (fun m =>
      quiet m ∧ m.sys = s.m.sys ∧ ((s.m.node (nodeAddr p.val k.toNat)).quarantined = false → (m.node (nodeAddr p.val k.toNat)).leaving = true) ∧
      (m.port p.val).own = (s.m.port p.val).own ++ [(4, nodeAddr p.val k.toNat, 9, leavePayload 1)] ∧
      ∀ a, a ≠ nodeAddr p.val k.toNat → m.node a = s.m.node a)) ∧
    (∀ (a : BitVec 11) (o : Offer), s.m.Takes .stg 0x84 a.toNat o → Completes (.quarantineRelease a o) s (fun m => quiet m ∧ m.sys = s.m.sys ∧
      m.node a.toNat = { s.m.node a.toNat with leaving := true } ∧ m.ph.ports = s.m.ph.ports)) ∧
    (s.m.sys.originAgreed = true → Completes .clusterBoundary s (fun m => quiet m ∧ ∀ a, (s.m.node a).leaving = true →
      (m.node a).leaving = false ∧ ∀ l, (Store.get NodeComm.absent (m.lane l).live.node a).state = 2)) ∧
    (∀ w : W32, s.m.Takes .bst 0x40 w.toNat ⟨q, 0⟩ → bitOf w.toNat 0 = true → bitsOf w.toNat 7 4 = 0 → Completes (.bistStart w q) s
      (fun m => quiet m ∧ ∀ l ∈ s.m.participants, .lane l ∈ m.sys.bistRun ∧
        (.lane l ∉ s.m.sys.bistRun → .lane l ∈ m.sys.bistHost ∧
          (m.lane l).regs.fld F.BST_STATUS_RUNNING = 1 ∧ (m.lane l).regs.fld F.BST_STATUS_ISOLATED = 1))) ∧
    (∀ w : W32, s.m.Takes .bst 0x40 w.toNat ⟨q, 0⟩ → bitOf w.toNat 0 = false → Completes (.bistStart w q) s (fun m => quiet m ∧
      m.sys = s.m.sys ∧ ∀ l ∈ s.m.participants, (m.lane l).regs.fld F.BST_CTRL_SCOPE = bitsOf w.toNat 2 1))

/-- REGISTER_WRITE and LANE_REGS_WRITE (R344, R345, R349 to R351, R358, R368): a posted 8-byte write to an enabled request register is the
request row; a 4-byte write to INT_ENABLE of a page of BAR0 sets it; the pages of the lanes' SYS views fail with cause 2; an unmasked MSI-X
vector that was pending is sent (the layout of the table is the model's, assumption 103); a lane's housekeeping core sets the length of a
scan engine that does not run, in every mode with its domain powered, the firmware the count of an idle SC DMA channel it owns; a Swap to a LANE_REGS
window that is not open as one is an Unsupported Request, and an open one answers in its slot: ACCEPTED with the register written as the byte order
of the window has it (R347), or STATUS 3 where no register is; a posted write to a window that is OFF fails with cause 4, one of up to 256 bytes to an
SC_DRAM window stores its bytes in the staging area, and in UPDATE fails with cause 2; a command write of another width than its slot's fails with
cause 8, one while the same slot awaits its answer with cause 7 (R350, R352, R402). -/
def Obligations.RegisterWrites : Prop :=
  ∀ (s : State) (q : BitVec 3),
    (∀ (off : W16) (mb : Fin 8) (w : W64) (o : Offer), off.toNat = 0x3040 + 0x20 * mb.val →
      (s.m.sc.regs.fld F.HBR_CMD_CFG_MBX_WR / 2 ^ mb.val % 2 = 1 →
        exec (.registerWrite (.bar0 off ⟨o, false⟩) 8 (w.setWidth 2048)) s = exec (.setRoute mb w o.silent) s ∧
        Completes (.registerWrite (.bar0 off ⟨o, true⟩) 8 (w.setWidth 2048)) s (fun m => m.sc.regs.fld F.HBR_WR_ERR_CAUSE = 7 ∧
          (∀ l, m.lane l = s.m.lane l) ∧ m.sys = s.m.sys ∧ m.sc.done = s.m.sc.done)) ∧
      Completes (.registerWrite (.bar0 off ⟨o, false⟩) 4 (w.setWidth 2048)) s (fun m => m.sc.regs.fld F.HBR_WR_ERR_CAUSE = 8 ∧
        (∀ l, m.lane l = s.m.lane l) ∧ m.sys = s.m.sys ∧ m.sc.done = s.m.sc.done)) ∧
    (∀ (off : W16) (b : Blk) (v : BitVec 2048) (p : Posted), bar0Page off.toNat = some b → off.toNat % 0x1000 = 0x14 →
      Completes (.registerWrite (.bar0 off p) 4 v) s (fun m => m.sc.regs.get (blkBase b + 0x14) =
        BitVec.ofNat 32 (v.toNat % 2 ^ 32) &&& BitVec.ofNat 32 (intMask b) ∧ (∀ l, m.lane l = s.m.lane l) ∧ m.sys = s.m.sys)) ∧
    (∀ (off : W16) (v : BitVec 2048) (p : Posted), 0x4000 ≤ off.toNat → off.toNat < 0x7000 → Completes (.registerWrite (.bar0 off p) 4 v) s (fun m =>
      m.sc.regs.fld F.HBR_WR_ERR_CAUSE = 2 ∧ m.sc.regs.fld F.HBR_WR_ERR_ADDR_OFFSET = off.toNat ∧ (∀ l, m.lane l = s.m.lane l) ∧
      m.sys = s.m.sys)) ∧
    (∀ (n : Fin 32) (off : W16) (v : BitVec 2048) (p : Posted), off.toNat = 0x700C + 16 * n.val → v.toNat % 2 = 0 → bitOf s.m.msi.pend.toNat n.val = true →
      Completes (.registerWrite (.bar0 off p) 4 v) s (fun m => m.out = .msix n.val :: s.m.out ∧ m.msi.masked n.val = false ∧
        bitOf m.msi.pend.toNat n.val = false ∧ (∀ l, m.lane l = s.m.lane l) ∧ m.sys = s.m.sys ∧ m.sc = s.m.sc)) ∧
    (∀ (l : LaneId) (e : Fin 2) (off : W16) (v : BitVec 2048), 2 ≤ s.m.sys.mode → off.toNat = 0x6050 + 0x40 * e.val →
      (s.m.lane l).regs.fld (F.CRC_SCANm_STATUS_STATE e.val) ≠ 1 → s.m.scanReserved l e.val = false →
      Completes (.registerWrite (.core l off) 4 v) s (fun m => (m.lane l).scanLen e.val = v.toNat % 2 ^ 32 ∧
        (∀ k, k ≠ l → m.lane k = s.m.lane k) ∧ m.lane l = { s.m.lane l with regs := (m.lane l).regs } ∧ m.sys = s.m.sys ∧
        m.sc = s.m.sc)) ∧
    (∀ (k : Fin 2) (off : BitVec 12) (v : BitVec 2048), 2 ≤ s.m.sys.mode → off.toNat = 0x598 + 0x40 * k.val → s.m.dmaState .sc (6 + k.val) ∉ [1, 2, 3] →
      Completes (.registerWrite (.firmware off) 4 v) s (fun m => m.dmaFld .sc F.DMA_CHn_COUNT_COUNT (6 + k.val) = v.toNat % 2 ^ 32 ∧
        (∀ l, m.lane l = s.m.lane l) ∧ m.sys = s.m.sys ∧ m.out = s.m.out)) ∧
    (∀ (n : Fin 8) (off : BitVec 25) (v : W32) (late : BitVec 3),
      (s.m.sc.regs.fld (F.HBR_WIN_CFGn_ENABLE n.val) = 0 → Completes (.laneRegsWrite n off v ⟨q, late⟩) s (fun m =>
        m.out = .unsupported :: s.m.out ∧ m.sc.regs.get (blkBase .hbr + 0x24) = BitVec.ofNat 32 (n.val * 0x2000000 + off.toNat) ∧ m.sc.done = s.m.sc.done ∧
        (∀ l, m.lane l = s.m.lane l) ∧ m.sys = s.m.sys)) ∧
      (s.m.sc.regs.fld (F.HBR_WIN_CFGn_ENABLE n.val) = 1 → s.m.sc.regs.fld (F.HBR_WIN_CFGn_TARGET n.val) = 3 →
        let t := ordered (s.m.sc.regs.fld (F.HBR_WIN_CFGn_ORDER n.val)) 4 off.toNat v.toNat
        t.1 < 0x30000 → s.m.participants ≠ [] →
        (∀ b, pageOf (0x40000000 + t.1) = some b → t.1 % 0x1000 = 0x14 → s.m.Takes b 0x14 t.2 ⟨q, late⟩ →
          Completes (.laneRegsWrite n off v ⟨q, late⟩) s (fun m => s.m.SlotAccepted m (9 + n.val) 0x14 ∧ m.sys = s.m.sys ∧
            s.m.Rewrites m b 0x14 (fun _ => BitVec.ofNat 32 t.2 &&& BitVec.ofNat 32 (intMask b)))) ∧
        (pageOf (0x40000000 + t.1) = none → Completes (.laneRegsWrite n off v ⟨q, late⟩) s (fun m =>
          Store.get noDone m.sc.done (9 + n.val) = BitVec.ofNat 64 (statusWord 3 0 (t.1 % 0x1000)) ∧
          (∀ l, m.lane l = s.m.lane l) ∧ m.sys = s.m.sys)))) ∧
    (∀ (n : Fin 8) (off : BitVec 25) (v : BitVec 2048) (size : Nat) (p : Posted), 1 ≤ size → size ≤ 256 →
      let alone := fun (m : Mach) => (∀ l, m.lane l = s.m.lane l) ∧ m.sys = s.m.sys ∧ m.sc.done = s.m.sc.done
      let a := s.m.windowBase n.val + off.toNat
      (s.m.sc.regs.fld (F.HBR_WIN_CFGn_ENABLE n.val) = 0 → Completes (.registerWrite (.bar2 n off p) size v) s (fun m => alone m ∧
        m.sc.regs.fld F.HBR_WR_ERR_CAUSE = 4 ∧ m.sc.dram = s.m.sc.dram)) ∧
      (s.m.sc.regs.fld (F.HBR_WIN_CFGn_ENABLE n.val) = 1 → s.m.sc.regs.fld (F.HBR_WIN_CFGn_TARGET n.val) = 4 →
        s.m.sc.regs.fld (F.HBR_WIN_CFGn_ORDER n.val) = 0 →
        (0x20000000 ≤ a → a + size ≤ 0x40000000 → s.m.sys.mode ≠ 13 → Completes (.registerWrite (.bar2 n off p) size v) s (fun m => alone m ∧
          (∀ k, k < size → m.sc.dram.byte (a + k) = BitVec.ofNat 8 (v.toNat / 256 ^ k)) ∧
          ∀ k, k < a ∨ a + size ≤ k → m.sc.dram.byte k = s.m.sc.dram.byte k)) ∧
        (s.m.sys.mode = 13 → a + size ≤ 0x80000000 → Completes (.registerWrite (.bar2 n off p) size v) s (fun m => alone m ∧
          m.sc.regs.fld F.HBR_WR_ERR_CAUSE = 2 ∧ m.sc.dram = s.m.sc.dram))))

/-- IMG_ERASE to IMG_SELECT (R59 to R61): with the lock of UPD open and the other slot selected, a slot goes to erasing, EMPTY, WRITING with the
length set, closing, VALID or FAILED as its header and seal say; the other slot and every lane stay. In MAINTENANCE a VALID slot can be selected. -/
def Obligations.FlashSlotsKept : Prop :=
  ∀ (s : State) (k : Bool),
    let one := fun (m : Mach) (x : FlashSlot) => m.slotOf (b2n k) = x ∧ m.slotOf (b2n !k) = s.m.slotOf (b2n !k) ∧
      (∀ l, m.lane l = s.m.lane l) ∧ m.sys = s.m.sys ∧ m.sc.dram = s.m.sc.dram
    let x := s.m.slotOf (b2n k)
    let mayWrite := s.m.sc.regs.lockOpen .upd = true ∧ s.m.sc.regs.fld F.UPD_IMG_SELECT_SLOT ≠ b2n k
    let n := s.m.sc.regs.fld F.UPD_IMG_WRITE_LEN_LENGTH
    (mayWrite → Completes (.imgErase k) s (fun m => one m { x with state := 4, closing := false })) ∧
    (x.state = 4 → Completes (.imgEraseDone k) s (fun m => one m FlashSlot.empty)) ∧
    (mayWrite → x.state = 0 → 8 ≤ n → n ≤ 0x80000000 → n % 8 = 0 → Completes (.imgOpen k) s (fun m =>
      one m { x with state := 1, len := n, written := [], closing := false })) ∧
    (mayWrite → x.state = 1 → Completes (.imgClose k) s (fun m => one m { x with closing := true, len := n })) ∧
    (x.state = 1 → x.closing = true → Completes (.imgCheckDone k) s (fun m =>
      one m { x with state := if x.sound then 2 else 3, closing := false } ∧
      m.sc.regs.fld (if k then F.UPD_IMG_SLOT_STATUS_B_STATE else F.UPD_IMG_SLOT_STATUS_A_STATE) = (if x.sound then 2 else 3))) ∧
    (¬mayWrite → Completes (.imgErase k) s (fun m => one m x) ∧ Completes (.imgOpen k) s (fun m => one m x) ∧
      Completes (.imgClose k) s (fun m => one m x)) ∧
    (s.m.sc.regs.lockOpen .upd = true → s.m.sys.mode = 12 → x.state = 2 → Completes (.imgSelect (BitVec.ofNat 32 (b2n k))) s (fun m =>
      one m x ∧ m.sc.regs.fld F.UPD_IMG_SELECT_SLOT = b2n k ∧ m.sc.regs.fld F.UPD_IMG_SLOT_STATUS_SELECTED = b2n k)) ∧
    (s.m.sys.mode ≠ 12 → Completes (.imgSelect (BitVec.ofNat 32 (b2n k))) s (fun m => one m x ∧
      m.sc.regs.fld F.UPD_IMG_SELECT_SLOT = s.m.sc.regs.fld F.UPD_IMG_SELECT_SLOT))

/-- EVR_FLUSH, FLUSH_TIMER, FLUSH_BATCH_DONE, EVR_FETCH, EVR_FETCH_DONE, EVR_CLEAR and EVR_CLEAR_ERASE_DONE (R395 to R399): a flush in progress
shows and ends with nothing waiting; a fetch within R397 runs and ends with the records in the staging area; a clear outside its conditions is
refused with its result and takes nothing; an accepted one moves the mark and erases in the background; in lifecycle 4 it must be authorised, and an
unauthorised one has result 2. The order of the refusals is the model's choice (assumption 43). But for the challenge no lane changes. -/
def Obligations.EventStore : Prop :=
  ∀ s : State,
    let alone := fun (m : Mach) => (∀ l, m.lane l = s.m.lane l) ∧ m.sys = s.m.sys ∧ m.ph = s.m.ph ∧ m.fed = s.m.fed ∧ m.dio = s.m.dio
    let n := s.m.sc.regs.fld F.EVR_FETCH_COUNT_COUNT
    let o := s.m.sc.regs.fld F.EVR_FETCH_OFFSET_OFFSET
    Completes .evrFlush s (fun m => alone m ∧ m.sc.flushing = true ∧ m.sc.regs.fld F.EVR_STATUS_FLUSHING = 1 ∧ s.m.sc.RegsOnly m.sc) ∧
    (s.m.sc.unflushed ≠ [] → Completes .flushTimer s (fun m => alone m ∧ m.sc.flushing = true ∧ s.m.sc.RegsOnly m.sc)) ∧
    (s.m.sc.unflushed = [] → Completes .flushTimer s (fun m => m = s.m)) ∧
    (s.m.sc.flushing = true → Completes .flushBatchDone s (fun m => alone m ∧ m.sc.flushing = false ∧ m.sc.unflushed = [] ∧
      m.sc.regs.fld F.EVR_STATUS_FLUSHING = 0 ∧ m.sc.dram = s.m.sc.dram)) ∧
    (s.m.sc.flushing = false → Completes .flushBatchDone s (fun m => m = s.m)) ∧
    (s.m.sys.mode ≠ 13 → s.m.sc.fetching = none → 1 ≤ n → n ≤ 1048576 → o % 32 = 0 → o + n * 32 ≤ 0x20000000 →
      Completes .evrFetch s (fun m => alone m ∧ m.sc.fetching = some (s.m.sc.regs.fld F.EVR_FETCH_SEQ_SEQUENCE, n, 0x20000000 + o) ∧
        m.sc.regs.fld F.EVR_STATUS_FETCHING = 1 ∧ m.sc.dram = s.m.sc.dram)) ∧
    (s.m.sys.mode = 13 ∨ s.m.sc.fetching ≠ none ∨ n = 0 ∨ 1048576 < n ∨ o % 32 ≠ 0 ∨ 0x20000000 < o + n * 32 → Completes .evrFetch s (fun m => alone m ∧
      m.sc.fetching = s.m.sc.fetching ∧ m.sc.regs.get (blkBase .evr + 0x24) = 0x8 ∧ m.sc.dram = s.m.sc.dram)) ∧
    (∀ q c a, s.m.sc.fetching = some (q, c, a) → Completes .evrFetchDone s (fun m => alone m ∧ m.sc.fetching = none ∧
      m.sc.regs.fld F.EVR_STATUS_FETCHING = 0 ∧ m.sc.dram = s.m.sc.dram.write a
        ((sequences c q).flatMap s.m.sc.storedRecord))) ∧
    (∀ w : W32,
      (s.m.a.lifecycle = 1 ∨ s.m.a.lifecycle = 5 → Completes (.evrClear w) s (fun m => alone m ∧
        m.sc.regs.fld F.EVR_CLEAR_RESULT_RESULT = 3 ∧ m.sc.unflushed = s.m.sc.unflushed ∧ m.sc.clearing = s.m.sc.clearing)) ∧
      (s.m.a.lifecycle ∈ [2, 3] → s.m.sc.clearing = true ∨ s.m.sys.powerLoss = true ∨ s.m.sys.mode = 13 → Completes (.evrClear w) s (fun m =>
        alone m ∧ m.sc.regs.fld F.EVR_CLEAR_RESULT_RESULT = 4 ∧ m.sc.unflushed = s.m.sc.unflushed)) ∧
      (s.m.a.lifecycle ∈ [2, 3] → s.m.sc.clearing = false → s.m.sys.powerLoss = false → s.m.sys.mode ≠ 13 →
        w.toNat ≠ 0xFFFFFFFF →
        newer 32 w.toNat (olderSeq (s.m.sc.regs.fld F.EVR_TAIL_SEQUENCE) (s.m.sc.regs.fld F.EVR_FLASH_TAIL_SEQUENCE)) = true →
        newer 32 w.toNat (s.m.sc.regs.fld F.EVR_HEAD_SEQUENCE) = false → Completes (.evrClear w) s (fun m => alone m ∧
          m.sc.clearing = true ∧ m.sc.regs.fld F.EVR_CLEAR_RESULT_RESULT = 1 ∧ m.sc.regs.fld F.EVR_CLEAR_MARK_UPTO = w.toNat ∧
          m.sc.regs.fld F.EVR_STATUS_CLEARING = 1)) ∧
      (s.m.a.lifecycle = 4 →
        let kept := fun (m : Mach) => m.sys.mode = s.m.sys.mode ∧ m.ph = s.m.ph ∧ m.fed = s.m.fed ∧ m.dio = s.m.dio ∧
          ∀ l, (s.m.lane l).RegsOnly (m.lane l)
        (s.m.responds (0xC1 :: be 4 w.toNat) = false → Completes (.evrClear w) s (fun m => kept m ∧
          m.sc.regs.fld F.EVR_CLEAR_RESULT_RESULT = 2 ∧ m.sc.clearing = s.m.sc.clearing ∧ m.sc.store = s.m.sc.store)) ∧
        (s.m.responds (0xC1 :: be 4 w.toNat) = true → s.m.sc.clearing = false → s.m.sys.powerLoss = false → s.m.sys.mode ≠ 13 →
          w.toNat ≠ 0xFFFFFFFF →
          newer 32 w.toNat (olderSeq (s.m.sc.regs.fld F.EVR_TAIL_SEQUENCE) (s.m.sc.regs.fld F.EVR_FLASH_TAIL_SEQUENCE)) = true →
          newer 32 w.toNat (s.m.sc.regs.fld F.EVR_HEAD_SEQUENCE) = false → Completes (.evrClear w) s (fun m => kept m ∧
            m.sc.clearing = true ∧ m.sc.regs.fld F.EVR_CLEAR_RESULT_RESULT = 1 ∧ m.sc.regs.fld F.EVR_CLEAR_MARK_UPTO = w.toNat ∧
            m.sc.regs.fld F.EVR_STATUS_CLEARING = 1)))) ∧
    (s.m.sc.clearing = true → Completes .evrClearEraseDone s (fun m => alone m ∧ m.sc.clearing = false ∧
      m.sc.regs.fld F.EVR_STATUS_CLEARING = 0 ∧
      ∀ e ∈ m.sc.store, e ∈ s.m.sc.store ∧ newer 32 (s.m.sc.regs.fld F.EVR_CLEAR_MARK_UPTO) (recordSeq e.2) = false))

/-- EVENT_REPORT, MERGE_TIMEOUT, PERST, HOST_LINK_FAIL and HOST_LINK_RESTORE (R31, R390 to R393, R440): the oldest staged record of a lane leaves
it, and a delayed one, or a waiting one whose time is out, is stored under the next sequence; while storing it would overwrite a record not yet
flushed, the lane holds it; a lane whose link fails holds its records, which go out DELAYED. That LINK_UP is set again when PERST# is deasserted is
the model's choice (assumption 126). -/
def Obligations.ReportsAndLinks : Prop :=
  ∀ (s : State) (l : LaneId),
    let head := s.m.sc.regs.fld F.EVR_HEAD_SEQUENCE
    (∀ e t, s.m.sc.regs.fld F.EVR_STATUS_RUNNING = 1 → (s.m.lane l).hostLink = true → (s.m.lane l).events = e :: t →
      (s.m.sc.bufferFull = true → Completes (.eventReport l) s (fun m => (m.lane l).events = e :: t ∧
        (m.lane l).regs.fld F.EVL_STATUS_HOLDING = 1 ∧ (∀ k, k ≠ l → m.lane k = s.m.lane k) ∧ m.sys = s.m.sys ∧ m.ph = s.m.ph ∧ m.sc = s.m.sc)) ∧
      (s.m.sc.bufferFull = false → Completes (.eventReport l) s (fun m => (m.lane l).events = t ∧
        (∀ k, k ≠ l → m.lane k = s.m.lane k) ∧ m.sys = s.m.sys ∧ m.ph = s.m.ph ∧ (m.lane l).si = (s.m.lane l).si ∧
        (e.delayed = true → m.sc.regs.fld F.EVR_HEAD_SEQUENCE = nextSequence head ∧ m.sc.unflushed = s.m.sc.unflushed ++ [head])))) ∧
    ((s.m.lane l).events = [] → Completes (.eventReport l) s (fun m => m = s.m)) ∧
    (∀ w t, s.m.sc.waiting = w :: t → Completes .mergeTimeout s (fun m => m.sc.waiting = t ∧
      m.sc.regs.fld F.EVR_HEAD_SEQUENCE = nextSequence head ∧ m.sc.unflushed = s.m.sc.unflushed ++ [head] ∧
      (∀ k, m.lane k = s.m.lane k) ∧ m.sys = s.m.sys)) ∧
    (s.m.sc.waiting = [] → Completes .mergeTimeout s (fun m => m = s.m)) ∧
    (s.m.sc.perst = none → (s.m.lane l).hostLink = true → Completes (.hostLinkFail l) s (fun m => (m.lane l).hostLink = false ∧
      (s.m.lane l).events.map (fun e => { e with delayed := true }) <+: (m.lane l).events ∧
      ((s.m.lane l).evLost = 0 → (s.m.lane l).events.length < stagingMax → ∃ e : Event, e.delayed = true ∧
        (m.lane l).events = (s.m.lane l).events.map (fun e => { e with delayed := true }) ++ [e]) ∧
      (m.lane l).regs.fld F.EVL_STATUS_HOLDING = 1 ∧ (∀ k, k ≠ l → m.lane k = s.m.lane k) ∧ m.sys = s.m.sys ∧ m.sc = s.m.sc)) ∧
    (s.m.sc.perst = none → (s.m.lane l).hostLink = false → Completes (.hostLinkRestore l) s (fun m => (m.lane l).hostLink = true ∧
      (m.lane l).events = (s.m.lane l).events ∧ (m.lane l).regs.fld F.EVL_STATUS_RUNNING = 1 ∧
      (∀ k, k ≠ l → m.lane k = s.m.lane k) ∧ m.sys = s.m.sys ∧ m.sc = s.m.sc)) ∧
    (s.m.sc.perst = none → Completes (.perst true) s (fun m => m.sc.linkUp = false ∧ (∀ k, (m.lane k).hostLink = false) ∧
      m.sc.perst = some (laneSet (fun k => (s.m.lane k).hostLink)) ∧ m.sc.regs.fld F.HBR_STATUS_LINK_UP = 0 ∧ m.sys = s.m.sys ∧
      ∀ k, (m.lane k).si = (s.m.lane k).si)) ∧
    (∀ u, s.m.sc.perst = some u → (∀ k, (s.m.lane k).hostLink = false) → Completes (.perst false) s (fun m => m.sc.linkUp = true ∧
      m.sc.perst = none ∧ m.sc.regs.fld F.HBR_STATUS_LINK_UP = 1 ∧ (∀ k, (m.lane k).hostLink = bitOf u (laneIx k)) ∧
      m.sys = { s.m.sys with free := m.sys.free }))

/-- DMA_COPY, DMA_FILL, DMA_COMPARE, DMA_DONE, DMA_ABORT and DMA_STOPPED (R359 to R362): a start between two places of a lane's DRAM that passes
its checks moves what its beats carry, and DMA_DONE the rest: the bytes copied, those a pre-emption has left read first, or those of FILL; a compare
writes nothing and says whether they differ; every other byte stays. The bytes of a copy are stated where its source and destination do not overlap (of
one that begins inside its source, assumption 142). A transfer whose range has come to be protected ends in error 1. An abort
stops a channel that runs, and the stopped channel ends in error 8 and its error bit, IDLE or with its deferred start begun; a start that fails a
check ends with its ERROR code and moves nothing (of two that fail, the order is the model's choice, assumption 41). In OFF and DORMANT the unit does
nothing (R320). -/
def Obligations.DmaMovesBytes : Prop :=
  ∀ (s : State) (l : LaneId) (ch : Fin 16), Memory.wf (s.m.lane l).dram = true →
    let d := (s.m.lane l).dram
    let rest := fun (m : Mach) => (∀ k, k ≠ l → m.lane k = s.m.lane k) ∧ m.sys = { s.m.sys with free := m.sys.free } ∧ m.ph = s.m.ph ∧ m.sc = s.m.sc ∧
      (m.lane l).si = (s.m.lane l).si ∧ (m.lane l).sram = (s.m.lane l).sram
    let u := DmaUnit.lane l
    let on := 2 ≤ s.m.sys.mode
    let reg := fun (m : Mach) (f : Nat → Nat → Field) => (m.lane l).regs.fld (f laneDma ch.val)
    let now := s.m.xfer u ch.val
    let left := reg s.m F.DMA_CHn_REMAIN_REMAIN
    let pos := now.count - left
    let kept := s.m.dmaKept u ch.val
    let shut := s.m.dmaShut u ch.val now (now.dst + pos) left
    let errBit := fun (m : Mach) => bitOf ((m.lane l).regs.get (laneDma + 0x10)).toNat (I.DMA_ERR + ch.val) = true
    let apart := fun (t : Xfer) => t.src + t.count ≤ t.dst ∨ t.dst + t.count ≤ t.src
    let runs := on ∧ s.m.dmaState u ch.val = 1 ∧ s.m.dmaOutranked u ch.val = false ∧ s.m.dmaPeers u ch.val = [] ∧ left ≤ now.count ∧
      now.srcSpace = 1 ∧ now.dstSpace = 1
    (∀ (ctrl : W32) (beats : Nat) (host : List Byte), s.m.DramStart l ch.val ctrl 0 →
      let x := (s.m.dmaSet u ch.val ctrl).xfer u ch.val
      let n := min (beats * 64) x.count
      Completes (.dmaCopy u ch ctrl beats host) s (fun m => rest m ∧ reg m F.DMA_CHn_REMAIN_REMAIN = x.count - n ∧
        m.dmaState u ch.val = 1 ∧ (apart x → ∀ k, k < n → (m.lane l).dram.byte (x.dst + k) = d.byte (x.src + k)) ∧
        ∀ a, a < x.dst ∨ x.dst + n ≤ a → (m.lane l).dram.byte a = d.byte a)) ∧
    (∀ (ctrl : W32) (beats : Nat), s.m.DramStart l ch.val ctrl 1 →
      let x := (s.m.dmaSet u ch.val ctrl).xfer u ch.val
      let n := min (beats * 64) x.count
      Completes (.dmaFill u ch ctrl beats) s (fun m => rest m ∧ reg m F.DMA_CHn_REMAIN_REMAIN = x.count - n ∧
        m.dmaState u ch.val = 1 ∧ (∀ k, k < n → (m.lane l).dram.byte (x.dst + k) = (be 8 x.fill).getD (k % 8) 0) ∧
        ∀ a, a < x.dst ∨ x.dst + n ≤ a → (m.lane l).dram.byte a = d.byte a)) ∧
    (∀ (ctrl : W32) (beats : Nat) (host : List Byte), s.m.DramStart l ch.val ctrl 2 → bitOf ctrl.toNat 25 = false →
      let x := (s.m.dmaSet u ch.val ctrl).xfer u ch.val
      let n := min (beats * 64) x.count
      Completes (.dmaCompare u ch ctrl beats host) s (fun m => rest m ∧ reg m F.DMA_CHn_REMAIN_REMAIN = x.count - n ∧
        m.dmaState u ch.val = 1 ∧ (m.lane l).dram = d ∧
        (reg m F.DMA_CHn_STATUS_DIFFER = 0 ↔ ∀ k, k < n → d.byte (x.src + k) = d.byte (x.dst + k)))) ∧
    (∀ (ctrl : W32) (beats : Nat) (c : Nat), on → bitOf ctrl.toNat 31 = true → ch.val < 12 → s.m.dmaState u ch.val ∉ [1, 2, 3] →
      (s.m.dmaSet u ch.val ctrl).dmaCheck u ch.val = c → c ≠ 0 →
      Completes (.dmaFill u ch ctrl beats) s (fun m => rest m ∧ m.dmaState u ch.val = 5 ∧ reg m F.DMA_CHn_STATUS_ERROR = c ∧
        (m.lane l).dram = d)) ∧
    (∀ host, runs → now.op = 0 → Completes (.dmaDone u ch ⟨host, true⟩) s (fun m => rest m ∧ m.dmaState u ch.val = 5 ∧
      reg m F.DMA_CHn_STATUS_ERROR = 3 ∧ reg m F.DMA_CHn_REMAIN_REMAIN = left ∧ (m.lane l).dram = d)) ∧
    (∀ host, runs → now.op = 0 → shut = false → Completes (.dmaDone u ch ⟨host, false⟩) s (fun m => rest m ∧ m.dmaState u ch.val = 4 ∧
      reg m F.DMA_CHn_REMAIN_REMAIN = 0 ∧ (apart now → ∀ k, k < left → (m.lane l).dram.byte (now.dst + pos + k) =
        if k < kept.length then kept.getD k 0 else d.byte (now.src + pos + k)) ∧
      ∀ a, a < now.dst + pos ∨ now.dst + pos + left ≤ a → (m.lane l).dram.byte a = d.byte a)) ∧
    (∀ host, runs → now.op = 0 → shut = true → Completes (.dmaDone u ch ⟨host, false⟩) s (fun m => rest m ∧ m.dmaState u ch.val = 5 ∧
      reg m F.DMA_CHn_STATUS_ERROR = 1 ∧ errBit m ∧ (m.lane l).dram = d)) ∧
    (on → s.m.dmaState u ch.val = 1 ∨ s.m.dmaState u ch.val = 2 → Completes (.dmaAbort u ch) s (fun m => rest m ∧ m.dmaState u ch.val = 3 ∧
      (m.lane l).dram = d ∧ reg m F.DMA_CHn_REMAIN_REMAIN = left)) ∧
    (on → s.m.dmaState u ch.val = 3 → reg s.m F.DMA_CHn_STATUS_DEFERRED = 0 → Completes (.dmaStopped u ch) s (fun m => rest m ∧
      m.dmaState u ch.val = 0 ∧ reg m F.DMA_CHn_STATUS_ERROR = 8 ∧ reg m F.DMA_CHn_CTRL_ENABLE = 0 ∧ errBit m ∧ (m.lane l).dram = d)) ∧
    (on → s.m.dmaState u ch.val = 3 → reg s.m F.DMA_CHn_STATUS_DEFERRED = 1 → Completes (.dmaStopped u ch) s (fun m => rest m ∧
      errBit m ∧ reg m F.DMA_CHn_STATUS_DEFERRED = 0 ∧ (m.lane l).dram = d ∧
      m.dmaState u ch.val = (if s.m.dmaCheck u ch.val = 0 then 1 else 5) ∧ reg m F.DMA_CHn_REMAIN_REMAIN = now.count)) ∧
    (s.m.dmaState u ch.val ≠ 3 → Completes (.dmaStopped u ch) s (fun m => m = s.m)) ∧
    (¬on → ∀ ctrl beats host e, ∀ c ∈ [Instr.dmaCopy u ch ctrl beats host, .dmaFill u ch ctrl beats, .dmaCompare u ch ctrl beats host,
      .dmaDone u ch e, .dmaAbort u ch, .dmaStopped u ch], Completes c s (fun m => m = s.m))

/-- SCAN_CRC64, SCAN_CRC32C, SCAN_SEAL_WRITE, SCAN_SEAL_CHECK, SCAN_PAUSE, SCAN_CONTINUE and SCAN_DONE (R364, R365): a start that passes its checks
runs from position 0 with the initial value of its mode, one that does not ends with its error, and one to an engine that runs or that the scan of the
State Image holds (assumption 77) is counted and ignored; RUNNING shows 0 at the start in the modes of a seal (assumption 40); a pause stops after its words, and goes on from there; at the end of a scan over the whole
range RESULT is its CRC. Only the lane's registers change in modes 0, 1 and 3. SNOOP_INIT and CRC_CHANNEL_ENABLE (R366, R368): the snoop context
starts at its initial value with no bytes counted, an ALG that is none is counted and ignored; a channel takes its settings where channels are
available, from the initial value unless it continues, and elsewhere is counted and ignored. In OFF and DORMANT the units do nothing (R320). -/
def Obligations.CheckUnitsWork : Prop :=
  (∀ (s : State) (l : LaneId) (e : Fin 2),
     let x := s.m.lane l
     let rest := fun (m : Mach) => (∀ k, k ≠ l → m.lane k = s.m.lane k) ∧ m.sys = s.m.sys ∧ m.ph = s.m.ph ∧ m.sc = s.m.sc
     let only := fun (m : Mach) => m.lane l = { x with regs := (m.lane l).regs }
     let reg := fun (m : Mach) (f : Nat → Field) => (m.lane l).regs.fld (f e.val)
     let on := 2 ≤ s.m.sys.mode
     let state := reg s.m F.CRC_SCANm_STATUS_STATE
     let begun := fun (m : Mach) (mode init : Nat) => rest m ∧ only m ∧ reg m F.CRC_SCANm_STATUS_STATE = 1 ∧ reg m F.CRC_SCANm_POS_POS = 0 ∧
       reg m F.CRC_SCANm_CTRL_MODE = mode ∧ reg m F.CRC_SCANm_STATUS_ERROR = 0 ∧
       (m.lane l).regs.pair (F.CRC_SCANm_RUNNING_LO_RUNNING e.val) (F.CRC_SCANm_RUNNING_HI_RUNNING e.val) = init
     let failed := fun (m : Mach) (c : Nat) => rest m ∧ only m ∧ reg m F.CRC_SCANm_STATUS_STATE = 4 ∧ reg m F.CRC_SCANm_STATUS_ERROR = c ∧
       reg m F.CRC_SCANm_CTRL_START = 0
     (∀ c mode init, (c, mode, init) ∈ [(Instr.scanCrc64 l e, 0, 0), (.scanCrc32c l e, 1, 0xFFFFFFFF), (.scanSealWrite l e, 2, 0),
         (.scanSealCheck l e, 3, 0)] → on → state ≠ 1 → s.m.scanReserved l e.val = false →
       (x.scanCheck e.val mode = 0 → Completes c s (fun m => begun m mode init)) ∧
       (x.scanCheck e.val mode ≠ 0 → Completes c s (fun m => failed m (x.scanCheck e.val mode)))) ∧
     (∀ n, on → state = 1 → reg s.m F.CRC_SCANm_CTRL_MODE ≠ 2 → reg s.m F.CRC_SCANm_POS_POS ≤ x.scanLen e.val → Completes (.scanPause l e n) s
       (fun m => rest m ∧ only m ∧ reg m F.CRC_SCANm_STATUS_STATE = 2 ∧ reg m F.CRC_SCANm_CTRL_PAUSE = 1 ∧
         reg m F.CRC_SCANm_POS_POS = reg s.m F.CRC_SCANm_POS_POS + min (8 * n) (x.scanLeft e.val))) ∧
     (∀ n, state ≠ 1 → Completes (.scanPause l e n) s (fun m => m = s.m)) ∧
     (∀ c ∈ [Instr.scanCrc64 l e, .scanCrc32c l e, .scanSealWrite l e, .scanSealCheck l e, .scanContinue l e],
       on → state = 1 ∨ s.m.scanReserved l e.val = true → Completes c s (fun m => rest m ∧ only m ∧ x.regs.Keeps (m.lane l).regs [0x40006020])) ∧
     (on → state ≠ 1 → s.m.scanReserved l e.val = false → x.scanCheck e.val (reg s.m F.CRC_SCANm_CTRL_MODE) = 0 →
       Completes (.scanContinue l e) s (fun m => rest m ∧ only m ∧ reg m F.CRC_SCANm_STATUS_STATE = 1 ∧ reg m F.CRC_SCANm_CTRL_CONTINUE = 1 ∧
       reg m F.CRC_SCANm_POS_POS = reg s.m F.CRC_SCANm_POS_POS)) ∧
     (on → state = 1 → Completes (.scanDone l e true) s (fun m => failed m 1)) ∧
     (¬on → ∀ n b alg k w, ∀ c ∈ [Instr.scanCrc64 l e, .scanCrc32c l e, .scanSealWrite l e, .scanSealCheck l e, .scanContinue l e, .scanPause l e n,
       .scanDone l e b, .snoopInit l alg, .crcChannelEnable l k w], Completes c s (fun m => m = s.m)) ∧
     (on → state = 1 → reg s.m F.CRC_SCANm_POS_POS = 0 →
       x.regs.pair (F.CRC_SCANm_RUNNING_LO_RUNNING e.val) (F.CRC_SCANm_RUNNING_HI_RUNNING e.val) =
         crcInit (reg s.m F.CRC_SCANm_CTRL_MODE) →
       let result := fun (m : Mach) => (m.lane l).regs.pair (F.CRC_SCANm_RESULT_LO_RESULT e.val) (F.CRC_SCANm_RESULT_HI_RESULT e.val)
       let bytes := x.engineRead e.val (x.scanAddr e.val) (x.scanLen e.val)
       (reg s.m F.CRC_SCANm_CTRL_MODE = 0 → Completes (.scanDone l e false) s (fun m => rest m ∧ only m ∧
         reg m F.CRC_SCANm_STATUS_STATE = 3 ∧ result m = (crc64 bytes).toNat)) ∧
       (reg s.m F.CRC_SCANm_CTRL_MODE = 1 → Completes (.scanDone l e false) s (fun m => rest m ∧ only m ∧
         reg m F.CRC_SCANm_STATUS_STATE = 3 ∧ result m = (crc32c bytes).toNat)))) ∧
  (∀ (s : State) (l : LaneId), 2 ≤ s.m.sys.mode →
     let x := s.m.lane l
     let rest := fun (m : Mach) => (∀ k, k ≠ l → m.lane k = s.m.lane k) ∧ m.sys = s.m.sys ∧ m.ph = s.m.ph ∧ m.sc = s.m.sc ∧ m.out = s.m.out ∧
       m.lane l = { x with regs := (m.lane l).regs }
     (∀ alg : BitVec 2, alg.toNat < 2 → Completes (.snoopInit l alg) s (fun m => rest m ∧
       (m.lane l).regs.fld F.CRC_SNOOP_CTRL_ALG = alg.toNat ∧ (m.lane l).regs.fld F.CRC_SNOOP_COUNT_BYTES = 0 ∧
       (m.lane l).regs.pair F.CRC_SNOOP_RUNNING_LO_RUNNING F.CRC_SNOOP_RUNNING_HI_RUNNING = crcInit alg.toNat)) ∧
     (∀ alg : BitVec 2, 2 ≤ alg.toNat → Completes (.snoopInit l alg) s (fun m => rest m ∧ x.regs.Keeps (m.lane l).regs [0x40006020])) ∧
     (∀ (k : Fin 8) (w : W32), s.m.channelsOn x = true → Completes (.crcChannelEnable l k w) s (fun m => rest m ∧
       (m.lane l).regs.fld (F.CRC_CHk_CTRL_ENABLE k.val) = bitsOf w.toNat 31 31 ∧
       (m.lane l).regs.fld (F.CRC_CHk_CTRL_ALG k.val) = bitsOf w.toNat 27 26 ∧
       (m.lane l).regs.fld (F.CRC_CHk_CTRL_SOURCE k.val) = bitsOf w.toNat 23 20 ∧ (m.lane l).regs.fld (F.CRC_CHk_CTRL_DONE k.val) = 0 ∧
       (bitOf w.toNat 31 = true → bitOf w.toNat 25 = false → (m.lane l).regs.pair (F.CRC_CHk_RUNNING_LO_RUNNING k.val)
         (F.CRC_CHk_RUNNING_HI_RUNNING k.val) = crcInit (bitsOf w.toNat 27 26)))) ∧
     (∀ (k : Fin 8) (w : W32), s.m.channelsOn x = false → Completes (.crcChannelEnable l k w) s (fun m => rest m ∧
       x.regs.Keeps (m.lane l).regs [0x40006020])))

/-- BIST_DONE (R302 to R305, R324): the run of a lane ends with its result in the lane's BST page and the device no longer running; the lane is
re-initialised, with no State Image, queue, staged frame or ZVL route, no image loaded, and its block registers at their reset values (what of the SYS and
TSU pages stays: assumption 86), and the other lanes keep all but registers; a run that software started is no self-test, and its lane is to be tested again. The
Port Hub's run ends with its result in the Port Hub's own copy, and the lanes keep all but registers. A device that does not run has no end. -/
def Obligations.BistEnds : Prop :=
  ∀ (s : State) (l : LaneId) (r : BistRun),
    let scope := fun (d : Device) => if d ∈ s.m.sys.bistHost then s.m.bistScope d else 3
    let stays := fun (d : Device) => s.m.sys.mode ≠ 12 ∨ s.m.sys.returning = false ∨ ∃ e ∈ s.m.sys.bistRun, e ≠ d
    let ended := fun (d : Device) (m : Mach) => d ∉ m.sys.bistRun ∧ d ∉ m.sys.bistHost ∧ m.sys.mode = s.m.sys.mode ∧ m.sc = s.m.sc ∧
      (d ∈ s.m.sys.bistHost → d ∉ m.sys.bistDone ∧ m.sys.bistBad = s.m.sys.bistBad) ∧
      (d ∉ s.m.sys.bistHost → d ∈ m.sys.bistDone ∧ m.sys.bistBad = worseBist s.m.sys.bistBad (s.m.bistOf d r 3))
    (.lane l ∈ s.m.sys.bistRun → stays (.lane l) → Completes (.bistDone (.lane l) r) s (fun m =>
      ended (.lane l) m ∧ (.lane l ∈ s.m.sys.bistHost → l ∈ m.sys.retest) ∧ m.ph = s.m.ph ∧
      (m.lane l).regs.fld F.BST_RESULT_RESULT = s.m.bistOf (.lane l) r (scope (.lane l)) ∧ (m.lane l).regs.fld F.BST_STATUS_RUNNING = 0 ∧
      (m.lane l).sram = [] ∧ (m.lane l).si = [] ∧ (m.lane l).rte = Rte.reset ∧ (m.lane l).zvl = Zvl.reset ∧ (m.lane l).loaded = false ∧
      (m.lane l).payloads = [] ∧ (m.lane l).staged = [] ∧ (m.lane l).live = InputSet.empty ∧
      (∀ b ∈ [Blk.zvl, .crc], ∀ off, 0x40 ≤ off → off < 0x400 → (m.lane l).regs.get (blkBase b + off) = resetValue (blkBase b + off)) ∧
      (m.lane l).dram = (s.m.lane l).dram ∧ (m.lane l).role = (s.m.lane l).role ∧
      ∀ k, k ≠ l → (s.m.lane k).RegsOnly (m.lane k))) ∧
    (.portHub ∈ s.m.sys.bistRun → stays .portHub → Completes (.bistDone .portHub r) s (fun m => ended .portHub m ∧
      m.ph.regs.fld F.BST_RESULT_RESULT = s.m.bistOf .portHub r (scope .portHub) ∧ m.ph.golden = s.m.ph.golden ∧
      ∀ k, (s.m.lane k).RegsOnly (m.lane k))) ∧
    (∀ d : Device, d ∉ s.m.sys.bistRun → Completes (.bistDone d r) s (fun m => m = s.m))

/-- PATCH_WRITE_DONE, PATCH_CONFIRM and PROBATION_EXPIRY (R400 to R408): UPDATE ends in BOOT with RESET.SOURCE 5 and its record, with the Patch written where
its form is right and refused where it is not (Sprout's verdict stands at the entry into BOOT, assumption 119), unless a reset is due or a loss of power has interrupted it; Sprout puts a written Patch whose stores verify on
probation, its snapshot kept, and takes the fallback stores of any other; after 300 s towards it a Patch is
confirmed and its snapshot dropped; at 1,800 s of service an active module notes the expiry and goes on, any other restarts. -/
def Obligations.UpdatesEnd : Prop :=
  ∀ s : State,
    (s.m.sys.mode = 13 → s.m.sys.rst = none → s.m.sys.rideOver = false →
      (∀ l, Completes .patchWriteDone s (fun m => m.sys.mode = 2 ∧ m.Reads F.SYS_STATUS_MODE 2 ∧ m.Reads F.SYS_RESET_SOURCE 5 ∧
        (m.lane l).si = [] ∧ (m.lane l).dram = (s.m.lane l).dram)) ∧
      (s.m.patchForm = none →
        let p := s.m.patchPending
        let w := s.m.patchWrite (fun _ => some true)
        (w.sc.verified = true → s.m.sc.falling = false → Completes .patchWriteDone s (fun m => m.sc.pending = none ∧
          m.sc.probation = p.sc.pending ∧ m.sc.snapshot = p.sc.snapshot ∧ m.sc.running = w.sc.running ∧ m.sc.fallback = p.sc.fallback ∧
          m.sc.serviceS = 0 ∧ m.sc.regs.fld F.UPD_PROBATION_BOOTS = 1)) ∧
        (w.sc.verified = false ∨ s.m.sc.falling = true → Completes .patchWriteDone s (fun m => m.sc.pending = none ∧
          m.sc.probation = none ∧ m.sc.snapshot = none ∧ m.sc.regs.fld F.UPD_LAST_EVENT = 4 ∧
          ∀ mask, p.sc.pending = some mask → ∀ k ∈ componentsOf mask, m.sc.run k = { (p.sc.back k) with complete := false }))) ∧
      (s.m.patchForm ≠ none → s.m.sc.pending = none → s.m.sc.probation = none → s.m.sc.verified = true →
        Completes .patchWriteDone s (fun m => m.sys.mode = 2 ∧ m.sc.running = s.m.sc.running ∧ m.sc.fallback = s.m.sc.fallback ∧
          m.sc.pending = none ∧ m.sc.probation = none ∧ m.sc.settings = s.m.storeSettings.sc.settings))) ∧
    (s.m.sys.mode ≠ 13 ∨ s.m.sys.rst.isSome = true ∨ s.m.sys.rideOver = true → Completes .patchWriteDone s (fun m => m = s.m)) ∧
    (s.m.sc.probation ≠ none → s.m.sc.falling = false → 300 ≤ s.m.sc.regs.fld F.UPD_PROBATION_CONFIRM_S → s.m.confirming = true →
      Completes .patchConfirm s (fun m => m.sc.probation = none ∧ m.sc.snapshot = none ∧ m.sc.serviceS = 0 ∧
        m.sc.regs.fld F.UPD_LAST_EVENT = 3 ∧ m.sc.running = s.m.sc.running ∧ m.sc.settings = s.m.sc.settings ∧ m.sys = s.m.sys ∧
        ∀ l, m.lane l = s.m.lane l)) ∧
    (s.m.sc.probation = none → Completes .patchConfirm s (fun m => m = s.m) ∧ Completes .probationExpiry s (fun m => m = s.m)) ∧
    (s.m.sc.probation ≠ none → s.m.sc.falling = false → 1800 ≤ s.m.sc.serviceS →
      (modeActive s.m.sys.mode = true → Completes .probationExpiry s (fun m => m.sc.falling = true ∧ m.sys = s.m.sys ∧
        m.sc.regs.fld F.UPD_LAST_EVENT = 5 ∧ ∀ l, m.lane l = s.m.lane l)) ∧
      (s.m.sys.mode ∈ [8, 12, 14] → s.m.sys.rst = none → Completes .probationExpiry s (fun m => m.sc.falling = true ∧
        m.ResetBegun s.m.sys.mode 3)))

/-- PORT_BASIC_CYCLE, COMMAND_WINDOW, POLL_WINDOW and DELAY_SEND (R183, R184, R217, R232): the next port basic cycle begins and a matrix port sends
its beacon, of TYPE 1 to all, launched at the start of that cycle, with the beacon payload, and after it at most frames of the module's own; in a command window the payload assembled for the node goes out with the three codes and the correction measured in the port basic cycle
before; a poll goes out on the node's poll link. A port that does not run only learns which of its links have sync again, and no lane changes. -/
def Obligations.PortsSend : Prop :=
  ∀ (s : State) (p : Fin 16) (k : Nat) (seen : RingSeen),
    let q := s.m.port p.val
    let quiet := fun (m : Mach) => (∀ l, m.lane l = s.m.lane l) ∧ m.sys = s.m.sys ∧ m.sc = s.m.sc ∧ m.fed = s.m.fed ∧ m.dio = s.m.dio
    (q.running = false → Completes (.portBasicCycle p seen) s (fun m => quiet m ∧ m.out = s.m.out ∧ m.ph.nodes = s.m.ph.nodes ∧
        m.port p.val = { q with eastUp := q.eastUp || seen.eastSync, westUp := q.westUp || seen.westSync }) ∧
      Completes (.commandWindow p k) s (fun m => m = s.m) ∧ Completes (.pollWindow p k) s (fun m => m = s.m)) ∧
    (q.running = true → q.splitDue = 0 → s.m.portNext p.val ≠ 0 ∨ q.split = false → Completes (.portBasicCycle p seen) s (fun m =>
      quiet m ∧ (m.port p.val).bc = s.m.portNext p.val ∧
      (m.port p.val).started = q.started + 1 ∧ (m.port p.val).both = q.split ∧ (m.port p.val).commanding = s.m.sending ∧
      (s.m.portImg.portMode p.val = 1 → ∃ (h : HuskEnv) (later : List (List Byte)), h.basic = s.m.portNext p.val ∧ h.launch = m.cycleStart p.val ∧
        (q.own = [] → q.leaves = 0 → later = []) ∧ m.out = later.map (Output.frame p.val true q.split) ++ Output.frame p.val true q.split
          (frameBytes (huskBytes h 1 true (p.val * 128) (p.val * 128) (m.beaconPayload p.val).length) (m.beaconPayload p.val)) :: s.m.out) ∧
      (s.m.portImg.portMode p.val = 2 → m.out = s.m.out ∧ (m.port p.val).grants = []))) ∧
    (∀ part launch codes, q.running = true → q.commanding = true → s.m.assembled p.val k = some (part, launch, codes) →
      let a := nodeAddr p.val k
      let c := match (s.m.node a).correction.find? (fun e => decide (e.2 + 1 = s.m.cycleNo p.val)) with
        | some e => wrapSigned 16 e.1
        | none => 0x8000
      (s.m.portImg.portMode p.val = 1 → Completes (.commandWindow p k) s (fun m => quiet m ∧ m.ph = s.m.ph ∧
        ∃ f, m.out = Output.frame p.val true q.both f :: s.m.out ∧ framePayload f = commandPayload codes part c)) ∧
      (s.m.portImg.portMode p.val = 2 → Completes (.pollWindow p k) s (fun m => quiet m ∧ m.ph = s.m.ph ∧
        ∃ f, m.out = Output.frame p.val (!(s.m.node a).pollWest) (s.m.node a).pollWest f :: s.m.out ∧
          framePayload f = commandPayload codes part 0x8000))) ∧
    (∀ start pay n, s.m.takeOwn p.val (nodeAddr p.val k) 10 16 = some (start, pay, n) → Completes (.delaySend p k) s (fun m => quiet m ∧
      (∃ f, m.out = Output.frame p.val true q.both f :: s.m.out ∧ framePayload f = pay) ∧
      (m.port p.val).own.length + 1 = q.own.length ∧ (m.port p.val).grants.length + 1 = q.grants.length)) ∧
    (s.m.takeOwn p.val (nodeAddr p.val k) 10 16 = none → Completes (.delaySend p k) s (fun m => m = s.m))

/-- INPUT_FRAME, EVENT_FRAME, DIAG_FRAME, MAINT_FRAME, DELAY_REPORT, NODE_LEAVE_FRAME, JOIN_REQUEST and POLL_REPLY (R172, R186 to R188, R198, R200,
R214, R220, R223, R235): the first copy of a window that the guardian and the checks accept moves the node's SEQUENCE and is kept, and does what its
type asks: waits for the end of the input window, enters the records of the lanes (their port snoops pass), goes to the Service Controller unchanged, makes the node leave, or waits
for its grant. A copy that is cut or discarded is counted with its reason, and the node keeps its SEQUENCE and copies; a cut is charged to SOURCE where
the copy is whole; the module's own frame come
back changes nothing. -/
def Obligations.NodeFramesTaken : Prop :=
  ∀ (s : State) (p : Fin 16) (link : Link) (rx : RxFrame),
    let h := readHusk rx.bytes
    let pay := framePayload rx.bytes
    let quiet := fun (m : Mach) => m.sys = s.m.sys ∧ m.sc = s.m.sc ∧ m.fed = s.m.fed ∧ ∀ l, (m.lane l).si = (s.m.lane l).si ∧
      (m.lane l).live = (s.m.lane l).live
    let kept := fun (m : Mach) => quiet m ∧ s.m.Kept m p.val link rx
    (s.m.Accepts p.val rx 3 → Completes (.inputFrame p link rx) s (fun m => kept m ∧ m.out = s.m.out)) ∧
    (s.m.Accepts p.val rx 4 → Completes (.eventFrame p link ⟨rx, 0⟩) s (fun m => kept m ∧
      ∀ e ∈ eventEntries (pay.length / 16) pay, ∀ l, (m.lane l).role ≠ .excluded → (m.lane l).evLost = 0 →
        ∃ r ∈ (m.lane l).events, r.code = 0x8000 ∧ r.time = e.2.2.1 ∧ r.p0 = h.source * 2 ^ 16 + e.1 ∧ r.p1 = e.2.1)) ∧
    (s.m.Accepts p.val rx 5 → Completes (.diagFrame p (.fromNode link rx)) s (fun m => kept m ∧ m.out = .forwarded p.val pay :: s.m.out)) ∧
    (s.m.Accepts p.val rx 6 → Completes (.maintFrame p (.fromNode link rx)) s (fun m => kept m ∧ m.out = .forwarded p.val pay :: s.m.out)) ∧
    (s.m.Accepts p.val rx 10 → Completes (.delayReport p link rx) s (fun m => kept m ∧ m.out = .forwarded p.val pay :: s.m.out)) ∧
    (s.m.Accepts p.val rx 9 → Completes (.nodeLeaveFrame p link rx) s (fun m => kept m ∧ (m.node h.source).leaving = true)) ∧
    (s.m.Accepts p.val rx 7 → Completes (.joinRequest p link rx) s (fun m => kept m ∧
      (m.node h.source).request = some (be 1 (s.m.joinResult p.val (nodeIndex h.source) pay)) ∧
      (m.port p.val).own = (s.m.port p.val).own ++ [(4, h.source, 8, List.replicate joinGrantLen 0)])) ∧
    (s.m.Accepts p.val rx 12 → Completes (.pollReply p link rx) s (fun m => kept m ∧ m.out = s.m.out)) ∧
    (∀ c v, c ∈ [Instr.inputFrame p link rx, .eventFrame p link ⟨rx, v⟩, .diagFrame p (.fromNode link rx), .maintFrame p (.fromNode link rx),
        .delayReport p link rx, .nodeLeaveFrame p link rx, .joinRequest p link rx, .pollReply p link rx] →
      let refused := fun (m : Mach) => quiet m ∧ (m.node h.source).seq = (s.m.node h.source).seq ∧
        (m.node h.source).copies = (s.m.node h.source).copies ∧ m.ph.ports = s.m.ph.ports
      (∀ r, s.m.Guarded p.val rx → (s.m.guardian p.val rx).1 = 0 → s.m.Unbarred p.val rx → s.m.discardReason p.val (s.m.guardian p.val rx).2.1 rx.bytes = some r →
        Completes c s (fun m => refused m ∧ m.ph.regs.fld (F.TTP_LAST_DISCARD_REASON p.val) = r)) ∧
      ((s.m.port p.val).running = true → ownReturn p.val rx.bytes = false → badIndex rx.bytes = true →
        Completes c s (fun m => refused m ∧ m.ph.regs.fld (F.TTP_LAST_DISCARD_REASON p.val) = 2)) ∧
      (s.m.Guarded p.val rx → (s.m.guardian p.val rx).1 ≠ 0 → frameWhole rx.bytes = false → Completes c s (fun m => quiet m ∧
        m.ph.regs.fld F.STG_LAST_CUT_REASON = (s.m.guardian p.val rx).1 ∧ m.ph.regs.fld F.STG_LAST_CUT_UNATTRIBUTED = 1 ∧
        m.ph.nodes = s.m.ph.nodes ∧ m.ph.ports = s.m.ph.ports)) ∧
      (s.m.Guarded p.val rx → (s.m.guardian p.val rx).1 ≠ 0 → frameWhole rx.bytes = true → Completes c s (fun m => quiet m ∧
        (m.node h.source).seq = (s.m.node h.source).seq ∧ (m.node h.source).copies = (s.m.node h.source).copies ∧
        m.ph.regs.fld F.STG_LAST_CUT_REASON = (s.m.guardian p.val rx).1 ∧ m.ph.regs.fld F.STG_LAST_CUT_UNATTRIBUTED = 0 ∧
        m.ph.regs.fld F.STG_LAST_CUT_NODE = h.source)) ∧
      ((s.m.port p.val).running = true → ownReturn p.val rx.bytes = true → Completes c s (fun m => m = s.m))) ∧
    (∀ (k : Nat) (l : List Byte), (s.m.port p.val).running = true → s.m.portImg.portMode p.val = 1 → s.m.portImg.hasNode p.val k = true →
      l.length ≤ 2048 → Completes (.diagFrame p (.toNode k l)) s (fun m => quiet m ∧
        (m.port p.val).own = (s.m.port p.val).own ++ [(2, nodeAddr p.val k, 5, l)]) ∧
      Completes (.maintFrame p (.toNode k l)) s (fun m => quiet m ∧
        (m.port p.val).own = (s.m.port p.val).own ++ [(3, nodeAddr p.val k, 6, l)]))

/-- INPUT_WINDOW_END, NODE_LOST, NODE_RESTORED, NODE_LEFT, JOIN_GRANT, NODE_ADMITTED, QUARANTINE_HOLD_EXPIRY and POLL_LINK_SWITCH (R171, R195, R199,
R223, R224, R236): a window without an accepted frame counts a loss in every lane and one with presents it, and a quarantined node's shows the
quarantine; the communication state of a node goes to LOST at the loss limit, to IN_COMM at the restore count, to ABSENT at the leave limit or after
its quarantine, to JOINING by a grant that accepts, and from there to LOST at its admission, where its first SEQUENCE is open again; a silent node is
polled on its other link. -/
def Obligations.NodesKept : Prop :=
  ∀ (s : State) (p : Fin 16) (ix : Fin 128),
    let k := ix.val
    let a := nodeAddr p.val k
    let c := s.m.comm a
    let type := if s.m.portImg.portMode p.val = 2 then 12 else 3
    let quiet := fun (m : Mach) => m.sys = s.m.sys ∧ m.sc = s.m.sc ∧ m.fed = s.m.fed ∧ (∀ l, (m.lane l).si = (s.m.lane l).si) ∧
      ∀ b, b ≠ a → m.comm b = s.m.comm b
    let listens := (s.m.port p.val).running = true ∧ s.m.portImg.hasNode p.val k = true
    (listens → (s.m.node a).quarantined = false →
      (∀ d ∈ (s.m.node a).copies, d.type ≠ type) → c.state = 0 ∨ c.state = 1 → Completes (.inputWindowEnd p k 0) s (fun m => quiet m ∧
        (m.comm a).lost = min (c.lost + 1) 255 ∧ (m.comm a).restore = 0 ∧ (m.comm a).state = c.state)) ∧
    (∀ d, listens → (s.m.node a).quarantined = false →
      (s.m.node a).copies = [d] → d.type = type → c.state = 0 ∨ c.state = 1 → Completes (.inputWindowEnd p k 0) s (fun m => quiet m ∧
        (m.comm a).lost = 0 ∧ (m.comm a).restore = min (c.restore + 1) 255 ∧ (m.comm a).state = c.state ∧
        (m.comm a).since = s.m.sys.cluster ∧ ∀ l, (Store.get NodeComm.absent (s.m.lane l).live.node a).joined = true →
          (m.lane l).live.obj = (setInputs (s.m.lane l).live (payloadEntries d.payload)).obj)) ∧
    (listens → (s.m.node a).quarantined = true → ∀ q, Completes (.inputWindowEnd p k q) s (fun m => quiet m ∧ (m.comm a).state = 4 ∧
      ∀ l, (m.lane l).live.obj = (s.m.lane l).live.obj)) ∧
    (¬listens → ∀ q, Completes (.inputWindowEnd p k q) s (fun m => m = s.m)) ∧
    (c.state = 0 → s.m.portImg.lossLimit (nodePort a) ≤ c.lost → Completes (.nodeLost p k) s (fun m => quiet m ∧
      m.comm a = { c with state := 1, since := s.m.sys.cluster } ∧ m.ph.nodes = s.m.ph.nodes)) ∧
    (c.state = 1 → s.m.portImg.restoreCount (nodePort a) ≤ c.restore → Completes (.nodeRestored p k) s (fun m => quiet m ∧
      m.comm a = { c with state := 0 } ∧ m.ph.nodes = s.m.ph.nodes)) ∧
    (c.state = 1 → c.since + s.m.portImg.leaveLimit (nodePort a) ≤ s.m.sys.cluster → Completes (.nodeLeft p k) s (fun m => quiet m ∧
      (m.comm a).state = 2 ∧ (m.comm a).lost = 0 ∧ (m.node a).seq = (s.m.node a).seq)) ∧
    (c.state ≠ 1 ∨ s.m.sys.cluster < c.since + s.m.portImg.leaveLimit (nodePort a) → Completes (.nodeLeft p k) s (fun m => m = s.m)) ∧
    ((s.m.node a).request = some (be 1 0) → (s.m.takeOwn p.val a 8 joinGrantLen).isSome = true → c.state = 2 →
      Completes (.joinGrant p k) s (fun m => quiet m ∧ (m.comm a).state = 3 ∧ (m.node a).entry = some (s.m.sys.cluster + 2) ∧
        (m.node a).request = none ∧ (m.node a).result = 0 ∧ ∃ f, Output.frame p.val true (s.m.port p.val).both f ∈ m.out)) ∧
    ((s.m.node a).request = none → Completes (.joinGrant p k) s (fun m => m = s.m)) ∧
    (∀ e, (s.m.node a).entry = some e → c.state = 3 → e ≤ s.m.sys.cluster → Completes (.nodeAdmitted p k) s (fun m => quiet m ∧
      (m.comm a).state = 1 ∧ (m.comm a).since = s.m.sys.cluster ∧ (m.node a).entry = none ∧ (m.node a).seq = none)) ∧
    ((s.m.node a).entry = none ∨ c.state ≠ 3 → Completes (.nodeAdmitted p k) s (fun m => m = s.m)) ∧
    ((s.m.node a).quarantined = true → (s.m.node a).held = false →
      (s.m.node a).quarAt + s.m.ph.regs.fld F.STG_QUAR_CFG_HOLD ≤ s.m.sys.cluster → Completes (.quarantineHoldExpiry p k) s (fun m => quiet m ∧
        (m.comm a).state = 2 ∧ (m.node a).quarantined = false ∧ (m.node a).cuts = [])) ∧
    ((s.m.node a).quarantined = false ∨ (s.m.node a).held = true → Completes (.quarantineHoldExpiry p k) s (fun m => m = s.m)) ∧
    (s.m.portImg.portMode p.val = 2 → 2 ≤ (s.m.node a).silent → Completes (.pollLinkSwitch p k) s (fun m => quiet m ∧
      m.node a = { s.m.node a with pollWest := !(s.m.node a).pollWest, silent := 0 } ∧ m.comm a = c)) ∧
    (s.m.portImg.portMode p.val ≠ 2 ∨ (s.m.node a).silent < 2 → Completes (.pollLinkSwitch p k) s (fun m => m = s.m))

/-- PROBE_ECHO, RING_RETURN_CHECK, LINK_SYNC_LOSS, RING_RESTORED, PORT_LATENCY_CHECK and SCHED_DECISION (R166, R203, R211, R215, R226 to R229): a ring
splits on an echo, on the second missing return or when one link goes down, which the next port basic cycle records (the model's choice, assumption
128), loses its nodes when both are
down, and is restored at a cluster boundary after sixteen good port basic cycles (the deadline of a beacon and their count: assumption 81); a port slower than its image allows is refused
after sixteen; in its last port basic cycle an announced switch
is decided by the acknowledgements of the joined nodes. No State Image changes. -/
def Obligations.RingsAndSchedules : Prop :=
  ∀ (s : State) (p : Fin 16),
    let q := s.m.port p.val
    let quiet := fun (m : Mach) => m.sys = s.m.sys ∧ m.sc = s.m.sc ∧ m.fed = s.m.fed ∧ m.ph.nodes = s.m.ph.nodes ∧
      ∀ l, (m.lane l).si = (s.m.lane l).si ∧ (m.lane l).live = (s.m.lane l).live
    let matrix := q.running = true ∧ s.m.portImg.portMode p.val = 1
    let rings := matrix ∧ q.split = false
    (rings → q.eastUp = true → q.westUp = true →
      (∀ l e, s.m.inTime p.val l = true → Completes (.ringReturnCheck p (some l) e) s (fun m => quiet m ∧
        (m.port p.val).measured = l ∧ (m.port p.val).missed = 0 ∧ (m.port p.val).split = false ∧ (m.port p.val).healing = false)) ∧
      (∀ l, s.m.inTime p.val l = false → q.missed = 0 → Completes (.ringReturnCheck p (some l) false) s (fun m => quiet m ∧
        (m.port p.val).measured = l ∧ (m.port p.val).missed = 1 ∧ (m.port p.val).split = false ∧ (m.port p.val).healing = true)) ∧
      Completes (.ringReturnCheck p none true) s (fun m => quiet m ∧ (m.port p.val).split = true ∧ (m.port p.val).sinceChange = 0 ∧
        (m.port p.val).splitDue = 2) ∧
      (1 ≤ q.missed → Completes (.ringReturnCheck p none false) s (fun m => quiet m ∧ (m.port p.val).split = true ∧
        (m.port p.val).splitDue = 3)) ∧
      (q.missed = 0 → Completes (.ringReturnCheck p none false) s (fun m => quiet m ∧ (m.port p.val).split = false ∧
        (m.port p.val).missed = 1 ∧ (m.port p.val).healing = true))) ∧
    (rings → q.eastUp ≠ q.westUp → ∀ l e, Completes (.ringReturnCheck p l e) s (fun m => quiet m ∧ (m.port p.val).split = true ∧
      (m.port p.val).splitDue = 1)) ∧
    (∀ seen, matrix → q.splitDue ≠ 0 → s.m.portNext p.val ≠ 0 → Completes (.portBasicCycle p seen) s (fun m =>
      (m.port p.val).splitDue = 0 ∧ m.Recorded 0x4003 p.val 1 q.splitDue ∧ m.sys = s.m.sys ∧ m.sc = s.m.sc ∧
      ∀ l, (m.lane l).si = (s.m.lane l).si ∧ (m.lane l).live = (s.m.lane l).live)) ∧
    (¬rings → ∀ l e, Completes (.ringReturnCheck p l e) s (fun m => m = s.m)) ∧
    (rings → q.eastUp = true → q.westUp = true → ∀ link, Completes (.linkSyncLoss p link) s (fun m => quiet m ∧ (m.port p.val).split = true ∧
      ((m.port p.val).eastUp = false ↔ link = .east) ∧ ((m.port p.val).westUp = false ↔ link = .west) ∧ (m.port p.val).splitDue = 1)) ∧
    (matrix → q.westUp = false → Completes (.linkSyncLoss p .east) s (fun m => m.sys = s.m.sys ∧ m.sc = s.m.sc ∧
      (m.port p.val).eastUp = false ∧ (m.port p.val).split = false ∧ (m.port p.val).splitDue = 0 ∧
      ∀ k ∈ s.m.nodesOf p.val, (s.m.comm (nodeAddr p.val k)).state = 0 → (m.comm (nodeAddr p.val k)).state = 1)) ∧
    (∀ seen, matrix → s.m.sys.boundary = true → q.split = true → 15 ≤ q.good → q.ringGood seen = true →
      Completes (.ringRestored ⟨p, seen⟩) s (fun m => quiet m ∧ (m.port p.val).split = false ∧ (m.port p.val).both = false ∧
        (m.port p.val).good = 0 ∧ (m.port p.val).sinceChange = 0 ∧ m.Recorded 0x4003 p.val 2 0)) ∧
    (∀ seen, q.split = false ∨ s.m.sys.boundary = false ∨ q.good < 15 ∨ q.ringGood seen = false →
      Completes (.ringRestored ⟨p, seen⟩) s (fun m => m = s.m)) ∧
    (matrix → ∀ t,
      (q.joinIndex = 0 → ∀ ok back, Completes (.probeEcho p t ok back) s (fun m => quiet m ∧ m.ph.regs.fld F.STG_PROBE_RESULT = 2 ∧
        m.ph.ports = s.m.ph.ports)) ∧
      (q.joinIndex ≠ 0 → (∀ back, Completes (.probeEcho p t false back) s (fun m => quiet m ∧ m.ph.regs.fld F.STG_PROBE_RESULT = 3 ∧
          m.ph.ports = s.m.ph.ports)) ∧
        Completes (.probeEcho p t true false) s (fun m => quiet m ∧ m.ph.regs.fld F.STG_PROBE_RESULT = 4 ∧ m.ph.ports = s.m.ph.ports) ∧
        Completes (.probeEcho p t true true) s (fun m => quiet m ∧ m.ph.regs.fld F.STG_PROBE_RESULT = 1 ∧
          m.ph.regs.fld F.STG_PROBE_ROUND_TRIP = min (t / 8) 65535 ∧ (m.port p.val).own = q.own ++
            [(4, nodeAddr p.val q.joinIndex, 10, delayPayload (moduleSeq s.m.sys.cluster (s.m.portImg.perCluster p.val) q.bc) t)]))) ∧
    (¬matrix → ∀ t ok back, Completes (.probeEcho p t ok back) s (fun m => m = s.m)) ∧
    (q.running = true → q.checked = false → 16 ≤ q.started →
      (s.m.portImg.ringMax p.val * 1000 < q.maxL → Completes (.portLatencyCheck p) s (fun m => quiet m ∧ (m.port p.val).running = false ∧
        (m.port p.val).refused = true ∧ m.Recorded 0x4001 p.val q.maxL (s.m.portImg.ringMax p.val * 1000))) ∧
      (q.maxL ≤ s.m.portImg.ringMax p.val * 1000 → Completes (.portLatencyCheck p) s (fun m => quiet m ∧
        m.port p.val = { q with checked := true }))) ∧
    (q.running = false ∨ q.checked = true ∨ q.started < 16 → Completes (.portLatencyCheck p) s (fun m => m = s.m)) ∧
    (q.running = true → q.announcing = true → (s.m.sys.cluster + 1) % 16 = q.target → q.bc + 1 = s.m.portImg.perCluster p.val →
      q.decided = none →
      (s.m.nacks p.val = [] → Completes (.schedDecision p) s (fun m => quiet m ∧ m.port p.val = { q with decided := some true })) ∧
      (s.m.nacks p.val ≠ [] → Completes (.schedDecision p) s (fun m => quiet m ∧ m.port p.val = { q with decided := some false } ∧
        m.ph.regs.fld (F.TTP_SCHED_STATE p.val) = 3 ∧ m.Recorded 0x4004 p.val 3 q.next))) ∧
    (q.announcing = false ∨ q.bc + 1 ≠ s.m.portImg.perCluster p.val → Completes (.schedDecision p) s (fun m => m = s.m))

/-- The seven messages (R260 to R264, R268 to R271, R275, R276, R282, R284, R285): a copy that fails a check of R264 shows its reason and changes no
source; an accepted one moves its SEQUENCE and does what its type asks. A second equal copy in time confirms every entry of a BOUNDARY, and BLOCKED
and RESTRICTED hold at once even of one copy; STATUS and START move the start of R276; HEALTH, SEED and SEED_ACK keep the pair, each lane its own
Seedbank. That a hand-over is no longer expected when the announcement ends (assumption 80) and that a SEED_ACK covers the Presses before its own
(assumption 84) are the model's choices. -/
def Obligations.FederationMessages : Prop :=
  ∀ (s : State) (n : Net) (b : List Byte) (t : Nat),
    let g := readMsg b
    let es := boundaryEntries g.payload
    let own := s.m.leadLane.img.moduleNumber
    let quiet := fun (m : Mach) => m.sys = s.m.sys ∧ m.ph = s.m.ph ∧ m.sc = s.m.sc ∧ m.dio = s.m.dio ∧
      ∀ l, (m.lane l).si = (s.m.lane l).si ∧ (m.lane l).rte = (s.m.lane l).rte
    let rest := fun (m : Mach) => quiet m ∧ Store.get noSeq (m.source g.source).seqs (g.type * 4 + netIx n) = some g.seq
    (∀ r c, (c ∈ [Instr.boundaryMsg n b t, .statusMsg n b t, .startMsg n b t] ∧ n ≠ .pair ∧ s.m.fld F.FED_CFG_ENABLE ≠ 0) ∨
        (c ∈ [Instr.pairBeatMsg b t none, .healthMsg b t, .seedMsg b t, .seedAckMsg b t] ∧ n = .pair ∧ s.m.paired = true) →
      s.m.hasImage = true → s.m.fedReason n g t = some r → Completes c s (fun m => quiet m ∧ m.fed = s.m.fed ∧ m.out = s.m.out ∧
        m.Reads F.FED_LAST_DISCARD_REASON r ∧ m.Reads F.FED_LAST_DISCARD_SOURCE g.source ∧ m.Reads F.FED_LAST_DISCARD_NET (netIx n))) ∧
    (s.m.Receives n b t 1 → (es.map (fun e => e.1)).Nodup → Completes (.boundaryMsg n b t) s (fun m => rest m ∧
      (∀ x, ∀ e ∈ es, (e.2.1 = true → bitOf ((m.lane x).import e.1) 0 = true) ∧
        (e.2.2.1 = true → bitOf ((m.lane x).import e.1) 5 = true)) ∧
      (∀ k t', (s.m.source g.source).copies.find? (fun c => decide (c.2.1 ≠ netIx n)) = some (g.seq, k, t', g.payload) →
        ((t : Int) - t').natAbs ≤ s.m.fld F.FED_WINDOW_ACCEPT_US * 1000 → ∀ x, ((m.lane x).srcOf g.source).confirmed = true ∧
          ∀ e ∈ es, (m.lane x).import e.1 = b2n e.2.1 + 2 * (e.2.2.2 % 16) + 32 * b2n e.2.2.1) ∧
      (∀ k t' p, (s.m.source g.source).copies.find? (fun c => decide (c.2.1 ≠ netIx n)) = some (g.seq, k, t', p) → p ≠ g.payload →
        (∀ x, ((m.lane x).srcOf g.source).confirmed = ((s.m.lane x).srcOf g.source).confirmed) ∧ m.Raised .fed I.FED_COPY_MISMATCH) ∧
      ((s.m.source g.source).copies.find? (fun c => decide (c.2.1 ≠ netIx n)) = none → s.m.oneCopy = false →
        ∀ x, ((m.lane x).srcOf g.source).confirmed = ((s.m.lane x).srcOf g.source).confirmed))) ∧
    (s.m.Receives n b t 2 → Completes (.statusMsg n b t) s (fun m => rest m ∧ (m.source g.source).mode = rd g.payload 0 1 % 16 ∧
      (m.source g.source).role = rd g.payload 1 1 % 8 ∧ (∀ x, (m.lane x).imports = (s.m.lane x).imports) ∧
      (s.m.fed.startState = 1 → modeServes (rd g.payload 0 1) = true → m.fed.startState = 4 ∧ m.Raised .fed I.FED_STARTED) ∧
      (s.m.fed.startState ≠ 1 → m.fed.startState = s.m.fed.startState))) ∧
    (s.m.Receives n b t 3 → Completes (.startMsg n b t) s (fun m => rest m ∧ (∀ x, (m.lane x).imports = (s.m.lane x).imports) ∧
      (s.m.fed.startState ≠ 2 → m.fed.startState = s.m.fed.startState) ∧
      (s.m.fed.startState = 2 → 15 - own < rd g.payload 0 1 → m.fed.startState = 3 ∧ m.Reads F.FED_STATE_START 3) ∧
      (s.m.fed.startState = 2 → rd g.payload 0 1 = 15 - own → rd g.payload 8 8 ≠ s.m.leadLane.serial.toNat →
        m.fed.startState = 6 ∧ m.fed.ownDup = true) ∧
      (s.m.fed.startState = 2 → rd g.payload 0 1 < 15 - own → m.fed.startState = 2))) ∧
    (n = .pair →
      (∀ st, s.m.Receives n b t 4 → s.m.sys.mode ≠ 4 → s.m.sys.mode ≠ 8 ∨ rd g.payload 0 1 ∉ [12, 13, 14] →
        Completes (.pairBeatMsg b t st) s (fun m => rest m ∧ m.fed.beatSilence = 0 ∧ m.fed.quiet = 0 ∧
          m.fed.beatMode = rd g.payload 0 1 ∧ m.fed.partnerImage = some g.imageId ∧
          m.fed.decided = (if s.m.sys.mode = 8 ∧ s.m.fed.handback ≠ none ∧ bitOf (rd g.payload 1 1) 0 = false
            then s.m.fed.dropHandover.decided else s.m.fed.decided) ∧
          m.Reads F.RED_PAIR_STATUS_PARTNER_MODE (rd g.payload 0 1 % 16) ∧ (s.m.sys.mode = 8 →
            m.fed.handback = (if bitOf (rd g.payload 1 1) 0 then some (rd g.payload 4 4) else none)))) ∧
      (s.m.Receives n b t 5 → modeActive s.m.sys.mode = true → Completes (.healthMsg b t) s (fun m => rest m ∧
        m.fed.healthAt = some s.m.sys.cluster ∧ m.fed.partnerFit = bitOf (rd g.payload 0 1) 0 ∧ m.fed.ready = bitOf (rd g.payload 0 1) 1 ∧
        m.fed.finalApplied = bitOf (rd g.payload 0 1) 2 ∧ m.Reads F.RED_PAIR_STATUS_FIT (b2n (bitOf (rd g.payload 0 1) 0)))) ∧
      (s.m.Receives n b t 5 → modeActive s.m.sys.mode = false → Completes (.healthMsg b t) s (fun m => rest m ∧
        m.fed.healthAt = s.m.fed.healthAt ∧ m.fed.partnerFit = s.m.fed.partnerFit)) ∧
      (s.m.Receives n b t 6 → s.m.sys.mode ≠ 8 ∨ g.imageId ≠ s.m.leadLane.img.imageId → Completes (.seedMsg b t) s (fun m => rest m ∧
        ∀ l, (m.lane l).sb = (s.m.lane l).sb)) ∧
      (∀ kind, s.m.Receives n b t 6 → s.m.sys.mode = 8 → g.imageId = s.m.leadLane.img.imageId → rd g.payload 0 1 = kind →
        kind = 1 ∨ kind = 2 → rd g.payload 4 4 = 0 →
        let d := g.payload.drop 16
        let k := fun (m : Mach) (l : LaneId) => (m.lane l).sb
        (∀ l, l ∉ s.m.voters → Completes (.seedMsg b t) s (fun m => rest m ∧ k m l = k s.m l)) ∧
        (∀ l ∈ s.m.voters,
          (d.length < streamLength kind d → Completes (.seedMsg b t) s (fun m => rest m ∧ (kind, rd g.payload 8 8, d) ∈ (k m l).rx ∧
            (k m l).si = (k s.m l).si ∧ (k m l).full = (k s.m l).full)) ∧
          (kind = 2 → streamLength kind d ≤ d.length → sealOk (d.take (streamLength kind d)) = true → (k s.m l).full = true →
            (k s.m l).cluster.map (· + 1) = some (rd g.payload 8 8) → Completes (.seedMsg b t) s (fun m => rest m ∧ (k m l).full = true ∧
              (k m l).cluster = some (rd g.payload 8 8) ∧ (m.lane l).regs.fld F.SDB_CURRENT_CLUSTER = rd g.payload 8 8 % 2 ^ 32 ∧
              (k m l).si = ((k s.m l).takeIncrement (s.m.lane l).img (rd g.payload 8 8) (d.take (streamLength kind d))).si)))) ∧
      (s.m.Receives n b t 7 →
        let k := rd g.payload 0 8
        let took := modeActive s.m.sys.mode = true ∧ k ≤ s.m.fed.sentCluster
        Completes (.seedAckMsg b t) s (fun m => m.sys = s.m.sys ∧ m.sc = s.m.sc ∧
          (∀ l, (m.lane l).si = (s.m.lane l).si ∧ (m.lane l).rte.queue = (s.m.lane l).rte.queue) ∧
          (s.m.sys.bc ≠ 14 → m.dio = s.m.dio) ∧
          (took → (m.fed.acked = true ↔ s.m.fed.acked = true ∨ k = s.m.fed.sentCluster) ∧
            ∀ l, (s.m.lane l).follows = true → (m.lane l).rte.unacked = (s.m.lane l).rte.unacked.filter (fun u => decide (k < u.cluster))) ∧
          (¬took → m.fed.acked = s.m.fed.acked ∧ m.dio = s.m.dio ∧ ∀ l, (m.lane l).rte = (s.m.lane l).rte))))

/-- FED_SOURCE_LOST, FED_SOURCE_RESTORED, SINGLE_NETWORK_ENTER, SINGLE_NETWORK_LEAVE, SINGLE_NETWORK_EXPIRY, DUPLICATE_CLEAR, FED_LISTEN_END,
START_SEND, FED_CLAIM_END and FED_BACKOFF_END (R270, R272, R275, R276): each acts at its own limit, a source's in each lane at the lane's own count, and
changes nothing before it; none touches a lane's State Image or queue, a port or the mode. -/
def Obligations.FederationState : Prop :=
  ∀ (s : State) (k : Fin 16),
    let x := s.m.source k.val
    let src := fun (m : Mach) (l : LaneId) => (m.lane l).srcOf
    let limit := s.m.fld F.FED_CFG_LOSS_LIMIT
    let own := s.m.leadLane.img.moduleNumber
    let quiet := fun (m : Mach) => m.sys = s.m.sys ∧ m.ph = s.m.ph ∧ m.sc = s.m.sc ∧ m.dio = s.m.dio ∧
      ∀ l, (m.lane l).si = (s.m.lane l).si ∧ (m.lane l).rte = (s.m.lane l).rte
    (∀ l, limit ≤ (src s.m l k.val).silent → Completes (.fedSourceLost k) s (fun m => quiet m ∧ m.fed = s.m.fed ∧
      src m l k.val = { src s.m l k.val with inComm := false } ∧ ∀ j, j ≠ k.val → src m l j = src s.m l j)) ∧
    ((∀ l, (src s.m l k.val).silent < limit) → Completes (.fedSourceLost k) s (fun m => m = s.m)) ∧
    (∀ l, 16 ≤ (src s.m l k.val).run → Completes (.fedSourceRestored k) s (fun m => quiet m ∧ m.fed = s.m.fed ∧
      src m l k.val = { src s.m l k.val with inComm := true } ∧ ∀ j, j ≠ k.val → src m l j = src s.m l j)) ∧
    ((∀ l, (src s.m l k.val).run < 16) → Completes (.fedSourceRestored k) s (fun m => m = s.m)) ∧
    (∀ n, (n = .netA ∧ 16 ≤ s.m.fed.silA ∧ s.m.fed.silB < 16) ∨ (n = .netB ∧ 16 ≤ s.m.fed.silB ∧ s.m.fed.silA < 16) →
      s.m.fld F.FED_NETS_SINGLE = 0 → Completes (.singleNetworkEnter n false) s (fun m => quiet m ∧ m.fed = s.m.fed ∧
        m.Reads F.FED_NETS_SINGLE 1 ∧ m.Reads F.FED_STATUS_SINGLE 1 ∧ m.Reads F.FED_SINGLE_ELAPSED_SECONDS 0 ∧
        m.Raised .fed I.FED_SINGLE_NET ∧ m.Recorded 0x5003 3 own 0)) ∧
    (s.m.fld F.FED_NETS_SINGLE = 1 → 16 ≤ s.m.fed.runA → 16 ≤ s.m.fed.runB → Completes .singleNetworkLeave s (fun m => quiet m ∧
      m.fed = s.m.fed ∧ m.Reads F.FED_NETS_SINGLE 0 ∧ m.Reads F.FED_STATUS_SINGLE 0 ∧ m.Reads F.FED_NETS_EXPIRED 0)) ∧
    (s.m.fld F.FED_NETS_SINGLE = 0 ∨ s.m.fed.runA < 16 ∨ s.m.fed.runB < 16 → Completes .singleNetworkLeave s (fun m => m = s.m)) ∧
    (s.m.fld F.FED_NETS_SINGLE = 1 → s.m.fld F.FED_NETS_EXPIRED = 0 →
      s.m.fld F.RED_DEGRADED_LIMIT_HOURS * 3600 ≤ s.m.fld F.FED_SINGLE_ELAPSED_SECONDS → Completes .singleNetworkExpiry s (fun m =>
        quiet m ∧ m.fed = s.m.fed ∧ m.Reads F.FED_NETS_EXPIRED 1 ∧ m.Raised .fed I.FED_SINGLE_EXPIRED ∧ m.Recorded 0x5003 4 own 0)) ∧
    (s.m.fld F.FED_NETS_SINGLE = 0 → Completes .singleNetworkExpiry s (fun m => m = s.m)) ∧
    (bitOf (s.m.fld F.FED_DUPLICATE_MODULES) k.val = true → x.dupAt + 64 ≤ s.m.sys.cluster → Completes (.duplicateClear k) s (fun m =>
      quiet m ∧ bitOf (m.fld F.FED_DUPLICATE_MODULES) k.val = false ∧ m.fed.sources = s.m.fed.sources ∧
      (k.val = own → m.fed.ownDup = false) ∧ (k.val ≠ own → m.fed = s.m.fed))) ∧
    (s.m.sys.cluster < x.dupAt + 64 → Completes (.duplicateClear k) s (fun m => m = s.m)) ∧
    (s.m.fed.startState = 1 → s.m.paired = false ∨ s.m.fld F.RED_PAIR_CFG_UNIT = 0 → Completes .fedListenEnd s (fun m => quiet m ∧
      m.fed = { s.m.fed with startState := 2, startSeq := 0 } ∧ m.Reads F.FED_STATE_START 2)) ∧
    (s.m.fed.startState ≠ 1 ∨ (s.m.paired = true ∧ s.m.fld F.RED_PAIR_CFG_UNIT = 1) →
      Completes .fedListenEnd s (fun m => m = s.m)) ∧
    (s.m.fed.startState = 2 → Completes .startSend s (fun m => quiet m ∧ (∀ l, m.lane l = s.m.lane l) ∧
      m.fed = { s.m.fed with startSeq := s.m.fed.startSeq + 1 } ∧
      (3 ≤ (laneIds.filter s.m.speaks).length → ∃ fa fb, m.out = .message .netB fb :: .message .netA fa :: s.m.out ∧
        (readMsg fa).type = 3 ∧ (readMsg fb).type = 3 ∧ (readMsg fa).seq = (s.m.fed.startSeq + 1) % 2 ^ 32))) ∧
    (s.m.fed.startState ≠ 2 → Completes .startSend s (fun m => m = s.m) ∧ Completes .fedClaimEnd s (fun m => m = s.m)) ∧
    (s.m.fed.startState = 2 → Completes .fedClaimEnd s (fun m => quiet m ∧ m.fed.startState = 5 ∧ m.Reads F.FED_STATE_START 5 ∧
      m.Raised .fed I.FED_STARTED ∧ m.fed.sources = s.m.fed.sources ∧ ∀ l, (m.lane l).imports = (s.m.lane l).imports)) ∧
    (s.m.fed.startState = 3 → Completes .fedBackoffEnd s (fun m => quiet m ∧ m.fed = { s.m.fed with startState := 1 } ∧
      m.Reads F.FED_STATE_START 1)) ∧
    (s.m.fed.startState ≠ 3 → Completes .fedBackoffEnd s (fun m => m = s.m))

/-- PARTNER_BEACON, PAIR_SILENCE, TAKEOVER_ENTRY, HEALTH_TIMEOUT, STANDBY_LANE_TEST and STANDBY_TEST_DONE (R281, R282, R286, R287): silence of eight
basic cycles decides a takeover, due at the first boundary at least 20 ms later; there the unit takes epoch and origin of its Seedbank, every serving lane
State Image and queue of its own, and enters TAKEOVER; lanes are tested in turn, and one that passes is marked. A beacon on a port that forwards passes on to the other
link, and is a sign of the partner
where it is whole and of the image and its epoch (R278). -/
def Obligations.StandbyTakesOver : Prop :=
  ∀ (s : State) (l : LaneId),
    let f := s.m.fed
    let bank := s.m.leadLane.sb
    let start := ceilDiv (s.m.nowNs - bank.origin) 4000000
    let fromNow := s.m.sys.cluster * 16 + s.m.sys.bc + 1
    (∀ (p : Fin 16) k b,
      let h := readHusk b
      let passed := Output.frame p.val (decide (k = .west)) (decide (k = .east)) b :: s.m.out
      let sign := frameWhole b = true ∧ h.type = 1 ∧ s.m.hasImage = true ∧ h.imageId = s.m.leadLane.img.imageId
      (s.m.forwards p.val = false → Completes (.partnerBeacon p k b) s (fun m => m = s.m)) ∧
      (s.m.forwards p.val = true → ¬sign → Completes (.partnerBeacon p k b) s (fun m => m = { s.m with out := passed })) ∧
      (s.m.forwards p.val = true → s.m.sys.mode = 8 → sign → Completes (.partnerBeacon p k b) s (fun m =>
        m = { s.m with out := passed, fed := { f with quiet :=
          if (s.m.source s.m.leadLane.img.moduleNumber).epoch = some h.epoch then 0 else f.quiet } }))) ∧
    (8 ≤ f.quiet → s.m.sys.mode = 8 → f.ownDecision = false → s.m.fld F.RED_PAIR_STATUS_FIT = 1 → Completes .pairSilence s (fun m =>
      m.sys.mode = 8 ∧ m.sys.cluster = s.m.sys.cluster ∧ m.Raised .sdb I.SDB_TAKEOVER ∧ m.fed.testLane = none ∧
      ∃ c, m.fed.decided = some (c, 2) ∧ fromNow + 80 ≤ 16 * c ∧ 16 * c < fromNow + 80 + 16)) ∧
    (f.quiet < 8 ∨ s.m.sys.mode ≠ 8 ∨ f.ownDecision = true → Completes .pairSilence s (fun m => m = s.m)) ∧
    (∀ c k, f.decided = some (c, k) → c ≤ s.m.sys.cluster → k < 16 → s.m.sys.mode = 8 → s.m.sys.boundary = true →
      s.m.preempted = false → Completes .takeoverEntry s (fun m => m.sys.mode = 9 ∧ m.Reads F.SYS_STATUS_MODE 9 ∧ m.Reads F.SYS_STATUS_PREV_MODE 8 ∧
        m.fed.decided = none ∧ m.lastSeq = bank.seq ∧ m.nextSeq = nextReqSeq bank.seq ∧ m.sys.cluster = start ∧
        m.Reads F.RED_EPOCH_EPOCH ((bank.epoch + 1) % 65536) ∧ m.Reads F.RED_HANDOVER_LAST k ∧
        ∀ j, (m.lane j).time.origin = bank.origin ∧ ((s.m.lane j).role = .serving →
          (m.lane j).si = (s.m.lane j).img.takeoverSi start (s.m.lane j).sb.si ∧ (m.lane j).rte.queue = (s.m.lane j).sb.queue ∧
          (m.lane j).rte.deferred = (s.m.lane j).sb.deferred ∧ (m.lane j).payloads = []))) ∧
    (f.decided = none ∨ s.m.sys.mode ≠ 8 ∨ s.m.sys.boundary = false → Completes .takeoverEntry s (fun m => m = s.m)) ∧
    (modeActive s.m.sys.mode = true → s.m.paired = true → 2 ≤ s.m.healthAge → Completes .healthTimeout s (fun m =>
      m.fed = { f with partnerFit := false } ∧ m.Reads F.RED_PAIR_STATUS_FIT 0 ∧ m.sys = s.m.sys ∧ m.ph = s.m.ph ∧ m.sc = s.m.sc ∧
      (f.partnerFit = true → m.Raised .sdb I.SDB_PARTNER_UNFIT))) ∧
    (s.m.healthAge < 2 → Completes .healthTimeout s (fun m => m = s.m)) ∧
    (s.m.sys.mode = 8 → f.testLane = none → f.decided = none → f.testTurn = laneIx l → (s.m.lane l).role = .serving →
      Completes .standbyLaneTest s (fun m => m.fed.testLane = some l ∧ m.fed.testTurn = (laneIx l + 1) % 3 ∧ m.fed.voids = 0 ∧
        .lane l ∈ m.sys.bistRun ∧ m.sys.mode = 8 ∧ m.Reads F.RED_STANDBY_BIST_LANE (laneIx l) ∧
        m.Reads F.RED_STANDBY_BIST_TESTING 1 ∧ m.ph = s.m.ph ∧ m.sc = s.m.sc ∧ ∀ j, (m.lane j).si = (s.m.lane j).si)) ∧
    (s.m.sys.mode ≠ 8 ∨ f.testLane ≠ none ∨ f.decided ≠ none → Completes .standbyLaneTest s (fun m => m = s.m)) ∧
    (∀ r w, f.testLane = some l → s.m.sys.mode = 8 → s.m.bistOf (.lane l) r 3 = 3 → f.voids = 0 → Completes (.standbyTestDone ⟨r, w⟩) s
      (fun m => m.fed = { f with voids := 1 } ∧ .lane l ∈ m.sys.bistRun ∧ m.sys.mode = 8 ∧ ∀ j, (m.lane j).role = (s.m.lane j).role)) ∧
    (∀ r w, f.testLane = some l → s.m.sys.mode = 8 → s.m.bistOf (.lane l) r 3 = 1 → s.m.scanOk l w = true →
      Completes (.standbyTestDone ⟨r, w⟩) s (fun m => m.fed.testLane = none ∧ m.sys.mode = 8 ∧ m.Reads F.RED_STANDBY_BIST_TESTING 0 ∧
        Store.get zeroNat m.fed.testedAt (laneIx l) = s.m.sys.seconds + 1 ∧ ∀ j, (m.lane j).role = (s.m.lane j).role)) ∧
    (∀ r w, f.testLane = none ∨ s.m.sys.mode ≠ 8 → Completes (.standbyTestDone ⟨r, w⟩) s (fun m => m = s.m))

/-- HANDBACK_READY, HANDBACK_ENTRY, HANDBACK_FINAL, HANDBACK_HANDOVER and HANDBACK_ABANDON (R288): the unit that may take over says so; the active
unit announces H 64 clusters ahead and enters HANDBACK, sends FINAL at H, and hands over after FINAL applied, in STANDBY with an empty Seedbank; a
handback whose partner is unfit before H ends in service. -/
def Obligations.HandbackSteps : Prop :=
  ∀ s : State,
    let f := s.m.fed
    (s.m.sys.mode = 8 → s.m.paired = true → s.m.fld F.RED_PAIR_CFG_UNIT = 0 → s.m.fld F.RED_PAIR_STATUS_FIT = 1 →
      s.m.fld F.RED_PAIR_CFG_RETURN_HOLD ≤ s.m.fld F.RED_PAIR_STATUS_HOLD_ELAPSED →
      (∀ l, Store.get zeroNat f.testedAt (laneIx l) ≠ 0) → s.m.leadLane.sb.full = true → Completes .handbackReady s (fun m =>
        m = { s.m with fed := { f with ready := true } })) ∧
    (s.m.sys.mode ≠ 8 ∨ s.m.fld F.RED_PAIR_CFG_UNIT ≠ 0 ∨ s.m.leadLane.sb.full = false → Completes .handbackReady s (fun m => m = s.m)) ∧
    (s.m.sys.boundary = true → s.m.paired = true → s.m.sys.mode ∈ [6, 7] → f.ready = true → f.partnerFit = true →
      s.m.preempted = false → s.m.sys.darnDue = false → s.m.fld F.RED_PAIR_CFG_HANDBACK_HOLD = 0 ∨ f.released = true → Completes .handbackEntry s (fun m =>
        m.Entered s.m.sys.mode 11 0 ∧ m.fed = { f with handback := some (s.m.sys.cluster + 64), final := false, finalApplied := false, released := false } ∧
        m.sc = s.m.sc ∧ m.ph.ports = s.m.ph.ports ∧ m.ph.nodes = s.m.ph.nodes ∧ ∀ l, (m.lane l).si = (s.m.lane l).si ∧ (m.lane l).rte = (s.m.lane l).rte)) ∧
    (s.m.sys.boundary = false ∨ f.ready = false ∨ f.partnerFit = false → Completes .handbackEntry s (fun m => m = s.m)) ∧
    (∀ h, f.handback = some h → s.m.sys.mode = 11 → s.m.sys.boundary = true →
      (h ≤ s.m.sys.cluster → f.final = false → f.partnerFit = true → Completes .handbackFinal s (fun m =>
        m.fed = { f with final := true } ∧ m.Reads F.RTE_STATUS_RUNNING 0 ∧ m.sys = s.m.sys ∧ m.sc = s.m.sc ∧ s.m.RegsOnly { m with fed := f })) ∧
      (f.partnerFit = false → Completes .handbackFinal s (fun m => m = s.m)) ∧
      (s.m.sys.cluster < h → Completes .handbackFinal s (fun m => m = s.m)) ∧
      (f.final = false → f.partnerFit = false → s.m.preempted = false → (∀ l, (s.m.lane l).role = .serving) → Completes .handbackAbandon s (fun m =>
        m.Entered 11 6 0 ∧ m.fed = { f with handback := none, final := false, finalApplied := false, ready := false } ∧
        m.Reads F.RED_HANDOVER_LAST 4 ∧ m.Raised .sdb I.SDB_HANDBACK ∧ ∀ l, (m.lane l).si = (s.m.lane l).si)) ∧
      (f.final = false → f.partnerFit = true → Completes .handbackAbandon s (fun m => m = s.m))) ∧
    (f.handback = none → Completes .handbackFinal s (fun m => m = s.m) ∧ Completes .handbackAbandon s (fun m => m = s.m)) ∧
    (Settled s → s.m.sys.mode = 11 → s.m.sys.boundary = true → f.final = true → f.finalApplied = true → 1 ≤ s.m.healthAge →
      s.m.preempted = false →
      Completes .handbackHandover s (fun m => m.Entered 11 8 0 ∧ m.sys.active = false ∧ m.ph.ports = [] ∧ m.fed.handback = none ∧
        m.Reads F.RED_HANDOVER_LAST 3 ∧ m.Raised .sdb I.SDB_HANDBACK ∧
        ∀ l, (m.lane l).si = (s.m.lane l).si ∧ (m.lane l).sb = Seedbank.empty)) ∧
    (s.m.sys.mode ≠ 11 ∨ s.m.sys.boundary = false ∨ f.final = false ∨ f.finalApplied = false →
      Completes .handbackHandover s (fun m => m = s.m))

/-- The eight rows of PTP (R248, R250 to R253, R256): a Sync gives an offset once a path delay is known and is fed, or as an outlier counted and not
fed; an Announce is kept where the algorithm prefers it; a timeout leaves LOCKED for HOLDOVER with its record, and the limit leaves it for the state
without federation time; a master sends, a slave asks for its delay. Which network's announce timeout expires (assumption 100), the order of two
datasets (47), the offset while a step waits for its mark (137) and the slot that a message opens (63) are the model's choices. No State Image, queue,
port or mode changes. -/
def Obligations.PtpKept : Prop :=
  ∀ (s : State) (n : Net) (t1 t2 t3 t4 : Int),
    let p := s.m.ptp n
    let state := s.m.fld F.TSU_PTP_STATE
    let quiet := fun (m : Mach) => m.sys = s.m.sys ∧ m.ph = s.m.ph ∧ m.sc = s.m.sc ∧ m.dio = s.m.dio ∧
      ∀ l, (m.lane l).si = (s.m.lane l).si ∧ (m.lane l).rte = (s.m.lane l).rte
    (s.m.netOn n = false ∨ p.isMaster = true → Completes (.ptpSync n t1 t2) s (fun m => m = s.m)) ∧
    (p.delays = [] → Completes (.ptpSync n t1 t2) s (fun m => m = { s.m with clk := m.clk })) ∧
    (∀ d, s.m.netOn n = true → p.isMaster = false → p.mean = some d →
      let o : Rat := ((t2 - t1 + s.m.fed.stepPend : Int) : Rat) - d
      (state ∉ [2, 3] → Completes (.ptpSync n t1 t2) s (fun m => quiet m ∧ (∀ l, m.lane l = s.m.lane l) ∧
        (m.ptp n).offsets = (o :: p.offsets).take 8)) ∧
      (state = 3 → netOf (s.m.fld F.TSU_PTP_NET) = n → s.m.fed.stepDue = false → 2000 < ratAbs o → Completes (.ptpSync n t1 t2) s
        (fun m => quiet m ∧ m.Raised .tsu I.TSU_OUTLIER ∧ (∀ l, (m.lane l).time = (s.m.lane l).time) ∧
          (s.m.fed.outRun = 3 → m.Reads F.TSU_PTP_STATE 4 ∧ m.fed.outRun = 0) ∧
          (s.m.fed.outRun ≠ 3 → m.fed.outRun = s.m.fed.outRun + 1 ∧ m.fld F.TSU_PTP_STATE = 3))) ∧
      (state = 3 → netOf (s.m.fld F.TSU_PTP_NET) = n → s.m.fed.stepDue = false → ratAbs o ≤ 2000 → Completes (.ptpSync n t1 t2) s
        (fun m => quiet m ∧ m.fed.outRun = 0 ∧ m.Reads F.TSU_PTP_OFFSET_OFFSET_NS (wrapSigned 32 (ratTrunc o)) ∧
          (s.m.sys.mode = 8 → ∀ l, (m.lane l).time = (s.m.lane l).time)))) ∧
    (∀ ds, s.m.netOn n = false → Completes (.ptpAnnounce n ds) s (fun m => m = s.m)) ∧
    (∀ ds, s.m.netOn n = true → (∀ e, p.master = some e → dsBetter ds e = true ∨ e.identity = ds.identity) →
      Completes (.ptpAnnounce n ds) s (fun m => quiet m ∧ (m.ptp n).master = some ds ∧
        ((m.ptp n).isMaster = true ↔ s.m.mayMaster = true ∧ dsBetter s.m.ownDataset ds = true))) ∧
    (∀ ds e, s.m.netOn n = true → p.master = some e → e.identity ≠ ds.identity → dsBetter ds e = false →
      Completes (.ptpAnnounce n ds) s (fun m => quiet m ∧ (m.ptp n).master = some e)) ∧
    (s.m.netOn n = true → p.isMaster = false → Completes (.ptpDelayResp n t1 t2 t3 t4) s (fun m => quiet m ∧
      m.ptp n = { p with delays := (((t2 - t1) + (t4 - t3)) :: p.delays).take 8 })) ∧
    (s.m.netOn n = false ∨ p.isMaster = true → Completes (.ptpDelayResp n t1 t2 t3 t4) s (fun m => m = s.m)) ∧
    (state = 3 → s.m.fld F.TSU_PTP_NET ≠ 0 → Completes .ptpSyncTimeout s (fun m => quiet m ∧ m.Reads F.TSU_PTP_STATE 4 ∧
      m.Reads F.TSU_STATUS_HOLDOVER 1 ∧ m.Raised .tsu I.TSU_HOLDOVER ∧ m.Recorded 0x5002 3 4 (s.m.fld F.TSU_PTP_NET) ∧
      m.fed.ptpValid = true)) ∧
    (state ≠ 3 ∨ s.m.fld F.TSU_PTP_NET = 0 → Completes .ptpSyncTimeout s (fun m => m = s.m)) ∧
    (state ≠ 0 → s.m.netOn n = true → p.isMaster = false →
      (∀ k, s.m.netOn k = true → (s.m.ptp k).isMaster = false → k = n ∨ s.m.fed.ptpLast = some k) →
      Completes .ptpAnnounceTimeout s (fun m => quiet m ∧ (m.ptp n).master = none ∧ (m.ptp n).isMaster = s.m.mayMaster)) ∧
    (state = 0 ∨ (∀ k, s.m.netOn k = true → (s.m.ptp k).isMaster = true) →
      Completes .ptpAnnounceTimeout s (fun m => m = s.m)) ∧
    (state ∈ [2, 4] → s.m.fld F.TSU_STATUS_HOLDOVER = 1 → Completes .holdoverLimit s (fun m => quiet m ∧ m.Reads F.TSU_PTP_STATE 5 ∧
      m.Reads F.TSU_STATUS_HOLDOVER 0 ∧ m.fed.ptpValid = false ∧ m.Reads F.TSU_STATUS_FED_TIME_VALID 0 ∧
      (s.m.fed.ptpValid = true → m.Raised .tsu I.TSU_FED_TIME_FAULT))) ∧
    (s.m.fld F.TSU_STATUS_HOLDOVER = 0 → Completes .holdoverLimit s (fun m => m = s.m)) ∧
    (∀ w, (s.m.netOn n = true ∧ p.isMaster = true → Completes (.ptpMasterSend n w) s (fun m =>
        m = { s.m with out := .ptp n (ptpWhat w) :: s.m.out })) ∧
      (s.m.netOn n = false ∨ p.isMaster = false → Completes (.ptpMasterSend n w) s (fun m => m = s.m))) ∧
    (s.m.netOn n = true → p.isMaster = false → p.master ≠ none → Completes (.ptpDelayReqSend n) s (fun m =>
      m = { s.m with out := .ptp n 3 :: s.m.out })) ∧
    (s.m.netOn n = false ∨ p.isMaster = true ∨ p.master = none → Completes (.ptpDelayReqSend n) s (fun m => m = s.m))

/-- The ten rows of the DIO (R378 to R384): a test pulses the channels that may be tested, dark or light; DEMAG and the deferral after it end; an
conducting channel that carries 0.6 A is forced off and demagnetised; a group's voltage is shown and moves its state by the thresholds of R378,
and LOW or MISSING is recorded when the lanes agree it at a latch; differences of 8 and 16 latches and a participation fault are recorded once, and
that fault forces channels 0 to 15 off. That 120 units of 5 mA trip a channel, and that a group recovers from MISSING to LOW at 10 V, are the model's
reading (assumption 118). No State Image, port or mode changes. -/
def Obligations.DioKept : Prop :=
  ∀ (s : State) (c : Fin 64) (g : Fin 4) (v : BitVec 8) (l : LaneId),
    let d := s.m.dio
    let ch := c.val
    let quiet := fun (m : Mach) => m.sys = s.m.sys ∧ m.ph = s.m.ph ∧ m.sc = s.m.sc ∧ m.fed = s.m.fed ∧
      ∀ k, (m.lane k).si = (s.m.lane k).si ∧ (m.lane k).rte = (s.m.lane k).rte ∧ (m.lane k).role = (s.m.lane k).role
    let volts := if g.val = 0 then F.DIO_SUPPLY_L0 else if g.val = 1 then F.DIO_SUPPLY_L1 else if g.val = 2 then F.DIO_SUPPLY_L2
      else F.DIO_SUPPLY_L3
    let on := 2 ≤ s.m.sys.mode
    let at_ := d.groupAt g.val
    let shows := fun (st : Nat) (m : Mach) => quiet m ∧ m.dio = { d with group := m.dio.group } ∧ m.Reads volts v.toNat ∧ m.out = s.m.out ∧
      m.dio.groupAt g.val = st ∧ ∀ h : Fin 4, h ≠ g → m.dio.groupAt h.val = d.groupAt h.val
    let bad := Store.get zeroNat d.disagree (laneIx l * 64 + ch)
    let rb := Store.get zeroNat d.rbCount ch
    (on → s.m.sys.originAgreed = true → s.m.sys.preOrigin = false → Completes .dioSwitchTest s (fun m => quiet m ∧
      m.dio = { d with dark := m.dio.dark, light := m.dio.light, testIdx := (d.testIdx + 1) % 6 } ∧
      ∀ k, k < 16 → bitOf m.dio.dark.toNat k = (s.m.tests k && W64.bit d.prevWord k) ∧
        bitOf m.dio.light.toNat k = (s.m.tests k && !W64.bit d.prevWord k))) ∧
    (¬on ∨ s.m.sys.originAgreed = false ∨ s.m.sys.preOrigin = true → Completes .dioSwitchTest s (fun m => m = s.m)) ∧
    (W64.bit d.demag ch = true → Completes (.demagEnd c) s (fun m => quiet m ∧
      m.dio = { d with demag := setBit64 d.demag ch false, settling := setBit64 d.settling ch true }) ∧
      Completes (.deferEnd c) s (fun m => m = s.m)) ∧
    (W64.bit d.demag ch = false → Completes (.demagEnd c) s (fun m => m = s.m) ∧ Completes (.deferEnd c) s (fun m => quiet m ∧
      m.dio = { d with settling := setBit64 d.settling ch false, deferred := setBit64 d.deferred ch false })) ∧
    (W64.bit d.prevWord ch = true → W64.bit (d.deferred ||| d.overload) ch = false → 120 ≤ v.toNat → Completes (.dioOverload c v) s (fun m => quiet m ∧
      m.dio.overload = setBit64 d.overload ch true ∧ m.dio.demag = setBit64 d.demag ch true ∧
      Store.get zeroNat m.dio.current ch = v.toNat ∧ m.Raised .dio I.DIO_OVERLOAD ∧ m.Recorded 0x6002 ch 5 0)) ∧
    (W64.bit d.prevWord ch = false ∨ W64.bit (d.deferred ||| d.overload) ch = true ∨ v.toNat < 120 → Completes (.dioOverload c v) s (fun m => m = s.m)) ∧
    (on → Completes (.supplyLow g v) s (shows (if v.toNat < 90 ∧ at_ = 0 then 1 else at_)) ∧
      Completes (.supplyMissing g v) s (shows (if v.toNat < 45 then 2 else at_)) ∧
      Completes (.supplyRecover g v) s (shows (if 95 ≤ v.toNat then 0 else if 50 ≤ v.toNat ∧ at_ = 2 then 1 else at_))) ∧
    (¬on → ∀ k ∈ [Instr.supplyLow g v, .supplyMissing g v, .supplyRecover g v], Completes k s (fun m => m = s.m)) ∧
    (∀ old new, old ≠ new → new = 1 ∨ new = 2 → quiet (s.m.supplyAgreed g.val old new v.toNat) ∧
      (s.m.supplyAgreed g.val old new v.toNat).Raised .dio (if new = 1 then I.DIO_SUPPLY_LOW else I.DIO_SUPPLY_MISSING) ∧
      (s.m.supplyAgreed g.val old new v.toNat).Recorded 0x6001 g.val new v.toNat) ∧
    (∀ old, s.m.supplyAgreed g.val old 0 v.toNat = s.m ∧ s.m.supplyAgreed g.val old old v.toNat = s.m) ∧
    (8 ≤ rb → rb ≠ 255 → Completes (.readbackFault c) s (fun m => quiet m ∧ m.dio.readback = setBit64 d.readback ch true ∧
      m.Raised .dio I.DIO_READBACK ∧ m.Recorded 0x6002 ch 3 0)) ∧
    (rb < 8 ∨ rb = 255 → Completes (.readbackFault c) s (fun m => m = s.m)) ∧
    (16 ≤ bad → bad ≠ 255 → Completes (.inDisagree l c) s (fun m => quiet m ∧ m.Reads F.DIO_IN_DISAGREE_LANE (laneIx l) ∧
      m.Reads F.DIO_IN_DISAGREE_CHANNEL ch ∧ m.Raised .dio I.DIO_IN_DISAGREE ∧ m.Recorded 0x6003 ch (laneIx l) 0)) ∧
    (bad < 16 ∨ bad = 255 → Completes (.inDisagree l c) s (fun m => m = s.m)) ∧
    (d.senseFault l = true → Completes (.participationFault l) s (fun m => quiet m ∧ m.dio.senseFault l = false ∧
      m.Raised .dio I.DIO_SWITCH_FAULT ∧ ∀ k, k < 16 → bitOf m.dio.switchFault.toNat k = true ∧ W64.bit m.dio.prevWord k = false ∧
        m.Recorded 0x6002 k 4 (laneIx l))) ∧
    (d.senseFault l = false → Completes (.participationFault l) s (fun m => m = s.m))

/-- Every step leaves a mode of R292 (or OFF) where there was one, and takes one command from the queue. -/
def Obligations.ModeStaysLegal : Prop :=
  ∀ s t : State, Steps s t → s.m.sys.mode ≤ 14 → t.m.sys.mode ≤ 14 ∧ t.pending = s.pending.tail

/-- SAFE_HALT is latched (R316): from it, with no request and no return to service that waits, a step leads nowhere but to OFF and to BOOT. -/
def Obligations.SafeHaltHolds : Prop :=
  ∀ s t : State, Steps s t → s.m.sys.mode = 14 → s.m.sys.holdupWait = false → s.m.sys.pendingReq = none →
    t.m.sys.mode = 14 ∨ t.m.sys.mode = 2 ∨ t.m.sys.mode = 0

/-- The state after reset: an empty queue, the module in BOOT with no origin, no image, no demand and nothing sent; the mode is legal. That the mode
is BOOT is the model's choice (assumption 5), and so are the values of the federation, the DIO and the RTE at reset (assumption 4) and that nothing has
been sent (assumption 7). -/
def Obligations.ResetState : Prop :=
  State.reset.pending = [] ∧ State.reset.m.sys.mode = 2 ∧ State.reset.m.sys.mode ≤ 14 ∧ State.reset.m.sys.originAgreed = false ∧
  State.reset.m.out = [] ∧ State.reset.m.fed = Fed.reset ∧ State.reset.m.dio = Dio.reset ∧
  ∀ l, (State.reset.m.lane l).si = [] ∧ (State.reset.m.lane l).loaded = false ∧ (State.reset.m.lane l).rte = Rte.reset ∧
    Memory.wf (State.reset.m.lane l).dram = true

/-- R59: an erase, an open or a close of the selected slot is refused and counted in UPD.ERR_COUNT, and no slot changes; the other slot, with the lock
of UPD open, is erased and opened for writing whatever the mode. -/
def Obligations.SelectedSlotRefused : Prop :=
  ∀ (s : State) (k : Bool) (c : Instr), c ∈ [Instr.imgErase k, .imgOpen k, .imgClose k] →
    let count := fun (m : Mach) => (m.sc.regs.get (blkBase .upd + 0x20)).toNat
    let sel := s.m.sc.regs.fld F.UPD_IMG_SELECT_SLOT
    let n := s.m.sc.regs.fld F.UPD_IMG_WRITE_LEN_LENGTH
    (sel = b2n k → Completes c s (fun m => m.sc.slotA = s.m.sc.slotA ∧ m.sc.slotB = s.m.sc.slotB ∧
      count m = min (count s.m + 1) (2 ^ 32 - 1) ∧ (∀ l, m.lane l = s.m.lane l) ∧ m.sys = s.m.sys ∧ m.ph = s.m.ph)) ∧
    (sel ≠ b2n k → s.m.sc.regs.lockOpen .upd = true →
      Completes (.imgErase k) s (fun m => (m.slotOf (b2n k)).state = 4 ∧ count m = count s.m) ∧
      ((s.m.slotOf (b2n k)).state = 0 → 8 ≤ n → n ≤ 0x80000000 → n % 8 = 0 → Completes (.imgOpen k) s (fun m =>
        (m.slotOf (b2n k)).state = 1 ∧ (m.slotOf (b2n k)).len = n ∧ count m = count s.m)))

/-- R440: PERST# takes down the endpoint and the host link of every lane, and counts in HBR.LINK.DOWN_COUNT; of a lane it changes nothing but its host
link, its staged records and the EVL registers that show them, and never the Port Hub, the mode, the federation or the DIO. -/
def Obligations.PerstResetsBridgeOnly : Prop :=
  ∀ (s : State) (a : Bool),
    let kept := fun (m : Mach) => m.sys = { s.m.sys with free := m.sys.free } ∧ m.ph = s.m.ph ∧ m.fed = s.m.fed ∧ m.dio = s.m.dio ∧
      m.nextSeq = s.m.nextSeq ∧ ∀ l, ({ s.m.lane l with hostLink := (m.lane l).hostLink } : Lane).Keeps (m.lane l) (0x4000800C :: eventRegs)
    Completes (.perst a) s kept ∧
    (s.m.sc.perst = none → Completes (.perst true) s (fun m => kept m ∧ (∀ l, (m.lane l).hostLink = false) ∧ m.sc.linkUp = false ∧
      m.sc.regs.fld F.HBR_LINK_DOWN_COUNT = min (s.m.sc.regs.fld F.HBR_LINK_DOWN_COUNT + 1) 255)) ∧
    (∀ u l, s.m.sc.perst = some u → (Completes (.hostLinkRestore l) s (fun m => ∀ k, m.lane k = s.m.lane k) ∧
      Completes (.hostLinkFail l) s (fun m => ∀ k, m.lane k = s.m.lane k)))

/-- RESTART_OR_WAKE (R310, R293, R296, R322): the request is accepted in MAINTENANCE and SAFE_HALT, where it begins a reset of source 3; in DORMANT the same
word, answered by all three always-on domains, makes BOOT wait for the PLLs; in every other mode with a participating lane it is refused with 3 and no
reset begins. -/
def Obligations.RestartRequests : Prop :=
  ∀ (s : State) (w : W32) (q : BitVec 3), (Instr.restartOrWake w q).wf = true → s.m.Authorised w → s.m.sys.rst = none →
    (s.m.sys.mode ∈ [12, 14] → s.m.participants ≠ [] → (∀ l ∈ s.m.participants, s.m.mute q l = false) →
      Completes (.restartOrWake w q) s (fun m => m.ResetBegun s.m.sys.mode 3 ∧ m.sys.bootTag = mqTag w)) ∧
    (s.m.sys.mode = 1 → (∀ l, s.m.mute q l = false) → Completes (.restartOrWake w q) s (fun m =>
      m.sys.rst = some 0 ∧ m.sys.bootTag = mqTag w ∧ m.sys.mode = 1 ∧ m.ModeAnswered w 1 1)) ∧
    (s.m.sys.mode ∉ [1, 12, 14] → s.m.participants ≠ [] → (∀ l ∈ s.m.participants, s.m.mute q l = false) →
      Completes (.restartOrWake w q) s (fun m => m.ModeAnswered w 3 3 ∧ m.sys.rst = none ∧ m.sys.mode = s.m.sys.mode ∧
        m.sys.pendingReq = s.m.sys.pendingReq))
end

