-- ==== Sys2Proof/Laws/Store.lean ====
section
/-!
SUPPORT. Laws/Store.lean: the sparse stores. A read after a write, in every list, and that every store and memory operation
keeps the canonical form.
-/
namespace Sys2Proof.Machine

variable {α : Type}

/-! ### Reading what was written -/

theorem Store.get_insert (d : Nat → α) (k i : Nat) (v : α) (t : Store α) (h : ∀ e ∈ t, e.1 ≠ k) :
    Store.get d (Store.insert k v t) i = if i = k then v else Store.get d t i := by
  induction t with
  | nil => rfl
  | cons e t ih =>
    obtain ⟨j, u⟩ := e
    have hj : j ≠ k := h (j, u) (by simp)
    have ih := ih (fun e he => h e (by simp [he]))
    simp only [Store.insert]
    split
    · rfl
    · simp only [Store.get, ih]
      split
      · rw [if_neg (by omega)]
      · rfl

theorem Store.get_drop (d : Nat → α) (k i : Nat) (t : Store α) :
    Store.get d (t.filter (fun e => decide (e.1 ≠ k))) i = if i = k then d k else Store.get d t i := by
  induction t with
  | nil => simp [Store.get]; intro h; rw [h]
  | cons e t ih =>
    obtain ⟨j, u⟩ := e
    by_cases hj : j = k
    · subst hj
      rw [List.filter_cons_of_neg (by simp), ih]
      split
      · rfl
      · simp [Store.get, ‹i ≠ j›]
    · rw [List.filter_cons_of_pos (by simpa using hj)]
      simp only [Store.get, ih]
      split
      · rw [if_neg (by omega)]
      · rfl

/-- A read after a write: the value written at its key, every other key as before. -/
theorem Store.get_set [DecidableEq α] (d : Nat → α) (t : Store α) (k i : Nat) (v : α) :
    Store.get d (Store.set d t k v) i = if i = k then v else Store.get d t i := by
  simp only [Store.set]
  split
  · rw [Store.get_drop]
    split
    · exact Eq.symm ‹_›
    · rfl
  · rw [Store.get_insert]
    · split
      · rfl
      · rw [Store.get_drop, if_neg ‹_›]
    · intro e he
      simpa using (List.mem_filter.mp he).2

@[simp] theorem Store.get_set_self [DecidableEq α] (d : Nat → α) (t : Store α) (k : Nat) (v : α) :
    Store.get d (Store.set d t k v) k = v := by rw [Store.get_set, if_pos rfl]

theorem Store.get_set_ne [DecidableEq α] (d : Nat → α) (t : Store α) {k i : Nat} (v : α) (h : i ≠ k) :
    Store.get d (Store.set d t k v) i = Store.get d t i := by rw [Store.get_set, if_neg h]

/-! ### The canonical form -/

theorem Store.wfFrom_cons [DecidableEq α] {d : Nat → α} {b j : Nat} {v : α} {t : Store α} :
    Store.wfFrom d b ((j, v) :: t) = true ↔ b ≤ j ∧ v ≠ d j ∧ Store.wfFrom d (j + 1) t = true := by
  simp [Store.wfFrom, and_assoc]

theorem Store.wfFrom_mono [DecidableEq α] {d : Nat → α} {b c : Nat} {t : Store α} (h : b ≤ c)
    (w : Store.wfFrom d c t = true) : Store.wfFrom d b t = true := by
  cases t with
  | nil => rfl
  | cons e t =>
    obtain ⟨j, v⟩ := e
    rw [Store.wfFrom_cons] at w ⊢
    exact ⟨by omega, w.2⟩

theorem Store.wfFrom_filter [DecidableEq α] {d : Nat → α} {b : Nat} {t : Store α} (p : Nat × α → Bool)
    (w : Store.wfFrom d b t = true) : Store.wfFrom d b (t.filter p) = true := by
  induction t generalizing b with
  | nil => rfl
  | cons e t ih =>
    obtain ⟨j, u⟩ := e
    rw [Store.wfFrom_cons] at w
    rw [List.filter_cons]
    split
    · rw [Store.wfFrom_cons]; exact ⟨w.1, w.2.1, ih w.2.2⟩
    · exact Store.wfFrom_mono (by omega) (ih w.2.2)

/-- Keeping some entries keeps the canonical form. -/
theorem Store.wf_filter [DecidableEq α] {d : Nat → α} {t : Store α} (p : Nat × α → Bool) (w : Store.wf d t = true) :
    Store.wf d (t.filter p) = true := Store.wfFrom_filter p w

theorem Store.wfFrom_insert [DecidableEq α] {d : Nat → α} {b k : Nat} {v : α} {t : Store α} (hb : b ≤ k) (hv : v ≠ d k)
    (h : ∀ e ∈ t, e.1 ≠ k) (w : Store.wfFrom d b t = true) : Store.wfFrom d b (Store.insert k v t) = true := by
  induction t generalizing b with
  | nil => simp only [Store.insert]; rw [Store.wfFrom_cons]; exact ⟨hb, hv, rfl⟩
  | cons e t ih =>
    obtain ⟨j, u⟩ := e
    have hj : j ≠ k := h (j, u) (by simp)
    rw [Store.wfFrom_cons] at w
    simp only [Store.insert]
    split
    · rw [Store.wfFrom_cons, Store.wfFrom_cons]; exact ⟨hb, hv, by omega, w.2⟩
    · rw [Store.wfFrom_cons]
      exact ⟨w.1, w.2.1, ih (by omega) (fun e he => h e (by simp [he])) w.2.2⟩

/-- A write keeps the canonical form. -/
theorem Store.wf_set [DecidableEq α] {d : Nat → α} {t : Store α} {k : Nat} {v : α} (w : Store.wf d t = true) :
    Store.wf d (Store.set d t k v) = true := by
  simp only [Store.set]
  split
  · exact Store.wf_filter _ w
  · refine Store.wfFrom_insert (Nat.zero_le k) ‹_› ?_ (Store.wf_filter _ w)
    intro e he
    simpa using (List.mem_filter.mp he).2

/-! ### Byte memories -/

theorem Memory.wf_put {m : Mem} {a : Nat} {b : Byte} (w : Memory.wf m = true) : Memory.wf (m.put a b) = true :=
  Store.wf_set w

theorem Memory.wf_write {m : Mem} {a : Nat} {l : List Byte} (w : Memory.wf m = true) : Memory.wf (m.write a l) = true := by
  induction l generalizing m a with
  | nil => exact w
  | cons b t ih => exact ih (Memory.wf_put w)

/-- A byte after a write of a list of bytes: the list's byte inside the range, the old one outside. -/
theorem Mem.byte_write (m : Mem) (a i : Nat) (l : List Byte) :
    (m.write a l).byte i = if a ≤ i ∧ i < a + l.length then l.getD (i - a) 0 else m.byte i := by
  induction l generalizing m a with
  | nil => rw [Mem.write, if_neg (by simp)]
  | cons b t ih =>
    rw [Mem.write, ih]
    unfold Mem.byte Mem.put
    rw [Store.get_set]
    simp only [List.length_cons]
    by_cases h : i = a
    · subst h
      rw [if_neg (by omega), if_pos rfl, if_pos (by omega)]
      simp
    · by_cases h2 : a + 1 ≤ i ∧ i < a + 1 + t.length
      · rw [if_pos h2, if_pos (by omega)]
        have : i - a = (i - (a + 1)) + 1 := by omega
        rw [this]; simp
      · rw [if_neg h2, if_neg h, if_neg (by omega)]

theorem Memory.wf_zeroWhere {m : Mem} (p : Nat → Bool) (w : Memory.wf m = true) : Memory.wf (m.zeroWhere p) = true :=
  Store.wf_filter _ w

/-- Two canonical pieces, the first below `c` and the second from `c` on, make a canonical store. -/
theorem Store.wfFrom_append [DecidableEq α] {d : Nat → α} {b c : Nat} {s t : Store α} (ws : Store.wfFrom d b s = true)
    (hs : ∀ e ∈ s, e.1 < c) (wt : Store.wfFrom d c t = true) (hb : b ≤ c) : Store.wfFrom d b (s ++ t) = true := by
  induction s generalizing b with
  | nil => exact Store.wfFrom_mono hb wt
  | cons e s ih =>
    obtain ⟨j, u⟩ := e
    rw [Store.wfFrom_cons] at ws
    rw [List.cons_append, Store.wfFrom_cons]
    have hj : j < c := hs (j, u) (by simp)
    exact ⟨ws.1, ws.2.1, ih ws.2.2 (fun x hx => hs x (by simp [hx])) (by omega)⟩

theorem Mem.wfFrom_shift {b n : Nat} {t : Mem} (w : Store.wfFrom Mem.d b t = true) :
    Store.wfFrom Mem.d (b + n) (t.map (fun e => (e.1 + n, e.2))) = true := by
  induction t generalizing b with
  | nil => rfl
  | cons e t ih =>
    obtain ⟨j, u⟩ := e
    rw [Store.wfFrom_cons] at w
    rw [List.map_cons, Store.wfFrom_cons]
    refine ⟨by have := w.1; simp; omega, w.2.1, ?_⟩
    have := ih w.2.2
    rwa [show j + 1 + n = j + n + 1 by omega] at this

theorem Mem.wfFrom_filter_ge {b c : Nat} {t : Mem} (w : Store.wfFrom Mem.d b t = true) :
    Store.wfFrom Mem.d c (t.filter (fun e => decide (c ≤ e.1))) = true := by
  induction t generalizing b with
  | nil => rfl
  | cons e t ih =>
    obtain ⟨j, u⟩ := e
    rw [Store.wfFrom_cons] at w
    rw [List.filter_cons]
    split
    · rename_i h
      rw [Store.wfFrom_cons]
      exact ⟨by simpa using h, w.2.1, Store.wfFrom_filter _ w.2.2⟩
    · exact ih w.2.2

/-- A splice of canonical memories is canonical. -/
theorem Memory.wf_splice {m src : Mem} {base len : Nat} (w : Memory.wf m = true) (ws : Memory.wf src = true) :
    Memory.wf (m.splice base len src) = true := by
  unfold Mem.splice Memory.wf Store.wf
  refine Store.wfFrom_append (c := base) (Store.wfFrom_filter _ w) ?_ ?_ (Nat.zero_le _)
  · intro e he; simpa using (List.mem_filter.mp he).2
  · refine Store.wfFrom_append (c := base + len) ?_ ?_ (Mem.wfFrom_filter_ge w) (by omega)
    · have := Mem.wfFrom_shift (n := base) (Store.wfFrom_filter (fun e => decide (e.1 < len)) ws)
      simpa using this
    · intro e he
      obtain ⟨x, hx, rfl⟩ := List.mem_map.mp he
      have : x.1 < len := by simpa using (List.mem_filter.mp hx).2
      simp; omega

end Sys2Proof.Machine
end

