-- ==== Sys2Proof/Laws/Regs.lean ====
section
/-!
SUPPORT. Laws/Regs.lean: what reading a register file gives after a write: of the same register, of another register, of the
written field, of a field of another register, and of another field of the same register.
-/
namespace Sys2Proof.Machine

@[simp] theorem Regs.get_set_self (r : Regs) (a : Nat) (v : W32) : (r.set a v).get a = v := by
  simp [Regs.set, Regs.get]

theorem Regs.get_set_ne (r : Regs) {a b : Nat} (v : W32) (h : b ≠ a) : (r.set a v).get b = r.get b := by
  simp [Regs.set, Regs.get, Store.get_set_ne _ _ _ h]

theorem Regs.get_put_ne (r : Regs) {f : Field} {b : Nat} (v : Nat) (h : b ≠ f.addr) : (r.put f v).get b = r.get b :=
  Regs.get_set_ne r _ h

theorem Regs.fld_set_ne (r : Regs) {f : Field} {a : Nat} (v : W32) (h : f.addr ≠ a) : (r.set a v).fld f = r.fld f := by
  simp [Regs.fld, Regs.get_set_ne r v h]

theorem Regs.fld_put_ne (r : Regs) {f g : Field} (v : Nat) (h : f.addr ≠ g.addr) : (r.put g v).fld f = r.fld f :=
  Regs.fld_set_ne r _ h

theorem Regs.fld_inc_ne (r : Regs) {f g : Field} (h : f.addr ≠ g.addr) : (r.inc g).fld f = r.fld f := Regs.fld_put_ne r _ h

theorem Regs.fld_setBit_ne (r : Regs) {f : Field} {a i : Nat} {b : Bool} (h : f.addr ≠ a) : (r.setBit a i b).fld f = r.fld f :=
  Regs.fld_set_ne r _ h

theorem Regs.fld_incReg_ne (r : Regs) {f : Field} {a : Nat} (h : f.addr ≠ a) : (r.incReg a).fld f = r.fld f :=
  Regs.fld_set_ne r _ h

/-- Replacing bits [hi:lo] keeps a number below any power of two above `hi`. -/
theorem setBits_lt {v hi lo x w : Nat} (hv : v < 2 ^ w) (h : hi < w) (hl : lo ≤ hi) : setBits v hi lo x < 2 ^ w := by
  unfold setBits
  have e1 : 2 ^ w = 2 ^ (w - (hi + 1)) * 2 ^ (hi + 1) := by rw [← Nat.pow_add]; congr 1; omega
  have e2 : 2 ^ (hi + 1) = 2 ^ (hi + 1 - lo) * 2 ^ lo := by rw [← Nat.pow_add]; congr 1; omega
  have h1 : v / 2 ^ (hi + 1) < 2 ^ (w - (hi + 1)) := by
    apply Nat.div_lt_of_lt_mul; rw [Nat.mul_comm, ← e1]; exact hv
  have h2 : x % 2 ^ (hi + 1 - lo) * 2 ^ lo + v % 2 ^ lo < 2 ^ (hi + 1) := by
    have a := Nat.mod_lt x (Nat.two_pow_pos (hi + 1 - lo))
    have b := Nat.mod_lt v (Nat.two_pow_pos lo)
    calc _ < x % 2 ^ (hi + 1 - lo) * 2 ^ lo + 2 ^ lo := by omega
      _ = (x % 2 ^ (hi + 1 - lo) + 1) * 2 ^ lo := by ring
      _ ≤ 2 ^ (hi + 1 - lo) * 2 ^ lo := Nat.mul_le_mul_right _ a
      _ = _ := e2.symm
  calc _ = v / 2 ^ (hi + 1) * 2 ^ (hi + 1) + (x % 2 ^ (hi + 1 - lo) * 2 ^ lo + v % 2 ^ lo) := by ring
    _ < v / 2 ^ (hi + 1) * 2 ^ (hi + 1) + 2 ^ (hi + 1) := by omega
    _ = (v / 2 ^ (hi + 1) + 1) * 2 ^ (hi + 1) := by ring
    _ ≤ 2 ^ (w - (hi + 1)) * 2 ^ (hi + 1) := Nat.mul_le_mul_right _ h1
    _ = _ := e1.symm

/-- The replaced bits read as what was written. -/
theorem bitsOf_setBits (v hi lo x : Nat) (hl : lo ≤ hi) : bitsOf (setBits v hi lo x) hi lo = x % 2 ^ (hi + 1 - lo) := by
  unfold bitsOf setBits
  have e2 : 2 ^ (hi + 1) = 2 ^ (hi + 1 - lo) * 2 ^ lo := by rw [← Nat.pow_add]; congr 1; omega
  have hp := Nat.two_pow_pos lo
  have e : v / 2 ^ (hi + 1) * 2 ^ (hi + 1) + x % 2 ^ (hi + 1 - lo) * 2 ^ lo + v % 2 ^ lo =
      v % 2 ^ lo + 2 ^ lo * (v / 2 ^ (hi + 1) * 2 ^ (hi + 1 - lo) + x % 2 ^ (hi + 1 - lo)) := by rw [e2]; ring
  rw [e, Nat.add_mul_div_left _ _ hp, Nat.div_eq_of_lt (Nat.mod_lt _ hp), Nat.zero_add, Nat.add_comm,
    Nat.add_mul_mod_self_right, Nat.mod_mod]

/-- Bits above the replaced ones stay. -/
theorem bitsOf_setBits_above (v hi lo x h2 l2 : Nat) (hl : lo ≤ hi) (h : hi < l2) :
    bitsOf (setBits v hi lo x) h2 l2 = bitsOf v h2 l2 := by
  unfold bitsOf setBits
  congr 1
  have e2 : 2 ^ (hi + 1) = 2 ^ (hi + 1 - lo) * 2 ^ lo := by rw [← Nat.pow_add]; congr 1; omega
  have e3 : 2 ^ l2 = 2 ^ (hi + 1) * 2 ^ (l2 - (hi + 1)) := by rw [← Nat.pow_add]; congr 1; omega
  have hlt : x % 2 ^ (hi + 1 - lo) * 2 ^ lo + v % 2 ^ lo < 2 ^ (hi + 1) := by
    have a := Nat.mod_lt x (Nat.two_pow_pos (hi + 1 - lo))
    have b := Nat.mod_lt v (Nat.two_pow_pos lo)
    calc _ < x % 2 ^ (hi + 1 - lo) * 2 ^ lo + 2 ^ lo := by omega
      _ = (x % 2 ^ (hi + 1 - lo) + 1) * 2 ^ lo := by ring
      _ ≤ 2 ^ (hi + 1 - lo) * 2 ^ lo := Nat.mul_le_mul_right _ a
      _ = _ := e2.symm
  rw [e3, ← Nat.div_div_eq_div_mul, ← Nat.div_div_eq_div_mul, Nat.add_assoc, Nat.add_comm, Nat.add_mul_div_right _ _ (Nat.two_pow_pos _),
    Nat.div_eq_of_lt hlt, Nat.zero_add]

/-- Bits below the replaced ones stay. -/
theorem bitsOf_setBits_below (v hi lo x h2 l2 : Nat) (hl : lo ≤ hi) (h : h2 < lo) (hh : l2 ≤ h2) :
    bitsOf (setBits v hi lo x) h2 l2 = bitsOf v h2 l2 := by
  unfold bitsOf setBits
  have key : ∀ n, n / 2 ^ l2 % 2 ^ (h2 + 1 - l2) = n % 2 ^ (h2 + 1) / 2 ^ l2 := by
    intro n
    have : 2 ^ (h2 + 1) = 2 ^ l2 * 2 ^ (h2 + 1 - l2) := by rw [← Nat.pow_add]; congr 1; omega
    rw [this, Nat.mod_mul_right_div_self]
  rw [key, key]
  congr 1
  have e2 : 2 ^ (hi + 1) = 2 ^ (hi + 1 - lo) * 2 ^ lo := by rw [← Nat.pow_add]; congr 1; omega
  have e3 : 2 ^ lo = 2 ^ (h2 + 1) * 2 ^ (lo - (h2 + 1)) := by rw [← Nat.pow_add]; congr 1; omega
  have e : v / 2 ^ (hi + 1) * 2 ^ (hi + 1) + x % 2 ^ (hi + 1 - lo) * 2 ^ lo + v % 2 ^ lo =
      v % 2 ^ lo + 2 ^ (h2 + 1) * (2 ^ (lo - (h2 + 1)) * (v / 2 ^ (hi + 1) * 2 ^ (hi + 1 - lo) + x % 2 ^ (hi + 1 - lo))) := by
    have e4 : ∀ y, 2 ^ (h2 + 1) * (2 ^ (lo - (h2 + 1)) * y) = 2 ^ lo * y := fun y => by rw [← Nat.mul_assoc, ← e3]
    rw [e4, e2]; ring
  rw [e, Nat.add_mul_mod_self_left, e3, Nat.mod_mul_right_mod]

/-- A written field reads as what was written, cut to its width. -/
theorem Regs.fld_put_same (r : Regs) (f : Field) (v : Nat) (h : f.hi < 32) (hl : f.lo ≤ f.hi) :
    (r.put f v).fld f = v % 2 ^ (f.hi + 1 - f.lo) := by
  unfold Regs.put Regs.fld
  rw [Regs.get_set_self, BitVec.toNat_ofNat, Nat.mod_eq_of_lt (setBits_lt (Regs.get r f.addr).isLt h hl), bitsOf_setBits _ _ _ _ hl]

/-- Another field of the same register stays. -/
theorem Regs.fld_put_beside (r : Regs) {f g : Field} (v : Nat) (ha : f.addr = g.addr) (h : g.hi < 32) (hl : g.lo ≤ g.hi)
    (hf : f.lo ≤ f.hi) (hd : g.hi < f.lo ∨ f.hi < g.lo) : (r.put g v).fld f = r.fld f := by
  unfold Regs.put Regs.fld
  rw [ha, Regs.get_set_self, BitVec.toNat_ofNat, Nat.mod_eq_of_lt (setBits_lt (Regs.get r g.addr).isLt h hl)]
  rcases hd with hd | hd
  · rw [bitsOf_setBits_above _ _ _ _ _ _ hl hd]
  · rw [bitsOf_setBits_below _ _ _ _ _ _ hl hd hf]

end Sys2Proof.Machine
end

