-- ==== Sys2Proof/Laws/State.lean ====
section
/-!
SUPPORT. Laws/State.lean: what each plain operation of Machine/Ops.lean leaves in each field of the module, one lemma a field.
-/
namespace Sys2Proof.Machine

@[simp] theorem Mach.lane_a (m : Mach) : m.lane .a = m.a := rfl
@[simp] theorem Mach.lane_b (m : Mach) : m.lane .b = m.b := rfl
@[simp] theorem Mach.lane_c (m : Mach) : m.lane .c = m.c := rfl
@[simp] theorem Mach.lane_mapLanes (m : Mach) (f : Lane → Lane) (l : LaneId) : (m.mapLanes f).lane l = f (m.lane l) := by cases l <;> rfl
@[simp] theorem Mach.lane_setLane_self (m : Mach) (l : LaneId) (x : Lane) : (m.setLane l x).lane l = x := by cases l <;> rfl
theorem Mach.lane_setLane_ne (m : Mach) {l k : LaneId} (x : Lane) (h : k ≠ l) : (m.setLane l x).lane k = m.lane k := by
  cases l <;> cases k <;> first | rfl | exact absurd rfl h
@[simp] theorem Mach.lane_updLane_self (m : Mach) (l : LaneId) (f : Lane → Lane) : (m.updLane l f).lane l = f (m.lane l) := by
  simp [Mach.updLane]
theorem Mach.lane_updLane_ne (m : Mach) {l k : LaneId} (f : Lane → Lane) (h : k ≠ l) : (m.updLane l f).lane k = m.lane k :=
  Mach.lane_setLane_ne m _ h

@[simp] theorem Mach.mapLanes_sys (m : Mach) (f : Lane → Lane) : (m.mapLanes f).sys = m.sys := rfl
@[simp] theorem Mach.mapLanes_ph (m : Mach) (f : Lane → Lane) : (m.mapLanes f).ph = m.ph := rfl
@[simp] theorem Mach.mapLanes_sc (m : Mach) (f : Lane → Lane) : (m.mapLanes f).sc = m.sc := rfl
@[simp] theorem Mach.mapLanes_fed (m : Mach) (f : Lane → Lane) : (m.mapLanes f).fed = m.fed := rfl
@[simp] theorem Mach.mapLanes_dio (m : Mach) (f : Lane → Lane) : (m.mapLanes f).dio = m.dio := rfl
@[simp] theorem Mach.mapLanes_clk (m : Mach) (f : Lane → Lane) : (m.mapLanes f).clk = m.clk := rfl
@[simp] theorem Mach.mapLanes_msi (m : Mach) (f : Lane → Lane) : (m.mapLanes f).msi = m.msi := rfl
@[simp] theorem Mach.mapLanes_nextSeq (m : Mach) (f : Lane → Lane) : (m.mapLanes f).nextSeq = m.nextSeq := rfl
@[simp] theorem Mach.mapLanes_lastSeq (m : Mach) (f : Lane → Lane) : (m.mapLanes f).lastSeq = m.lastSeq := rfl
@[simp] theorem Mach.mapLanes_out (m : Mach) (f : Lane → Lane) : (m.mapLanes f).out = m.out := rfl
@[simp] theorem Mach.putAll_sys (m : Mach) (f : Field) (v : Nat) : (m.putAll f v).sys = m.sys := rfl
@[simp] theorem Mach.putAll_ph (m : Mach) (f : Field) (v : Nat) : (m.putAll f v).ph = m.ph := rfl
@[simp] theorem Mach.putAll_sc (m : Mach) (f : Field) (v : Nat) : (m.putAll f v).sc = m.sc := rfl
@[simp] theorem Mach.putAll_fed (m : Mach) (f : Field) (v : Nat) : (m.putAll f v).fed = m.fed := rfl
@[simp] theorem Mach.putAll_dio (m : Mach) (f : Field) (v : Nat) : (m.putAll f v).dio = m.dio := rfl
@[simp] theorem Mach.putAll_clk (m : Mach) (f : Field) (v : Nat) : (m.putAll f v).clk = m.clk := rfl
@[simp] theorem Mach.putAll_msi (m : Mach) (f : Field) (v : Nat) : (m.putAll f v).msi = m.msi := rfl
@[simp] theorem Mach.putAll_nextSeq (m : Mach) (f : Field) (v : Nat) : (m.putAll f v).nextSeq = m.nextSeq := rfl
@[simp] theorem Mach.putAll_lastSeq (m : Mach) (f : Field) (v : Nat) : (m.putAll f v).lastSeq = m.lastSeq := rfl
@[simp] theorem Mach.putAll_out (m : Mach) (f : Field) (v : Nat) : (m.putAll f v).out = m.out := rfl
@[simp] theorem Mach.incAll_sys (m : Mach) (f : Field) : (m.incAll f).sys = m.sys := rfl
@[simp] theorem Mach.incAll_ph (m : Mach) (f : Field) : (m.incAll f).ph = m.ph := rfl
@[simp] theorem Mach.incAll_sc (m : Mach) (f : Field) : (m.incAll f).sc = m.sc := rfl
@[simp] theorem Mach.incAll_fed (m : Mach) (f : Field) : (m.incAll f).fed = m.fed := rfl
@[simp] theorem Mach.incAll_dio (m : Mach) (f : Field) : (m.incAll f).dio = m.dio := rfl
@[simp] theorem Mach.incAll_clk (m : Mach) (f : Field) : (m.incAll f).clk = m.clk := rfl
@[simp] theorem Mach.incAll_msi (m : Mach) (f : Field) : (m.incAll f).msi = m.msi := rfl
@[simp] theorem Mach.incAll_nextSeq (m : Mach) (f : Field) : (m.incAll f).nextSeq = m.nextSeq := rfl
@[simp] theorem Mach.incAll_lastSeq (m : Mach) (f : Field) : (m.incAll f).lastSeq = m.lastSeq := rfl
@[simp] theorem Mach.incAll_out (m : Mach) (f : Field) : (m.incAll f).out = m.out := rfl
@[simp] theorem Mach.setAllReg_sys (m : Mach) (a : Nat) (v : W32) : (m.setAllReg a v).sys = m.sys := rfl
@[simp] theorem Mach.setAllReg_ph (m : Mach) (a : Nat) (v : W32) : (m.setAllReg a v).ph = m.ph := rfl
@[simp] theorem Mach.setAllReg_sc (m : Mach) (a : Nat) (v : W32) : (m.setAllReg a v).sc = m.sc := rfl
@[simp] theorem Mach.setAllReg_fed (m : Mach) (a : Nat) (v : W32) : (m.setAllReg a v).fed = m.fed := rfl
@[simp] theorem Mach.setAllReg_dio (m : Mach) (a : Nat) (v : W32) : (m.setAllReg a v).dio = m.dio := rfl
@[simp] theorem Mach.setAllReg_clk (m : Mach) (a : Nat) (v : W32) : (m.setAllReg a v).clk = m.clk := rfl
@[simp] theorem Mach.setAllReg_msi (m : Mach) (a : Nat) (v : W32) : (m.setAllReg a v).msi = m.msi := rfl
@[simp] theorem Mach.setAllReg_nextSeq (m : Mach) (a : Nat) (v : W32) : (m.setAllReg a v).nextSeq = m.nextSeq := rfl
@[simp] theorem Mach.setAllReg_lastSeq (m : Mach) (a : Nat) (v : W32) : (m.setAllReg a v).lastSeq = m.lastSeq := rfl
@[simp] theorem Mach.setAllReg_out (m : Mach) (a : Nat) (v : W32) : (m.setAllReg a v).out = m.out := rfl
@[simp] theorem Mach.incAllReg_sys (m : Mach) (a : Nat) : (m.incAllReg a).sys = m.sys := rfl
@[simp] theorem Mach.incAllReg_ph (m : Mach) (a : Nat) : (m.incAllReg a).ph = m.ph := rfl
@[simp] theorem Mach.incAllReg_sc (m : Mach) (a : Nat) : (m.incAllReg a).sc = m.sc := rfl
@[simp] theorem Mach.incAllReg_fed (m : Mach) (a : Nat) : (m.incAllReg a).fed = m.fed := rfl
@[simp] theorem Mach.incAllReg_dio (m : Mach) (a : Nat) : (m.incAllReg a).dio = m.dio := rfl
@[simp] theorem Mach.incAllReg_clk (m : Mach) (a : Nat) : (m.incAllReg a).clk = m.clk := rfl
@[simp] theorem Mach.incAllReg_msi (m : Mach) (a : Nat) : (m.incAllReg a).msi = m.msi := rfl
@[simp] theorem Mach.incAllReg_nextSeq (m : Mach) (a : Nat) : (m.incAllReg a).nextSeq = m.nextSeq := rfl
@[simp] theorem Mach.incAllReg_lastSeq (m : Mach) (a : Nat) : (m.incAllReg a).lastSeq = m.lastSeq := rfl
@[simp] theorem Mach.incAllReg_out (m : Mach) (a : Nat) : (m.incAllReg a).out = m.out := rfl
@[simp] theorem Mach.putPh_sys (m : Mach) (f : Field) (v : Nat) : (m.putPh f v).sys = m.sys := rfl
@[simp] theorem Mach.putPh_ph (m : Mach) (f : Field) (v : Nat) : (m.putPh f v).ph = { m.ph with regs := m.ph.regs.put f v } := rfl
@[simp] theorem Mach.putPh_sc (m : Mach) (f : Field) (v : Nat) : (m.putPh f v).sc = m.sc := rfl
@[simp] theorem Mach.putPh_fed (m : Mach) (f : Field) (v : Nat) : (m.putPh f v).fed = m.fed := rfl
@[simp] theorem Mach.putPh_dio (m : Mach) (f : Field) (v : Nat) : (m.putPh f v).dio = m.dio := rfl
@[simp] theorem Mach.putPh_clk (m : Mach) (f : Field) (v : Nat) : (m.putPh f v).clk = m.clk := rfl
@[simp] theorem Mach.putPh_msi (m : Mach) (f : Field) (v : Nat) : (m.putPh f v).msi = m.msi := rfl
@[simp] theorem Mach.putPh_nextSeq (m : Mach) (f : Field) (v : Nat) : (m.putPh f v).nextSeq = m.nextSeq := rfl
@[simp] theorem Mach.putPh_lastSeq (m : Mach) (f : Field) (v : Nat) : (m.putPh f v).lastSeq = m.lastSeq := rfl
@[simp] theorem Mach.putPh_out (m : Mach) (f : Field) (v : Nat) : (m.putPh f v).out = m.out := rfl
@[simp] theorem Mach.lane_putPh (m : Mach) (f : Field) (v : Nat) (l : LaneId) : (m.putPh f v).lane l = m.lane l := by cases l <;> rfl
@[simp] theorem Mach.incPh_sys (m : Mach) (f : Field) : (m.incPh f).sys = m.sys := rfl
@[simp] theorem Mach.incPh_sc (m : Mach) (f : Field) : (m.incPh f).sc = m.sc := rfl
@[simp] theorem Mach.incPh_fed (m : Mach) (f : Field) : (m.incPh f).fed = m.fed := rfl
@[simp] theorem Mach.incPh_dio (m : Mach) (f : Field) : (m.incPh f).dio = m.dio := rfl
@[simp] theorem Mach.incPh_clk (m : Mach) (f : Field) : (m.incPh f).clk = m.clk := rfl
@[simp] theorem Mach.incPh_msi (m : Mach) (f : Field) : (m.incPh f).msi = m.msi := rfl
@[simp] theorem Mach.incPh_nextSeq (m : Mach) (f : Field) : (m.incPh f).nextSeq = m.nextSeq := rfl
@[simp] theorem Mach.incPh_lastSeq (m : Mach) (f : Field) : (m.incPh f).lastSeq = m.lastSeq := rfl
@[simp] theorem Mach.incPh_out (m : Mach) (f : Field) : (m.incPh f).out = m.out := rfl
@[simp] theorem Mach.lane_incPh (m : Mach) (f : Field) (l : LaneId) : (m.incPh f).lane l = m.lane l := by cases l <;> rfl
@[simp] theorem Mach.incPhReg_sys (m : Mach) (a : Nat) : (m.incPhReg a).sys = m.sys := rfl
@[simp] theorem Mach.incPhReg_sc (m : Mach) (a : Nat) : (m.incPhReg a).sc = m.sc := rfl
@[simp] theorem Mach.incPhReg_fed (m : Mach) (a : Nat) : (m.incPhReg a).fed = m.fed := rfl
@[simp] theorem Mach.incPhReg_dio (m : Mach) (a : Nat) : (m.incPhReg a).dio = m.dio := rfl
@[simp] theorem Mach.incPhReg_clk (m : Mach) (a : Nat) : (m.incPhReg a).clk = m.clk := rfl
@[simp] theorem Mach.incPhReg_msi (m : Mach) (a : Nat) : (m.incPhReg a).msi = m.msi := rfl
@[simp] theorem Mach.incPhReg_nextSeq (m : Mach) (a : Nat) : (m.incPhReg a).nextSeq = m.nextSeq := rfl
@[simp] theorem Mach.incPhReg_lastSeq (m : Mach) (a : Nat) : (m.incPhReg a).lastSeq = m.lastSeq := rfl
@[simp] theorem Mach.incPhReg_out (m : Mach) (a : Nat) : (m.incPhReg a).out = m.out := rfl
@[simp] theorem Mach.lane_incPhReg (m : Mach) (a : Nat) (l : LaneId) : (m.incPhReg a).lane l = m.lane l := by cases l <;> rfl
@[simp] theorem Mach.putSc_sys (m : Mach) (f : Field) (v : Nat) : (m.putSc f v).sys = m.sys := rfl
@[simp] theorem Mach.putSc_ph (m : Mach) (f : Field) (v : Nat) : (m.putSc f v).ph = m.ph := rfl
@[simp] theorem Mach.putSc_sc (m : Mach) (f : Field) (v : Nat) : (m.putSc f v).sc = { m.sc with regs := m.sc.regs.put f v } := rfl
@[simp] theorem Mach.putSc_fed (m : Mach) (f : Field) (v : Nat) : (m.putSc f v).fed = m.fed := rfl
@[simp] theorem Mach.putSc_dio (m : Mach) (f : Field) (v : Nat) : (m.putSc f v).dio = m.dio := rfl
@[simp] theorem Mach.putSc_clk (m : Mach) (f : Field) (v : Nat) : (m.putSc f v).clk = m.clk := rfl
@[simp] theorem Mach.putSc_msi (m : Mach) (f : Field) (v : Nat) : (m.putSc f v).msi = m.msi := rfl
@[simp] theorem Mach.putSc_nextSeq (m : Mach) (f : Field) (v : Nat) : (m.putSc f v).nextSeq = m.nextSeq := rfl
@[simp] theorem Mach.putSc_lastSeq (m : Mach) (f : Field) (v : Nat) : (m.putSc f v).lastSeq = m.lastSeq := rfl
@[simp] theorem Mach.putSc_out (m : Mach) (f : Field) (v : Nat) : (m.putSc f v).out = m.out := rfl
@[simp] theorem Mach.lane_putSc (m : Mach) (f : Field) (v : Nat) (l : LaneId) : (m.putSc f v).lane l = m.lane l := by cases l <;> rfl
@[simp] theorem Mach.incSc_sys (m : Mach) (f : Field) : (m.incSc f).sys = m.sys := rfl
@[simp] theorem Mach.incSc_ph (m : Mach) (f : Field) : (m.incSc f).ph = m.ph := rfl
@[simp] theorem Mach.incSc_fed (m : Mach) (f : Field) : (m.incSc f).fed = m.fed := rfl
@[simp] theorem Mach.incSc_dio (m : Mach) (f : Field) : (m.incSc f).dio = m.dio := rfl
@[simp] theorem Mach.incSc_clk (m : Mach) (f : Field) : (m.incSc f).clk = m.clk := rfl
@[simp] theorem Mach.incSc_msi (m : Mach) (f : Field) : (m.incSc f).msi = m.msi := rfl
@[simp] theorem Mach.incSc_nextSeq (m : Mach) (f : Field) : (m.incSc f).nextSeq = m.nextSeq := rfl
@[simp] theorem Mach.incSc_lastSeq (m : Mach) (f : Field) : (m.incSc f).lastSeq = m.lastSeq := rfl
@[simp] theorem Mach.incSc_out (m : Mach) (f : Field) : (m.incSc f).out = m.out := rfl
@[simp] theorem Mach.lane_incSc (m : Mach) (f : Field) (l : LaneId) : (m.incSc f).lane l = m.lane l := by cases l <;> rfl
@[simp] theorem Mach.incScReg_sys (m : Mach) (a : Nat) : (m.incScReg a).sys = m.sys := rfl
@[simp] theorem Mach.incScReg_ph (m : Mach) (a : Nat) : (m.incScReg a).ph = m.ph := rfl
@[simp] theorem Mach.incScReg_fed (m : Mach) (a : Nat) : (m.incScReg a).fed = m.fed := rfl
@[simp] theorem Mach.incScReg_dio (m : Mach) (a : Nat) : (m.incScReg a).dio = m.dio := rfl
@[simp] theorem Mach.incScReg_clk (m : Mach) (a : Nat) : (m.incScReg a).clk = m.clk := rfl
@[simp] theorem Mach.incScReg_msi (m : Mach) (a : Nat) : (m.incScReg a).msi = m.msi := rfl
@[simp] theorem Mach.incScReg_nextSeq (m : Mach) (a : Nat) : (m.incScReg a).nextSeq = m.nextSeq := rfl
@[simp] theorem Mach.incScReg_lastSeq (m : Mach) (a : Nat) : (m.incScReg a).lastSeq = m.lastSeq := rfl
@[simp] theorem Mach.incScReg_out (m : Mach) (a : Nat) : (m.incScReg a).out = m.out := rfl
@[simp] theorem Mach.lane_incScReg (m : Mach) (a : Nat) (l : LaneId) : (m.incScReg a).lane l = m.lane l := by cases l <;> rfl
@[simp] theorem Mach.updSys_sys (m : Mach) (f : Sys → Sys) : (m.updSys f).sys = f m.sys := rfl
@[simp] theorem Mach.updSys_ph (m : Mach) (f : Sys → Sys) : (m.updSys f).ph = m.ph := rfl
@[simp] theorem Mach.updSys_sc (m : Mach) (f : Sys → Sys) : (m.updSys f).sc = m.sc := rfl
@[simp] theorem Mach.updSys_fed (m : Mach) (f : Sys → Sys) : (m.updSys f).fed = m.fed := rfl
@[simp] theorem Mach.updSys_dio (m : Mach) (f : Sys → Sys) : (m.updSys f).dio = m.dio := rfl
@[simp] theorem Mach.updSys_clk (m : Mach) (f : Sys → Sys) : (m.updSys f).clk = m.clk := rfl
@[simp] theorem Mach.updSys_msi (m : Mach) (f : Sys → Sys) : (m.updSys f).msi = m.msi := rfl
@[simp] theorem Mach.updSys_nextSeq (m : Mach) (f : Sys → Sys) : (m.updSys f).nextSeq = m.nextSeq := rfl
@[simp] theorem Mach.updSys_lastSeq (m : Mach) (f : Sys → Sys) : (m.updSys f).lastSeq = m.lastSeq := rfl
@[simp] theorem Mach.updSys_out (m : Mach) (f : Sys → Sys) : (m.updSys f).out = m.out := rfl
@[simp] theorem Mach.lane_updSys (m : Mach) (f : Sys → Sys) (l : LaneId) : (m.updSys f).lane l = m.lane l := by cases l <;> rfl
@[simp] theorem Mach.emit_sys (m : Mach) (o : Output) : (m.emit o).sys = m.sys := rfl
@[simp] theorem Mach.emit_ph (m : Mach) (o : Output) : (m.emit o).ph = m.ph := rfl
@[simp] theorem Mach.emit_sc (m : Mach) (o : Output) : (m.emit o).sc = m.sc := rfl
@[simp] theorem Mach.emit_fed (m : Mach) (o : Output) : (m.emit o).fed = m.fed := rfl
@[simp] theorem Mach.emit_dio (m : Mach) (o : Output) : (m.emit o).dio = m.dio := rfl
@[simp] theorem Mach.emit_clk (m : Mach) (o : Output) : (m.emit o).clk = m.clk := rfl
@[simp] theorem Mach.emit_msi (m : Mach) (o : Output) : (m.emit o).msi = m.msi := rfl
@[simp] theorem Mach.emit_nextSeq (m : Mach) (o : Output) : (m.emit o).nextSeq = m.nextSeq := rfl
@[simp] theorem Mach.emit_lastSeq (m : Mach) (o : Output) : (m.emit o).lastSeq = m.lastSeq := rfl
@[simp] theorem Mach.emit_out (m : Mach) (o : Output) : (m.emit o).out = o :: m.out := rfl
@[simp] theorem Mach.lane_emit (m : Mach) (o : Output) (l : LaneId) : (m.emit o).lane l = m.lane l := by cases l <;> rfl
@[simp] theorem Mach.setLane_sys (m : Mach) (l : LaneId) (x : Lane) : (m.setLane l x).sys = m.sys := by cases l <;> rfl
@[simp] theorem Mach.setLane_ph (m : Mach) (l : LaneId) (x : Lane) : (m.setLane l x).ph = m.ph := by cases l <;> rfl
@[simp] theorem Mach.setLane_sc (m : Mach) (l : LaneId) (x : Lane) : (m.setLane l x).sc = m.sc := by cases l <;> rfl
@[simp] theorem Mach.setLane_fed (m : Mach) (l : LaneId) (x : Lane) : (m.setLane l x).fed = m.fed := by cases l <;> rfl
@[simp] theorem Mach.setLane_dio (m : Mach) (l : LaneId) (x : Lane) : (m.setLane l x).dio = m.dio := by cases l <;> rfl
@[simp] theorem Mach.setLane_clk (m : Mach) (l : LaneId) (x : Lane) : (m.setLane l x).clk = m.clk := by cases l <;> rfl
@[simp] theorem Mach.setLane_msi (m : Mach) (l : LaneId) (x : Lane) : (m.setLane l x).msi = m.msi := by cases l <;> rfl
@[simp] theorem Mach.setLane_nextSeq (m : Mach) (l : LaneId) (x : Lane) : (m.setLane l x).nextSeq = m.nextSeq := by cases l <;> rfl
@[simp] theorem Mach.setLane_lastSeq (m : Mach) (l : LaneId) (x : Lane) : (m.setLane l x).lastSeq = m.lastSeq := by cases l <;> rfl
@[simp] theorem Mach.setLane_out (m : Mach) (l : LaneId) (x : Lane) : (m.setLane l x).out = m.out := by cases l <;> rfl
@[simp] theorem Mach.updLane_sys (m : Mach) (l : LaneId) (f : Lane → Lane) : (m.updLane l f).sys = m.sys := by simp -implicitDefEqProofs [Mach.updLane]
@[simp] theorem Mach.updLane_ph (m : Mach) (l : LaneId) (f : Lane → Lane) : (m.updLane l f).ph = m.ph := by simp -implicitDefEqProofs [Mach.updLane]
@[simp] theorem Mach.updLane_sc (m : Mach) (l : LaneId) (f : Lane → Lane) : (m.updLane l f).sc = m.sc := by simp -implicitDefEqProofs [Mach.updLane]
@[simp] theorem Mach.updLane_fed (m : Mach) (l : LaneId) (f : Lane → Lane) : (m.updLane l f).fed = m.fed := by simp -implicitDefEqProofs [Mach.updLane]
@[simp] theorem Mach.updLane_dio (m : Mach) (l : LaneId) (f : Lane → Lane) : (m.updLane l f).dio = m.dio := by simp -implicitDefEqProofs [Mach.updLane]
@[simp] theorem Mach.updLane_clk (m : Mach) (l : LaneId) (f : Lane → Lane) : (m.updLane l f).clk = m.clk := by simp -implicitDefEqProofs [Mach.updLane]
@[simp] theorem Mach.updLane_msi (m : Mach) (l : LaneId) (f : Lane → Lane) : (m.updLane l f).msi = m.msi := by simp -implicitDefEqProofs [Mach.updLane]
@[simp] theorem Mach.updLane_nextSeq (m : Mach) (l : LaneId) (f : Lane → Lane) : (m.updLane l f).nextSeq = m.nextSeq := by simp -implicitDefEqProofs [Mach.updLane]
@[simp] theorem Mach.updLane_lastSeq (m : Mach) (l : LaneId) (f : Lane → Lane) : (m.updLane l f).lastSeq = m.lastSeq := by simp -implicitDefEqProofs [Mach.updLane]
@[simp] theorem Mach.updLane_out (m : Mach) (l : LaneId) (f : Lane → Lane) : (m.updLane l f).out = m.out := by simp -implicitDefEqProofs [Mach.updLane]
@[simp] theorem Mach.mapIf_sys (m : Mach) (p : Lane → Bool) (f : Lane → Lane) : (m.mapIf p f).sys = m.sys := by simp -implicitDefEqProofs [Mach.mapIf]
@[simp] theorem Mach.mapIf_ph (m : Mach) (p : Lane → Bool) (f : Lane → Lane) : (m.mapIf p f).ph = m.ph := by simp -implicitDefEqProofs [Mach.mapIf]
@[simp] theorem Mach.mapIf_sc (m : Mach) (p : Lane → Bool) (f : Lane → Lane) : (m.mapIf p f).sc = m.sc := by simp -implicitDefEqProofs [Mach.mapIf]
@[simp] theorem Mach.mapIf_fed (m : Mach) (p : Lane → Bool) (f : Lane → Lane) : (m.mapIf p f).fed = m.fed := by simp -implicitDefEqProofs [Mach.mapIf]
@[simp] theorem Mach.mapIf_dio (m : Mach) (p : Lane → Bool) (f : Lane → Lane) : (m.mapIf p f).dio = m.dio := by simp -implicitDefEqProofs [Mach.mapIf]
@[simp] theorem Mach.mapIf_clk (m : Mach) (p : Lane → Bool) (f : Lane → Lane) : (m.mapIf p f).clk = m.clk := by simp -implicitDefEqProofs [Mach.mapIf]
@[simp] theorem Mach.mapIf_msi (m : Mach) (p : Lane → Bool) (f : Lane → Lane) : (m.mapIf p f).msi = m.msi := by simp -implicitDefEqProofs [Mach.mapIf]
@[simp] theorem Mach.mapIf_nextSeq (m : Mach) (p : Lane → Bool) (f : Lane → Lane) : (m.mapIf p f).nextSeq = m.nextSeq := by simp -implicitDefEqProofs [Mach.mapIf]
@[simp] theorem Mach.mapIf_lastSeq (m : Mach) (p : Lane → Bool) (f : Lane → Lane) : (m.mapIf p f).lastSeq = m.lastSeq := by simp -implicitDefEqProofs [Mach.mapIf]
@[simp] theorem Mach.mapIf_out (m : Mach) (p : Lane → Bool) (f : Lane → Lane) : (m.mapIf p f).out = m.out := by simp -implicitDefEqProofs [Mach.mapIf]
@[simp] theorem Mach.record_sys (m : Mach) (code p0 p1 p2 p3 : Nat) : (m.record code p0 p1 p2 p3).sys = m.sys := by simp -implicitDefEqProofs [Mach.record]
@[simp] theorem Mach.record_ph (m : Mach) (code p0 p1 p2 p3 : Nat) : (m.record code p0 p1 p2 p3).ph = m.ph := by simp -implicitDefEqProofs [Mach.record]
@[simp] theorem Mach.record_sc (m : Mach) (code p0 p1 p2 p3 : Nat) : (m.record code p0 p1 p2 p3).sc = m.sc := by simp -implicitDefEqProofs [Mach.record]
@[simp] theorem Mach.record_fed (m : Mach) (code p0 p1 p2 p3 : Nat) : (m.record code p0 p1 p2 p3).fed = m.fed := by simp -implicitDefEqProofs [Mach.record]
@[simp] theorem Mach.record_dio (m : Mach) (code p0 p1 p2 p3 : Nat) : (m.record code p0 p1 p2 p3).dio = m.dio := by simp -implicitDefEqProofs [Mach.record]
@[simp] theorem Mach.record_clk (m : Mach) (code p0 p1 p2 p3 : Nat) : (m.record code p0 p1 p2 p3).clk = m.clk := by simp -implicitDefEqProofs [Mach.record]
@[simp] theorem Mach.record_msi (m : Mach) (code p0 p1 p2 p3 : Nat) : (m.record code p0 p1 p2 p3).msi = m.msi := by simp -implicitDefEqProofs [Mach.record]
@[simp] theorem Mach.record_nextSeq (m : Mach) (code p0 p1 p2 p3 : Nat) : (m.record code p0 p1 p2 p3).nextSeq = m.nextSeq := by simp -implicitDefEqProofs [Mach.record]
@[simp] theorem Mach.record_lastSeq (m : Mach) (code p0 p1 p2 p3 : Nat) : (m.record code p0 p1 p2 p3).lastSeq = m.lastSeq := by simp -implicitDefEqProofs [Mach.record]
@[simp] theorem Mach.record_out (m : Mach) (code p0 p1 p2 p3 : Nat) : (m.record code p0 p1 p2 p3).out = m.out := by simp -implicitDefEqProofs [Mach.record]
@[simp] theorem Mach.recordLane_sys (m : Mach) (l : LaneId) (code p0 p1 p2 p3 : Nat) : (m.recordLane l code p0 p1 p2 p3).sys = m.sys := by simp -implicitDefEqProofs [Mach.recordLane]
@[simp] theorem Mach.recordLane_ph (m : Mach) (l : LaneId) (code p0 p1 p2 p3 : Nat) : (m.recordLane l code p0 p1 p2 p3).ph = m.ph := by simp -implicitDefEqProofs [Mach.recordLane]
@[simp] theorem Mach.recordLane_sc (m : Mach) (l : LaneId) (code p0 p1 p2 p3 : Nat) : (m.recordLane l code p0 p1 p2 p3).sc = m.sc := by simp -implicitDefEqProofs [Mach.recordLane]
@[simp] theorem Mach.recordLane_fed (m : Mach) (l : LaneId) (code p0 p1 p2 p3 : Nat) : (m.recordLane l code p0 p1 p2 p3).fed = m.fed := by simp -implicitDefEqProofs [Mach.recordLane]
@[simp] theorem Mach.recordLane_dio (m : Mach) (l : LaneId) (code p0 p1 p2 p3 : Nat) : (m.recordLane l code p0 p1 p2 p3).dio = m.dio := by simp -implicitDefEqProofs [Mach.recordLane]
@[simp] theorem Mach.recordLane_clk (m : Mach) (l : LaneId) (code p0 p1 p2 p3 : Nat) : (m.recordLane l code p0 p1 p2 p3).clk = m.clk := by simp -implicitDefEqProofs [Mach.recordLane]
@[simp] theorem Mach.recordLane_msi (m : Mach) (l : LaneId) (code p0 p1 p2 p3 : Nat) : (m.recordLane l code p0 p1 p2 p3).msi = m.msi := by simp -implicitDefEqProofs [Mach.recordLane]
@[simp] theorem Mach.recordLane_nextSeq (m : Mach) (l : LaneId) (code p0 p1 p2 p3 : Nat) : (m.recordLane l code p0 p1 p2 p3).nextSeq = m.nextSeq := by simp -implicitDefEqProofs [Mach.recordLane]
@[simp] theorem Mach.recordLane_lastSeq (m : Mach) (l : LaneId) (code p0 p1 p2 p3 : Nat) : (m.recordLane l code p0 p1 p2 p3).lastSeq = m.lastSeq := by simp -implicitDefEqProofs [Mach.recordLane]
@[simp] theorem Mach.recordLane_out (m : Mach) (l : LaneId) (code p0 p1 p2 p3 : Nat) : (m.recordLane l code p0 p1 p2 p3).out = m.out := by simp -implicitDefEqProofs [Mach.recordLane]
@[simp] theorem Mach.startFlush_sys (m : Mach) : (m.startFlush).sys = m.sys := rfl
@[simp] theorem Mach.startFlush_ph (m : Mach) : (m.startFlush).ph = m.ph := rfl
@[simp] theorem Mach.startFlush_sc (m : Mach) : m.startFlush.sc =
    { m.sc with flushing := true, regs := m.sc.regs.put F.EVR_STATUS_FLUSHING 1 } := rfl
@[simp] theorem Mach.startFlush_fed (m : Mach) : (m.startFlush).fed = m.fed := rfl
@[simp] theorem Mach.startFlush_dio (m : Mach) : (m.startFlush).dio = m.dio := rfl
@[simp] theorem Mach.startFlush_clk (m : Mach) : (m.startFlush).clk = m.clk := rfl
@[simp] theorem Mach.startFlush_msi (m : Mach) : (m.startFlush).msi = m.msi := rfl
@[simp] theorem Mach.startFlush_nextSeq (m : Mach) : (m.startFlush).nextSeq = m.nextSeq := rfl
@[simp] theorem Mach.startFlush_lastSeq (m : Mach) : (m.startFlush).lastSeq = m.lastSeq := rfl
@[simp] theorem Mach.startFlush_out (m : Mach) : (m.startFlush).out = m.out := rfl
@[simp] theorem Mach.lane_startFlush (m : Mach) (l : LaneId) : (m.startFlush).lane l = m.lane l := by cases l <;> rfl
@[simp] theorem Mach.closeLocks_sys (m : Mach) : (m.closeLocks).sys = m.sys := by simp -implicitDefEqProofs [Mach.closeLocks]
@[simp] theorem Mach.closeLocks_sc (m : Mach) : (m.closeLocks).sc = m.sc := by simp -implicitDefEqProofs [Mach.closeLocks]
@[simp] theorem Mach.closeLocks_fed (m : Mach) : (m.closeLocks).fed = m.fed := by simp -implicitDefEqProofs [Mach.closeLocks]
@[simp] theorem Mach.closeLocks_dio (m : Mach) : (m.closeLocks).dio = m.dio := by simp -implicitDefEqProofs [Mach.closeLocks]
@[simp] theorem Mach.closeLocks_clk (m : Mach) : (m.closeLocks).clk = m.clk := by simp -implicitDefEqProofs [Mach.closeLocks]
@[simp] theorem Mach.closeLocks_msi (m : Mach) : (m.closeLocks).msi = m.msi := by simp -implicitDefEqProofs [Mach.closeLocks]
@[simp] theorem Mach.closeLocks_nextSeq (m : Mach) : (m.closeLocks).nextSeq = m.nextSeq := by simp -implicitDefEqProofs [Mach.closeLocks]
@[simp] theorem Mach.closeLocks_lastSeq (m : Mach) : (m.closeLocks).lastSeq = m.lastSeq := by simp -implicitDefEqProofs [Mach.closeLocks]
@[simp] theorem Mach.closeLocks_out (m : Mach) : (m.closeLocks).out = m.out := by simp -implicitDefEqProofs [Mach.closeLocks]
@[simp] theorem Mach.refreshServing_sys (m : Mach) : (m.refreshServing).sys = m.sys := by simp -implicitDefEqProofs [Mach.refreshServing]
@[simp] theorem Mach.refreshServing_ph (m : Mach) : (m.refreshServing).ph = m.ph := by simp -implicitDefEqProofs [Mach.refreshServing]
@[simp] theorem Mach.refreshServing_sc (m : Mach) : (m.refreshServing).sc = m.sc := by simp -implicitDefEqProofs [Mach.refreshServing]
@[simp] theorem Mach.refreshServing_fed (m : Mach) : (m.refreshServing).fed = m.fed := by simp -implicitDefEqProofs [Mach.refreshServing]
@[simp] theorem Mach.refreshServing_dio (m : Mach) : (m.refreshServing).dio = m.dio := by simp -implicitDefEqProofs [Mach.refreshServing]
@[simp] theorem Mach.refreshServing_clk (m : Mach) : (m.refreshServing).clk = m.clk := by simp -implicitDefEqProofs [Mach.refreshServing]
@[simp] theorem Mach.refreshServing_msi (m : Mach) : (m.refreshServing).msi = m.msi := by simp -implicitDefEqProofs [Mach.refreshServing]
@[simp] theorem Mach.refreshServing_nextSeq (m : Mach) : (m.refreshServing).nextSeq = m.nextSeq := by simp -implicitDefEqProofs [Mach.refreshServing]
@[simp] theorem Mach.refreshServing_lastSeq (m : Mach) : (m.refreshServing).lastSeq = m.lastSeq := by simp -implicitDefEqProofs [Mach.refreshServing]
@[simp] theorem Mach.refreshServing_out (m : Mach) : (m.refreshServing).out = m.out := by simp -implicitDefEqProofs [Mach.refreshServing]
@[simp] theorem Mach.lane_putAll (m : Mach) (f : Field) (v : Nat) (l : LaneId) :
    (m.putAll f v).lane l = { m.lane l with regs := (m.lane l).regs.put f v } := by cases l <;> rfl
@[simp] theorem Mach.lane_incAll (m : Mach) (f : Field) (l : LaneId) :
    (m.incAll f).lane l = { m.lane l with regs := (m.lane l).regs.inc f } := by cases l <;> rfl
@[simp] theorem Mach.lane_setAllReg (m : Mach) (a : Nat) (v : W32) (l : LaneId) :
    (m.setAllReg a v).lane l = { m.lane l with regs := (m.lane l).regs.set a v } := by cases l <;> rfl
@[simp] theorem Mach.lane_incAllReg (m : Mach) (a : Nat) (l : LaneId) :
    (m.incAllReg a).lane l = { m.lane l with regs := (m.lane l).regs.incReg a } := by cases l <;> rfl
@[simp] theorem Mach.lane_closeLocks (m : Mach) (l : LaneId) :
    m.closeLocks.lane l = { m.lane l with regs := (m.lane l).regs.closeLocks laneBlks } := by cases l <;> rfl
@[simp] theorem Mach.lane_record (m : Mach) (code p0 p1 p2 p3 : Nat) (l : LaneId) :
    (m.record code p0 p1 p2 p3).lane l =
      if (m.lane l).role != .excluded then (m.lane l).addEvent ⟨code, m.nowNs, p0, p1, p2, p3, false, false⟩ else m.lane l := by
  cases l <;> rfl

/-! ### Vectors and interrupts -/

@[simp] theorem Mach.sendVector_sys (m : Mach) (v : Nat) : (m.sendVector v).sys = m.sys := by unfold Mach.sendVector; split <;> rfl
@[simp] theorem Mach.sendVector_ph (m : Mach) (v : Nat) : (m.sendVector v).ph = m.ph := by unfold Mach.sendVector; split <;> rfl
@[simp] theorem Mach.sendVector_sc (m : Mach) (v : Nat) : (m.sendVector v).sc = m.sc := by unfold Mach.sendVector; split <;> rfl
@[simp] theorem Mach.sendVector_fed (m : Mach) (v : Nat) : (m.sendVector v).fed = m.fed := by unfold Mach.sendVector; split <;> rfl
@[simp] theorem Mach.sendVector_dio (m : Mach) (v : Nat) : (m.sendVector v).dio = m.dio := by unfold Mach.sendVector; split <;> rfl
@[simp] theorem Mach.sendVector_clk (m : Mach) (v : Nat) : (m.sendVector v).clk = m.clk := by unfold Mach.sendVector; split <;> rfl
@[simp] theorem Mach.sendVector_nextSeq (m : Mach) (v : Nat) : (m.sendVector v).nextSeq = m.nextSeq := by unfold Mach.sendVector; split <;> rfl
@[simp] theorem Mach.sendVector_lastSeq (m : Mach) (v : Nat) : (m.sendVector v).lastSeq = m.lastSeq := by unfold Mach.sendVector; split <;> rfl
@[simp] theorem Mach.lane_sendVector (m : Mach) (v : Nat) (l : LaneId) : (m.sendVector v).lane l = m.lane l := by
  unfold Mach.sendVector; split <;> cases l <;> rfl
@[simp] theorem Mach.vectorIf_sys (m m' : Mach) (b : Blk) : (m.vectorIf m' b).sys = m'.sys := by
  unfold Mach.vectorIf; (repeat' split) <;> simp
@[simp] theorem Mach.vectorIf_ph (m m' : Mach) (b : Blk) : (m.vectorIf m' b).ph = m'.ph := by
  unfold Mach.vectorIf; (repeat' split) <;> simp
@[simp] theorem Mach.vectorIf_sc (m m' : Mach) (b : Blk) : (m.vectorIf m' b).sc = m'.sc := by
  unfold Mach.vectorIf; (repeat' split) <;> simp
@[simp] theorem Mach.vectorIf_fed (m m' : Mach) (b : Blk) : (m.vectorIf m' b).fed = m'.fed := by
  unfold Mach.vectorIf; (repeat' split) <;> simp
@[simp] theorem Mach.vectorIf_dio (m m' : Mach) (b : Blk) : (m.vectorIf m' b).dio = m'.dio := by
  unfold Mach.vectorIf; (repeat' split) <;> simp
@[simp] theorem Mach.vectorIf_clk (m m' : Mach) (b : Blk) : (m.vectorIf m' b).clk = m'.clk := by
  unfold Mach.vectorIf; (repeat' split) <;> simp
@[simp] theorem Mach.vectorIf_nextSeq (m m' : Mach) (b : Blk) : (m.vectorIf m' b).nextSeq = m'.nextSeq := by
  unfold Mach.vectorIf; (repeat' split) <;> simp
@[simp] theorem Mach.vectorIf_lastSeq (m m' : Mach) (b : Blk) : (m.vectorIf m' b).lastSeq = m'.lastSeq := by
  unfold Mach.vectorIf; (repeat' split) <;> simp
@[simp] theorem Mach.lane_vectorIf (m m' : Mach) (b : Blk) (l : LaneId) : (m.vectorIf m' b).lane l = m'.lane l := by
  unfold Mach.vectorIf; (repeat' split) <;> simp
@[simp] theorem Mach.dmaVectorIf_sys (m m' : Mach) (l : LaneId) : (m.dmaVectorIf m' l).sys = m'.sys := by
  unfold Mach.dmaVectorIf; (repeat' split) <;> simp
@[simp] theorem Mach.dmaVectorIf_ph (m m' : Mach) (l : LaneId) : (m.dmaVectorIf m' l).ph = m'.ph := by
  unfold Mach.dmaVectorIf; (repeat' split) <;> simp
@[simp] theorem Mach.dmaVectorIf_sc (m m' : Mach) (l : LaneId) : (m.dmaVectorIf m' l).sc = m'.sc := by
  unfold Mach.dmaVectorIf; (repeat' split) <;> simp
@[simp] theorem Mach.dmaVectorIf_fed (m m' : Mach) (l : LaneId) : (m.dmaVectorIf m' l).fed = m'.fed := by
  unfold Mach.dmaVectorIf; (repeat' split) <;> simp
@[simp] theorem Mach.dmaVectorIf_dio (m m' : Mach) (l : LaneId) : (m.dmaVectorIf m' l).dio = m'.dio := by
  unfold Mach.dmaVectorIf; (repeat' split) <;> simp
@[simp] theorem Mach.dmaVectorIf_clk (m m' : Mach) (l : LaneId) : (m.dmaVectorIf m' l).clk = m'.clk := by
  unfold Mach.dmaVectorIf; (repeat' split) <;> simp
@[simp] theorem Mach.dmaVectorIf_nextSeq (m m' : Mach) (l : LaneId) : (m.dmaVectorIf m' l).nextSeq = m'.nextSeq := by
  unfold Mach.dmaVectorIf; (repeat' split) <;> simp
@[simp] theorem Mach.dmaVectorIf_lastSeq (m m' : Mach) (l : LaneId) : (m.dmaVectorIf m' l).lastSeq = m'.lastSeq := by
  unfold Mach.dmaVectorIf; (repeat' split) <;> simp
@[simp] theorem Mach.lane_dmaVectorIf (m m' : Mach) (l : LaneId) (k : LaneId) : (m.dmaVectorIf m' l).lane k = m'.lane k := by
  unfold Mach.dmaVectorIf; (repeat' split) <;> simp
@[simp] theorem Mach.raiseAll_sys (m : Mach) (b : Blk) (i : Nat) : (m.raiseAll b i).sys = m.sys := by simp [Mach.raiseAll]
@[simp] theorem Mach.raiseLane_sys (m : Mach) (l : LaneId) (b : Blk) (i : Nat) : (m.raiseLane l b i).sys = m.sys := by
  simp only [Mach.raiseLane]; split <;> simp
@[simp] theorem Mach.raisePh_sys (m : Mach) (b : Blk) (i : Nat) : (m.raisePh b i).sys = m.sys := by simp [Mach.raisePh]
@[simp] theorem Mach.raiseSc_sys (m : Mach) (b : Blk) (i : Nat) : (m.raiseSc b i).sys = m.sys := by simp [Mach.raiseSc]
@[simp] theorem Mach.raiseAll_ph (m : Mach) (b : Blk) (i : Nat) : (m.raiseAll b i).ph = m.ph := by simp [Mach.raiseAll]
@[simp] theorem Mach.raiseLane_ph (m : Mach) (l : LaneId) (b : Blk) (i : Nat) : (m.raiseLane l b i).ph = m.ph := by
  simp only [Mach.raiseLane]; split <;> simp
@[simp] theorem Mach.raiseSc_ph (m : Mach) (b : Blk) (i : Nat) : (m.raiseSc b i).ph = m.ph := by simp [Mach.raiseSc]
@[simp] theorem Mach.raiseAll_sc (m : Mach) (b : Blk) (i : Nat) : (m.raiseAll b i).sc = m.sc := by simp [Mach.raiseAll]
@[simp] theorem Mach.raiseLane_sc (m : Mach) (l : LaneId) (b : Blk) (i : Nat) : (m.raiseLane l b i).sc = m.sc := by
  simp only [Mach.raiseLane]; split <;> simp
@[simp] theorem Mach.raisePh_sc (m : Mach) (b : Blk) (i : Nat) : (m.raisePh b i).sc = m.sc := by simp [Mach.raisePh]
@[simp] theorem Mach.raiseAll_fed (m : Mach) (b : Blk) (i : Nat) : (m.raiseAll b i).fed = m.fed := by simp [Mach.raiseAll]
@[simp] theorem Mach.raiseLane_fed (m : Mach) (l : LaneId) (b : Blk) (i : Nat) : (m.raiseLane l b i).fed = m.fed := by
  simp only [Mach.raiseLane]; split <;> simp
@[simp] theorem Mach.raisePh_fed (m : Mach) (b : Blk) (i : Nat) : (m.raisePh b i).fed = m.fed := by simp [Mach.raisePh]
@[simp] theorem Mach.raiseSc_fed (m : Mach) (b : Blk) (i : Nat) : (m.raiseSc b i).fed = m.fed := by simp [Mach.raiseSc]
@[simp] theorem Mach.raiseAll_dio (m : Mach) (b : Blk) (i : Nat) : (m.raiseAll b i).dio = m.dio := by simp [Mach.raiseAll]
@[simp] theorem Mach.raiseAll_clk (m : Mach) (b : Blk) (i : Nat) : (m.raiseAll b i).clk = m.clk := by simp [Mach.raiseAll]
@[simp] theorem Mach.raiseLane_dio (m : Mach) (l : LaneId) (b : Blk) (i : Nat) : (m.raiseLane l b i).dio = m.dio := by
  simp only [Mach.raiseLane]; split <;> simp
@[simp] theorem Mach.raiseLane_clk (m : Mach) (l : LaneId) (b : Blk) (i : Nat) : (m.raiseLane l b i).clk = m.clk := by
  simp only [Mach.raiseLane]; split <;> simp
@[simp] theorem Mach.raisePh_dio (m : Mach) (b : Blk) (i : Nat) : (m.raisePh b i).dio = m.dio := by simp [Mach.raisePh]
@[simp] theorem Mach.raisePh_clk (m : Mach) (b : Blk) (i : Nat) : (m.raisePh b i).clk = m.clk := by simp [Mach.raisePh]
@[simp] theorem Mach.raiseSc_dio (m : Mach) (b : Blk) (i : Nat) : (m.raiseSc b i).dio = m.dio := by simp [Mach.raiseSc]
@[simp] theorem Mach.raiseSc_clk (m : Mach) (b : Blk) (i : Nat) : (m.raiseSc b i).clk = m.clk := by simp [Mach.raiseSc]
@[simp] theorem Mach.raiseAll_nextSeq (m : Mach) (b : Blk) (i : Nat) : (m.raiseAll b i).nextSeq = m.nextSeq := by simp [Mach.raiseAll]
@[simp] theorem Mach.raiseAll_lastSeq (m : Mach) (b : Blk) (i : Nat) : (m.raiseAll b i).lastSeq = m.lastSeq := by simp [Mach.raiseAll]
@[simp] theorem Mach.raiseLane_nextSeq (m : Mach) (l : LaneId) (b : Blk) (i : Nat) : (m.raiseLane l b i).nextSeq = m.nextSeq := by
  simp only [Mach.raiseLane]; split <;> simp
@[simp] theorem Mach.raiseLane_lastSeq (m : Mach) (l : LaneId) (b : Blk) (i : Nat) : (m.raiseLane l b i).lastSeq = m.lastSeq := by
  simp only [Mach.raiseLane]; split <;> simp
@[simp] theorem Mach.raisePh_nextSeq (m : Mach) (b : Blk) (i : Nat) : (m.raisePh b i).nextSeq = m.nextSeq := by simp [Mach.raisePh]
@[simp] theorem Mach.raisePh_lastSeq (m : Mach) (b : Blk) (i : Nat) : (m.raisePh b i).lastSeq = m.lastSeq := by simp [Mach.raisePh]
@[simp] theorem Mach.raiseSc_nextSeq (m : Mach) (b : Blk) (i : Nat) : (m.raiseSc b i).nextSeq = m.nextSeq := by simp [Mach.raiseSc]
@[simp] theorem Mach.raiseSc_lastSeq (m : Mach) (b : Blk) (i : Nat) : (m.raiseSc b i).lastSeq = m.lastSeq := by simp [Mach.raiseSc]
@[simp] theorem Mach.lane_raiseAll (m : Mach) (b : Blk) (i : Nat) (l : LaneId) :
    (m.raiseAll b i).lane l = { m.lane l with regs := (m.lane l).regs.setBit (blkBase b + 0x10) i true } := by simp [Mach.raiseAll]
@[simp] theorem Mach.lane_raiseLane_self (m : Mach) (l : LaneId) (b : Blk) (i : Nat) :
    (m.raiseLane l b i).lane l = { m.lane l with regs := (m.lane l).regs.setBit (blkBase b + 0x10) i true } := by
  simp only [Mach.raiseLane]; split <;> simp
theorem Mach.lane_raiseLane_ne (m : Mach) {l k : LaneId} (b : Blk) (i : Nat) (h : k ≠ l) : (m.raiseLane l b i).lane k = m.lane k := by
  simp only [Mach.raiseLane]; split <;> simp [Mach.lane_updLane_ne _ _ h]
@[simp] theorem Mach.raisePh_ph (m : Mach) (b : Blk) (i : Nat) :
    (m.raisePh b i).ph = { m.ph with regs := m.ph.regs.setBit (blkBase b + 0x10) i true } := by simp [Mach.raisePh]
@[simp] theorem Mach.raiseSc_sc (m : Mach) (b : Blk) (i : Nat) :
    (m.raiseSc b i).sc = { m.sc with regs := m.sc.regs.setBit (blkBase b + 0x10) i true } := by simp [Mach.raiseSc]
@[simp] theorem Mach.lane_raisePh (m : Mach) (b : Blk) (i : Nat) (l : LaneId) : (m.raisePh b i).lane l = m.lane l := by
  simp [Mach.raisePh]; cases l <;> rfl
@[simp] theorem Mach.lane_raiseSc (m : Mach) (b : Blk) (i : Nat) (l : LaneId) : (m.raiseSc b i).lane l = m.lane l := by
  simp [Mach.raiseSc]; cases l <;> rfl

/-! ### Settings on their way to flash (R429), and the age of what the partner last said (R282) -/

@[simp] theorem Mach.storeSettings_a (m : Mach) : m.storeSettings.a = m.a := rfl
@[simp] theorem Mach.storeSettings_b (m : Mach) : m.storeSettings.b = m.b := rfl
@[simp] theorem Mach.storeSettings_c (m : Mach) : m.storeSettings.c = m.c := rfl
@[simp] theorem Mach.storeSettings_sys (m : Mach) : m.storeSettings.sys = m.sys := rfl
@[simp] theorem Mach.storeSettings_ph (m : Mach) : m.storeSettings.ph = m.ph := rfl
@[simp] theorem Mach.storeSettings_fed (m : Mach) : m.storeSettings.fed = m.fed := rfl
@[simp] theorem Mach.storeSettings_dio (m : Mach) : m.storeSettings.dio = m.dio := rfl
@[simp] theorem Mach.storeSettings_clk (m : Mach) : m.storeSettings.clk = m.clk := rfl
@[simp] theorem Mach.storeSettings_msi (m : Mach) : m.storeSettings.msi = m.msi := rfl
@[simp] theorem Mach.storeSettings_nextSeq (m : Mach) : m.storeSettings.nextSeq = m.nextSeq := rfl
@[simp] theorem Mach.storeSettings_lastSeq (m : Mach) : m.storeSettings.lastSeq = m.lastSeq := rfl
@[simp] theorem Mach.storeSettings_out (m : Mach) : m.storeSettings.out = m.out := rfl
@[simp] theorem Mach.storeSettings_settings (m : Mach) : m.storeSettings.sc.settings = m.sc.settingsNow := rfl
@[simp] theorem Mach.storeSettings_unstored (m : Mach) : m.storeSettings.sc.unstored = [] := rfl
@[simp] theorem Mach.lane_storeSettings (m : Mach) (l : LaneId) : m.storeSettings.lane l = m.lane l := by cases l <;> rfl

/-- A changed setting touches what waits for its store, and nothing in flash. -/
theorem Mach.storeSetting_eq (m : Mach) (a : Nat) (v : W32) :
    m.storeSetting a v = { m with sc := { m.sc with unstored := (m.storeSetting a v).sc.unstored } } := by
  unfold Mach.storeSetting; split <;> rfl

@[simp] theorem Mach.storeSetting_settings (m : Mach) (a : Nat) (v : W32) : (m.storeSetting a v).sc.settings = m.sc.settings := by
  rw [Mach.storeSetting_eq]
@[simp] theorem Mach.storeSetting_sys (m : Mach) (a : Nat) (v : W32) : (m.storeSetting a v).sys = m.sys := by rw [Mach.storeSetting_eq]
@[simp] theorem Mach.lane_storeSetting (m : Mach) (a : Nat) (v : W32) (l : LaneId) : (m.storeSetting a v).lane l = m.lane l := by
  rw [Mach.storeSetting_eq]; cases l <;> rfl

/-- Nothing heard counts as two clusters old. -/
theorem Mach.healthAge_none (m : Mach) (h : m.fed.healthAt = none) : m.healthAge = 2 := by unfold Mach.healthAge; rw [h]

end Sys2Proof.Machine
end

