-- ==== Sys2Proof/Laws/Dma.lean ====
section
/-!
SUPPORT. Laws/Dma.lean: what a DMA unit holds beside its registers, kept bytes and pending stops, and what a change of it leaves alone.
-/
namespace Sys2Proof.Machine

@[simp] theorem Mach.dmaHeld_dmaHold (m : Mach) (u : DmaUnit) (f : DmaHold → DmaHold) : (m.dmaHold u f).dmaHeld u = f (m.dmaHeld u) := by
  cases u <;> simp [Mach.dmaHold, Mach.dmaHeld]
@[simp] theorem Mach.dmaHold_sys (m : Mach) (u : DmaUnit) (f : DmaHold → DmaHold) : (m.dmaHold u f).sys = m.sys := by
  cases u <;> simp [Mach.dmaHold]
@[simp] theorem Mach.dmaHold_ph (m : Mach) (u : DmaUnit) (f : DmaHold → DmaHold) : (m.dmaHold u f).ph = m.ph := by
  cases u <;> simp [Mach.dmaHold]
@[simp] theorem Mach.dmaHold_fed (m : Mach) (u : DmaUnit) (f : DmaHold → DmaHold) : (m.dmaHold u f).fed = m.fed := by
  cases u <;> simp [Mach.dmaHold]
@[simp] theorem Mach.dmaHold_dio (m : Mach) (u : DmaUnit) (f : DmaHold → DmaHold) : (m.dmaHold u f).dio = m.dio := by
  cases u <;> simp [Mach.dmaHold]
@[simp] theorem Mach.dmaHold_out (m : Mach) (u : DmaUnit) (f : DmaHold → DmaHold) : (m.dmaHold u f).out = m.out := by
  cases u <;> simp [Mach.dmaHold]

/-- What a unit holds stands in no register file. -/
@[simp] theorem Mach.dmaFile_dmaHold (m : Mach) (u : DmaUnit) (f : DmaHold → DmaHold) : (m.dmaHold u f).dmaFile u = m.dmaFile u := by
  cases u <;> simp [Mach.dmaHold, Mach.dmaFile]
@[simp] theorem Mach.dmaState_dmaHold (m : Mach) (u : DmaUnit) (f : DmaHold → DmaHold) (ch : Nat) :
    (m.dmaHold u f).dmaState u ch = m.dmaState u ch := by simp [Mach.dmaState, Mach.dmaFld]

/-- A channel keeps the bytes it is given. -/
@[simp] theorem Mach.dmaKept_dmaKeep (m : Mach) (u : DmaUnit) (ch : Nat) (l : List Byte) : (m.dmaKeep u ch l).dmaKept u ch = l := by
  simp [Mach.dmaKept, Mach.dmaKeep, Store.get_set_self]

end Sys2Proof.Machine
end

