-- ==== Sys2Proof/Laws/Ops.lean ====
section
/-!
SUPPORT. Laws/Ops.lean: what an event record, a transition of mode and the entry into SAFE_HALT do, said once.
-/
namespace Sys2Proof.Machine

/-! ### Frames compose -/

theorem Regs.Keeps.refl (r : Regs) (as : List Nat) : r.Keeps r as := fun _ _ => rfl

theorem Regs.Keeps.trans {r s t : Regs} {as : List Nat} (h : r.Keeps s as) (k : s.Keeps t as) : r.Keeps t as :=
  fun a ha => (k a ha).trans (h a ha)

theorem Regs.Keeps.mono {r s : Regs} {as bs : List Nat} (h : r.Keeps s as) (hs : as ⊆ bs) : r.Keeps s bs :=
  fun a ha => h a (fun hm => ha (hs hm))

theorem Regs.keeps_set {r s : Regs} {as : List Nat} (h : r.Keeps s as) {a : Nat} (v : W32) (ha : a ∈ as) : r.Keeps (s.set a v) as :=
  fun b hb => by
    have e : b ≠ a := fun e => hb (by rw [e]; exact ha)
    rw [Regs.get_set_ne s v e, h b hb]

theorem Regs.keeps_put {r s : Regs} {as : List Nat} (h : r.Keeps s as) {f : Field} (v : Nat) (ha : f.addr ∈ as) :
    r.Keeps (s.put f v) as := Regs.keeps_set h _ ha

theorem Regs.keeps_inc {r s : Regs} {as : List Nat} (h : r.Keeps s as) {f : Field} (ha : f.addr ∈ as) : r.Keeps (s.inc f) as :=
  Regs.keeps_set h _ ha

theorem Regs.keeps_setBit {r s : Regs} {as : List Nat} (h : r.Keeps s as) {a i : Nat} {b : Bool} (ha : a ∈ as) :
    r.Keeps (s.setBit a i b) as := Regs.keeps_set h _ ha

/-- A field of an unlisted register reads as before. -/
theorem Regs.Keeps.fld {r s : Regs} {as : List Nat} (h : r.Keeps s as) (f : Field) (ha : f.addr ∉ as) : s.fld f = r.fld f := by
  unfold Regs.fld; rw [h _ ha]

theorem Lane.Keeps.refl (x : Lane) (as : List Nat) : x.Keeps x as := ⟨rfl, Regs.Keeps.refl _ _⟩

theorem Lane.Keeps.trans {x y z : Lane} {as : List Nat} (h : x.Keeps y as) (k : y.Keeps z as) : x.Keeps z as := by
  refine ⟨?_, h.2.trans k.2⟩
  rw [k.1, h.1]

theorem Lane.Keeps.mono {x y : Lane} {as bs : List Nat} (h : x.Keeps y as) (hs : as ⊆ bs) : x.Keeps y bs := ⟨h.1, h.2.mono hs⟩

/-- A change of registers alone, all listed. -/
theorem Lane.keeps_regs {x : Lane} {r : Regs} {as : List Nat} (h : x.regs.Keeps r as) : x.Keeps { x with regs := r } as := ⟨rfl, h⟩

/-! ### Interrupt bits -/

theorem putBit_true_self (v i : Nat) : bitOf (putBit v i true) i = true := by
  have h := bitsOf_setBits v i i 1 (Nat.le_refl i)
  unfold bitsOf at h
  have e : i + 1 - i = 1 := by omega
  rw [e] at h
  unfold bitOf putBit b2n
  simpa using h

theorem putBit_true_keeps (v i j : Nat) (h : bitOf v j = true) : bitOf (putBit v i true) j = true := by
  rcases Nat.lt_trichotomy j i with hj | rfl | hj
  · have e := bitsOf_setBits_below v i i 1 j j (Nat.le_refl i) hj (Nat.le_refl j)
    have e1 : j + 1 - j = 1 := by omega
    unfold bitsOf at e; rw [e1, Nat.pow_one] at e
    unfold bitOf putBit b2n at *
    rw [if_pos rfl, e]; exact h
  · exact putBit_true_self v j
  · have e := bitsOf_setBits_above v i i 1 j j (Nat.le_refl i) hj
    have e1 : j + 1 - j = 1 := by omega
    unfold bitsOf at e; rw [e1, Nat.pow_one] at e
    unfold bitOf putBit b2n at *
    rw [if_pos rfl, e]; exact h

theorem putBit_lt (v i : Nat) (b : Bool) (h : v < 2 ^ 32) (hi : i < 32) : putBit v i b < 2 ^ 32 := setBits_lt h hi (Nat.le_refl i)

/-- A set bit reads one. -/
theorem Regs.bit_setBit_self (r : Regs) (a i : Nat) (hi : i < 32) : bitOf ((r.setBit a i true).get a).toNat i = true := by
  unfold Regs.setBit
  rw [Regs.get_set_self, BitVec.toNat_ofNat, Nat.mod_eq_of_lt (putBit_lt _ _ _ (Regs.get r a).isLt hi), putBit_true_self]

/-- Setting a bit clears no other. -/
theorem Regs.bit_setBit_keeps (r : Regs) (a b i j : Nat) (hi : i < 32) (h : bitOf (r.get b).toNat j = true) :
    bitOf ((r.setBit a i true).get b).toNat j = true := by
  unfold Regs.setBit
  by_cases e : b = a
  · subst e
    rw [Regs.get_set_self, BitVec.toNat_ofNat, Nat.mod_eq_of_lt (putBit_lt _ _ _ (Regs.get r b).isLt hi)]
    exact putBit_true_keeps _ _ _ h
  · rwa [Regs.get_set_ne r _ e]

/-! ### Event records -/

/-- Staging changes the event staging and the registers of the event logger, nothing else. -/
theorem Lane.keeps_stage (x : Lane) (e : Event) : x.Keeps (x.stage e) eventRegs := by
  unfold Lane.stage
  split
  · exact ⟨rfl, Regs.keeps_put (Regs.Keeps.refl _ _) _ (by decide)⟩
  · exact ⟨rfl, Regs.keeps_setBit (Regs.keeps_inc (Regs.Keeps.refl _ _) (by decide)) (by decide)⟩

/-- What was staged stays. -/
theorem Lane.events_stage (x : Lane) (e d : Event) (h : d ∈ x.events) : d ∈ (x.stage e).events := by
  unfold Lane.stage; split
  · simp [h]
  · exact h

/-- A record that is not lost stands in the staging. -/
theorem Lane.mem_stage (x : Lane) (e : Event) (h : (x.stage e).evLost = 0) :
    ({ e with delayed := !x.hostLink, fed := x.fedTime } : Event) ∈ (x.stage e).events := by
  unfold Lane.stage at h ⊢; split
  · simp
  · rename_i hs; simp [hs] at h

/-- A record changes the event staging and the registers of the event logger, nothing else. -/
theorem Lane.keeps_addEvent (x : Lane) (e : Event) : x.Keeps (x.addEvent e) eventRegs := by
  unfold Lane.addEvent Lane.addEventAt
  split
  · exact (show x.Keeps { x with evLost := 0 } eventRegs from ⟨rfl, Regs.Keeps.refl _ _⟩).trans
      ((Lane.keeps_stage _ _).trans (Lane.keeps_stage _ _))
  · exact Lane.keeps_stage _ _

/-- A record removes none. -/
theorem Lane.events_addEvent (x : Lane) (e d : Event) (h : d ∈ x.events) : d ∈ (x.addEvent e).events := by
  unfold Lane.addEvent Lane.addEventAt
  refine Lane.events_stage _ _ _ ?_
  split
  · exact Lane.events_stage _ _ _ h
  · exact h

/-- A record that is not lost stands in the staging, as the lane is after it. -/
theorem Lane.mem_addEvent (x : Lane) (e : Event) (h : (x.addEvent e).evLost = 0) :
    ∃ d ∈ (x.addEvent e).events, d.code = e.code ∧ d.p0 = e.p0 ∧ d.p1 = e.p1 ∧ d.p2 = e.p2 ∧ d.p3 = e.p3 :=
  ⟨_, Lane.mem_stage _ _ h, rfl, rfl, rfl, rfl, rfl⟩

/-- A record in every lane leaves every register but the event logger's. -/
theorem Mach.keeps_record (m : Mach) (code p0 p1 p2 p3 : Nat) (l : LaneId) :
    (m.lane l).Keeps ((m.record code p0 p1 p2 p3).lane l) eventRegs := by
  rw [Mach.lane_record]; split
  · exact Lane.keeps_addEvent _ _
  · exact Lane.Keeps.refl _ _

/-- What a record leaves in the staging. -/
theorem Mach.recorded_record (m : Mach) (code p0 p1 p2 p3 : Nat) : (m.record code p0 p1 p2 p3).Recorded code p0 p1 p2 := by
  intro l hr hl
  rw [Mach.lane_record] at hr hl ⊢
  by_cases h : (m.lane l).role != .excluded
  · simp only [h, if_true] at hr hl ⊢
    obtain ⟨d, hm, h0, h1, h2, h3, -⟩ := Lane.mem_addEvent _ _ hl
    exact ⟨d, hm, h0, h1, h2, h3⟩
  · simp only [h] at hr
    simp at h; exact absurd h hr

/-! ### Transitions -/

/-- Closing locks changes LOCK registers only. -/
theorem Regs.keeps_closeLocks (r : Regs) (bs : List Blk) : r.Keeps (r.closeLocks bs) (bs.map (fun b => blkBase b + 0x28)) := by
  unfold Regs.closeLocks
  have key : ∀ (cs : List Blk) (s : Regs) (as : List Nat), r.Keeps s as → (∀ b ∈ cs, blkBase b + 0x28 ∈ as) →
      r.Keeps (cs.foldl (fun r b => r.set (blkBase b + 0x28) 0) s) as := by
    intro cs
    induction cs with
    | nil => intro s as h _; exact h
    | cons c t ih => intro s as h hm; exact ih _ as (Regs.keeps_set h _ (hm c (by simp))) (fun b hb => hm b (by simp [hb]))
  exact key bs r _ (Regs.Keeps.refl _ _) (fun b hb => List.mem_map_of_mem hb)

/-- Registers that hold what a transition shows. -/
def entryRegs : List Nat := [0x4000000C, 0x40000048]

/-- The registers a transition shows itself in, as a lane holds them. -/
def Regs.Shows (r : Regs) (old k : Nat) : Prop :=
  r.fld F.SYS_STATUS_MODE = k % 16 ∧ r.fld F.SYS_STATUS_PREV_MODE = old % 16 ∧ r.fld F.SYS_MODE_HIST_TO = k % 16 ∧
  r.fld F.SYS_MODE_HIST_FROM = old % 16

theorem Regs.Shows.keeps {r s : Regs} {old k : Nat} {as : List Nat} (h : r.Shows old k) (hk : r.Keeps s as)
    (h1 : 0x4000000C ∉ as) (h2 : 0x40000048 ∉ as) : s.Shows old k := by
  obtain ⟨a, b, c, d⟩ := h
  exact ⟨by rw [hk.fld _ h1, a], by rw [hk.fld _ h1, b], by rw [hk.fld _ h2, c], by rw [hk.fld _ h2, d]⟩

theorem Regs.shows_put (r : Regs) (old k : Nat) :
    (((((r.put F.SYS_STATUS_PREV_MODE old).put F.SYS_STATUS_MODE k).put F.SYS_MODE_HIST_FROM old).put F.SYS_MODE_HIST_TO k).inc
      F.SYS_MODE_HIST_COUNT).Shows old k := by
  unfold Regs.Shows Regs.inc
  simp (disch := decide) [Regs.fld_put_ne, Regs.fld_put_same, Regs.fld_put_beside]
  refine ⟨?_, ?_, ?_, ?_⟩ <;> rfl

end Sys2Proof.Machine
end

