-- ==== Sys2Proof/Laws/Sources.lean ====
section
/-!
SUPPORT. Laws/Sources.lean: what a lane holds of a source of the federation (R270), read after a change.
-/
namespace Sys2Proof.Machine

@[simp] theorem Lane.updSrc_regs (x : Lane) (s : Nat) (f : SrcComm → SrcComm) : (x.updSrc s f).regs = x.regs := rfl
@[simp] theorem Lane.updSrc_si (x : Lane) (s : Nat) (f : SrcComm → SrcComm) : (x.updSrc s f).si = x.si := rfl
@[simp] theorem Lane.updSrc_rte (x : Lane) (s : Nat) (f : SrcComm → SrcComm) : (x.updSrc s f).rte = x.rte := rfl
@[simp] theorem Lane.updSrc_zvl (x : Lane) (s : Nat) (f : SrcComm → SrcComm) : (x.updSrc s f).zvl = x.zvl := rfl
@[simp] theorem Lane.updSrc_sb (x : Lane) (s : Nat) (f : SrcComm → SrcComm) : (x.updSrc s f).sb = x.sb := rfl
@[simp] theorem Lane.updSrc_live (x : Lane) (s : Nat) (f : SrcComm → SrcComm) : (x.updSrc s f).live = x.live := rfl

/-- A changed source reads as changed. -/
@[simp] theorem Lane.srcOf_updSrc (x : Lane) (s : Nat) (f : SrcComm → SrcComm) : (x.updSrc s f).srcOf s = f (x.srcOf s) := by
  simp [Lane.updSrc, Lane.srcOf, Store.upd]

/-- Every other source stays as it was. -/
theorem Lane.srcOf_updSrc_ne (x : Lane) {s k : Nat} (f : SrcComm → SrcComm) (h : k ≠ s) : (x.updSrc s f).srcOf k = x.srcOf k := by
  simp [Lane.updSrc, Lane.srcOf, Store.upd, Store.get_set_ne _ _ _ h]

end Sys2Proof.Machine
end

