-- ==== Sys2Proof/Machine/Pins.lean ====
section
/-!
DEFINITION. Machine/Pins.lean: TX_DISABLE of the RTM cages (R443) and the front panel's LEDs (R445), as functions of the module
(assumption 57).
-/
namespace Sys2Proof.Machine

/-- TX_DISABLE on both cages of a port (R443): while the port neither runs nor forwards, and under BIST of the Port Hub. -/
def Mach.txDisable (m : Mach) (p : Nat) : Bool :=
  (!(m.port p).running && !m.forwards p) || m.hubTested

/-- The colour of an LED (R445). -/
inductive LedColour where
  | green | yellow | red
  deriving DecidableEq, Repr

/-- What an LED shows: `single` is the single flash every 2 s. -/
inductive Led where
  | off
  | on (c : LedColour)
  | flash (c : LedColour) (hz : Nat)
  | single (c : LedColour)
  deriving DecidableEq, Repr

/-- RUN (R445), by mode; the table gives it nothing in MAINTENANCE, UPDATE and SAFE_HALT. -/
def runLed (mode : Nat) : Option Led :=
  if mode = 0 ∨ mode = 1 then some .off
  else if mode = 6 ∨ mode = 7 then some (.on .green)
  else if mode = 2 ∨ mode = 3 ∨ mode = 4 then some (.flash .green 1)
  else if mode = 5 ∨ mode = 9 ∨ mode = 10 ∨ mode = 11 then some (.flash .green 4)
  else if mode = 8 then some (.single .green)
  else none

/-- HALT (R445). -/
def haltLed (mode : Nat) : Led :=
  if mode = 14 then .on .red else if mode = 12 ∨ mode = 13 then .flash .red 1 else .off

/-- LANE A, LANE B, LANE C (R445). -/
def Mach.laneLed (m : Mach) (l : LaneId) : Led :=
  if m.sys.mode ≤ 1 then .off
  else if Device.lane l ∈ m.sys.bistRun ∨ m.fed.testLane = some l ∨ (m.lane l).role = .joining then .on .yellow
  else if (m.lane l).role = .excluded then
    (if m.fld F.RED_STATUS_DARN_BARRED = 1 then .flash .red 1 else .on .red)
  else .on .green

/-- REPLACE_REQUEST (R445). -/
def Mach.replaceLed (m : Mach) : Led := if m.fld F.RED_REPLACE_REQUEST = 1 then .on .yellow else .off

/-- PORTS (R445); the table gives nothing for a running port with a link down and its ring neither split nor healing. -/
def Mach.portsLed (m : Mach) : Option Led :=
  let run := (List.range 16).filter (fun p => (m.port p).running)
  if run = [] then some .off
  else if run.any (fun p => (m.port p).split || (m.port p).healing) || m.ph.nodes.any (fun e => e.2.quarantined) then
    some (.flash .green 1)
  else if run.all (fun p => (m.port p).eastUp && (m.port p).westUp) then some (.on .green)
  else none

/-- FED (R445). -/
def Mach.fedLed (m : Mach) : Option Led :=
  if (m.leadLane.img.sec 13).isNone ∨ m.fld F.FED_CFG_ENABLE = 0 then some .off
  else if m.fld F.FED_NETS_EXPIRED = 1 ∨ !m.fed.ptpValid then some (.flash .yellow 1)
  else if m.fld F.FED_NETS_SINGLE = 1 then some (.on .yellow)
  else if m.fld F.FED_NETS_A_UP = 1 ∧ m.fld F.FED_NETS_B_UP = 1 then some (.on .green)
  else none

/-- PAIR (R445). -/
def Mach.pairLed (m : Mach) : Option Led :=
  if !m.paired then some .off
  else if m.fld F.RED_PAIR_STATUS_PARTNER_SEEN = 0 ∨ m.fld F.RED_PAIR_STATUS_FIT = 0 then some (.flash .red 1)
  else if modeActive m.sys.mode then some (.on .green)
  else if m.sys.mode = 8 then some (.on .yellow)
  else none

end Sys2Proof.Machine
end

