-- ==== Sys2Proof/Tests/Slice0.lean ====
section
/-!
SUPPORT. Tests/Slice0.lean: ill-formed commands that the checks refuse, single steps with values from the manual's own figures,
and for every obligation with hypotheses states that meet them.
-/
namespace Sys2Proof.Tests
open Sys2Proof Sys2Proof.Machine

-- Tests that the kernel evaluates wait for every declaration before them: checked one at a time, they hold one thread, not one each.
set_option Elab.async false

/-! ### Small states -/

def st (f : Mach → Mach) : State := { State.reset with m := f Mach.reset }
def stSys (f : Sys → Sys) : State := st (fun m => m.updSys f)
def inMode (k : Nat) : State := stSys (fun s => { s with mode := k })
/-- In mode `k` with the cycle running, at basic cycle `bc`. -/
def running (k bc : Nat) : Mach :=
  ({ Mach.reset with sys := { Sys.reset with mode := k, originAgreed := true, bc := bc } } : Mach).mapLanes (fun x => { x with loaded := true })
def fedSt (f : Fed → Fed) : State := st (fun m => { m with fed := f m.fed })

/-! ### Checks of WellFormed -/

theorem test_wf_refuses_request_types :
    [Instr.setRoute 0 0x2000000000000000 0, .cancelRoute 0 0x1000000000000000 0, .throwPoint 0 0x1000000000000000 0,
     .withdraw 0 0x1000000000000000 0, .restrictObject 0 0x1000000000000000 0, .restrictArea 0 0x1000000000000000 0,
     .restrictAll 0 0x1000000000000000 0, .liftObject 0 0x1000000000000000 0, .liftArea 0 0x1000000000000000 0,
     .liftAll 0 0x1000000000000000 0].all (fun c => !c.wf) = true := by decide

theorem test_wf_takes_request_types :
    [Instr.setRoute 0 0x1000000000000000 0, .cancelRoute 0 0x2000000000000000 0, .throwPoint 0 0x3000000000000000 0,
     .withdraw 0 0x4000000000000000 0, .restrictObject 0 0x8000000000000000 0, .restrictArea 0 0x9000000000000000 0,
     .restrictAll 0 0xA000000000000000 0, .liftObject 0 0xC000000000000000 0, .liftArea 0 0xD000000000000000 0,
     .liftAll 0 0xE000000000000000 0].all Instr.wf = true := by decide

theorem test_wf_refuses_mode_kinds :
    [Instr.modeReqDormant 0x2001 0, .restartOrWake 0x2002 0, .returnToService 0x2004 0, .modeReqMaintenance 0x200C 0,
     .modeReqUpdate 0x200D 0, .lifecycleService 0x1004 0, .lifecycleRetired 0x1005 0, .bistSessionOpen 0x1001 0,
     .bistSessionClose 0x1000 0].all (fun c => !c.wf) = true := by decide

theorem test_wf_refuses_mode_values :
    [Instr.modeReqDormant 0x1002 0, .restartOrWake 0x1001 0, .returnToService 0x1001 0, .modeReqMaintenance 0x1001 0,
     .modeReqUpdate 0x1001 0, .lifecycleService 0x2005 0, .lifecycleRetired 0x2004 0, .bistSessionOpen 0x3000 0,
     .bistSessionClose 0x3001 0].all (fun c => !c.wf) = true := by decide

theorem test_wf_takes_mode_words :
    [Instr.modeReqDormant 0x1001 0, .restartOrWake 0x1002 0, .returnToService 0x1004 0, .modeReqMaintenance 0x100C 0,
     .modeReqUpdate 0x100D 0, .lifecycleService 0x2004 0, .lifecycleRetired 0x2005 0, .bistSessionOpen 0x3001 0,
     .bistSessionClose 0x3000 0].all Instr.wf = true := by decide

/-- A posted write that every lane answers in time. -/
def posted : Posted := ⟨⟨0, 0⟩, false⟩

theorem test_wf_refuses_accesses :
    [Instr.registerWrite (.bar0 0x3040 posted) 2 0, .registerWrite (.bar0 0x3044 posted) 8 0, .registerWrite (.core .a 0x6052) 4 0,
     .registerWrite (.firmware 0x59A) 4 0, .laneRegsWrite 0 2 0 ⟨0, 0⟩,
     .shadowWrite .tsu 0x842 0 0 0, .evaluationDone .a 256 0].all (fun c => !c.wf) = true := by decide

theorem test_wf_takes_accesses :
    [Instr.registerWrite (.bar0 0x3040 posted) 8 0, .registerWrite (.core .a 0x6050) 4 0, .registerWrite (.firmware 0x598) 4 0,
     .laneRegsWrite 0 4 0 ⟨0, 7⟩, .shadowWrite .tsu 0x840 0 0 0,
     .evaluationDone .a 255 0].all Instr.wf = true := by decide

/-- The table gives its rows no bits, so no word spells a command. -/
theorem test_no_word_decodes : decodeTableWord 32 0x1000 = none := rfl

/-! ### Single steps -/

/-- The next state of a command. -/
def after (c : Instr) (s : State) : Mach := match exec c s with | .next t => t.m | .fault _ => s.m | .refused _ => s.m

/-- R306: ready from 40 ms. -/
theorem test_holdup_ready_at_40 : (after (.holdupReady 40 100) State.reset).sys.holdupReady = true := by decide +kernel
theorem test_holdup_not_ready_at_39 : (after (.holdupReady 39 100) State.reset).sys.holdupReady = false := by decide +kernel

/-- R311: present from 16.8 V, which is 168 tenths. -/
theorem test_feed_present_at_168 : (after (.feedPresent .feedA 168 0) (inMode 0)).sys.mode = 1 := by decide +kernel
theorem test_feed_absent_at_167 : (after (.feedPresent .feedA 167 0) (inMode 0)).sys.mode = 0 := by decide +kernel

/-- R301: BOOT that does not end in time halts, with cause 12 of R316. -/
theorem test_boot_timeout_halts : (after .bootTimeout State.reset).fld F.SYS_HALT_CAUSE = 12 := by decide +kernel

/-- R384: L-group low below 18 V, which is 90 fifths; R378. -/
theorem test_supply_low_shows_volts : (after (.supplyLow 1 89) State.reset).fld F.DIO_SUPPLY_L1 = 89 := by decide +kernel

/-- R276: a backoff ends in a new listen. -/
theorem test_backoff_listens : (after .fedBackoffEnd (fedSt (fun f => { f with startState := 3 }))).fed.startState = 1 := by
  decide +kernel

/-! ### States that meet the hypotheses of the obligations -/

theorem witness_StepRunsFront : (⟨Mach.reset, [.clusterBoundary, .gather]⟩ : State).pending = .clusterBoundary :: [.gather] ∧
    State.reset.pending = [] := ⟨rfl, rfl⟩

theorem witness_FeedsComeAndGo : voltsOf .feedA 167 0 < 168 ∧ 168 ≤ voltsOf .feedA 168 0 ∧ (inMode 6).m.sys.mode ≠ 0 ∧
    voltsOf .feedB 0 159 < 160 := by decide

theorem witness_LimitsHalt :
    let s := stSys (fun x => { x with powerLoss := true, holdupWait := true, mode := 6 })
    Settled s ∧ s.m.sys.powerLoss = true ∧ s.m.sys.holdupWait = true ∧ s.m.sys.mode ∉ [0, 1, 13, 14] ∧
    Settled State.reset ∧ State.reset.m.sys.powerLoss = false ∧ State.reset.m.sys.holdupWait = false ∧ State.reset.m.sys.mode = 2 ∧
    (inMode 13).m.sys.mode ∈ [1, 13] := by
  unfold Settled; decide

theorem witness_HoldupKept :
    (inMode 6).m.sys.mode ≠ 0 ∧ (inMode 6).m.sys.holdupWait = false ∧ (inMode 6).m.sys.powerLoss = false ∧
    Settled (stSys (fun x => { x with powerLoss := true })) ∧ (stSys (fun x => { x with powerLoss := true })).m.sys.mode ≠ 0 := by
  unfold Settled; decide

theorem witness_PowerRecoveryResets :
    let s := stSys (fun x => { x with feedA := true, rideOver := true, mode := 13 })
    let h := st (fun m => (m.updSys (fun x => { x with feedA := true, rideOver := true, mode := 14 })).putAll F.SYS_HALT_CAUSE 10)
    (s.m.sys.feedA || s.m.sys.feedB) = true ∧ s.m.sys.rideOver = true ∧ s.m.sys.rst = none ∧ s.m.sys.mode = 13 ∧
    h.m.sys.mode = 14 ∧ h.m.fld F.SYS_HALT_CAUSE = 10 ∧ (State.reset.m.sys.feedA || State.reset.m.sys.feedB) = false := by
  decide +kernel

theorem witness_ResetHonoured :
    let s := stSys (fun x => { x with front := ⟨true, false⟩, mode := 6 })
    s.m.sys.mode ≠ 0 ∧ s.m.input .front = ⟨true, false⟩ ∧ s.m.sys.rst = none ∧ s.m.sys.mode ∉ [2, 3, 4] ∧
    (stSys (fun x => { x with front := ⟨true, false⟩ })).m.input .front = ⟨true, false⟩ ∧ State.reset.m.sys.mode ∈ [2, 3, 4] ∧
    (State.reset.m.input .rear).released = false ∧ (State.reset.m.input .rear).stuck = false ∧
    (stSys (fun x => { x with rst := some 1, mode := 6 })).m.sys.rst ≠ none ∧
    (stSys (fun x => { x with rst := some 1, mode := 6 })).m.sys.originAgreed = false ∧
    (stSys (fun x => { x with rst := some 1, mode := 6, originAgreed := true })).m.sys.boundary = false := by decide

theorem witness_PllLockStartsBoot : (inMode 1).m.sys.mode ≠ 0 := by decide

theorem witness_BootAndSelfTestEnd :
    let v := State.reset
    State.reset.m.sys.mode = 2 ∧ (st (fun m => m.mapLanes (fun x => { x with lifecycle := 5 }))).m.a.lifecycle = 5 ∧
    v.m.sys.mode = 2 ∧ v.m.fusesAgree = true ∧ v.m.a.lifecycle ∈ [2, 3, 4] ∧ v.m.sc.pending = none ∧ v.m.sc.probation = none ∧
    v.m.sc.abandoned = none ∧ v.m.sc.verified = true ∧ v.m.sys.bistRun = [] ∧
    (inMode 3).m.sys.mode = 3 ∧ (inMode 3).m.sys.bistRun = [] ∧ (inMode 3).m.sys.holdupWait = false ∧ (inMode 3).m.sys.bistBad = 0 ∧
    (inMode 3).m.a.lifecycle ≠ 2 ∧ (inMode 3).m.sys.holdupReady = false ∧
    (stSys (fun x => { x with mode := 3, bistBad := 8 })).m.sys.bistBad ≠ 0 := by decide +kernel

/-- In MAINTENANCE, lifecycle COMMISSION, every lane serving. -/
def maint : State := inMode 12

theorem witness_ModeRequestsAccepted : maint.m.Grants 0x1002 0 ∧ maint.m.Authorised 0x1002 ∧ maint.m.sys.pendingReq = none ∧
    maint.m.sys.rst = none ∧ (Instr.restartOrWake 0x1002 0).wf = true ∧ maint.m.Grants 0x1001 0 ∧
    (Instr.modeReqDormant 0x1001 0).wf = true ∧ maint.m.Grants 0x2005 0 ∧ (Instr.lifecycleRetired 0x2005 0).wf = true := by
  unfold Mach.Grants Mach.Authorised; decide +kernel

/-- In MAINTENANCE and SERVICE, with the response that answers a challenge of sixteen zeros for a word under a key of zeros. -/
def answered (w : W32) : Mach :=
  let m := (maint.m.updSys (fun s => { s with challenge := some (List.replicate 16 0), key := List.replicate 32 0 })).mapLanes
    (fun x => { x with lifecycle := 4 })
  let r := hmac m.sys.key (List.replicate 16 0 ++ be 4 w.toNat ++ be 8 m.a.serial.toNat)
  (List.range 4).foldl (fun (m : Mach) k => m.putSc (F.HBR_AUTH_RESPk_RESPONSE k) (rd r (4 * k) 4)) m

theorem witness_ModeRequestsAccepted_rest :
    maint.m.Grants 0x1004 0 ∧ (inMode 14).m.Grants 0x100C 0 ∧ (inMode 14).m.Authorised 0x100C ∧
    (maint.m.putSc F.UPD_PATCH_LEN_LENGTH 8).Grants 0x100D 0 ∧ (maint.m.updSys (fun s => { s with keySet := true })).Grants 0x2004 0 ∧
    (Instr.returnToService 0x1004 0).wf = true ∧ (Instr.modeReqMaintenance 0x100C 0).wf = true ∧ (Instr.modeReqUpdate 0x100D 0).wf = true ∧
    (Instr.lifecycleService 0x2004 0).wf = true := by
  unfold Mach.Grants Mach.Authorised; decide +kernel

/-- A host BIST session is opened and closed in SERVICE alone (R305). -/
theorem witness_ModeRequestsAccepted_session :
    (answered 0x3001).Grants 0x3001 0 ∧ (answered 0x3001).Authorised 0x3001 ∧ (answered 0x3000).Grants 0x3000 0 ∧
    (answered 0x3000).Authorised 0x3000 ∧ (Instr.bistSessionOpen 0x3001 0).wf = true ∧ (Instr.bistSessionClose 0x3000 0).wf = true := by
  unfold Mach.Grants Mach.Authorised; decide +kernel

/-- In SERVICE without a response, nothing is authorised; in COMMISSION, a restart is not allowed in SERVICE_3. -/
theorem witness_ModeRequestsRefused :
    let s := st (fun m => (m.updSys (fun x => { x with mode := 12 })).mapLanes (fun x => { x with lifecycle := 4 }))
    ¬ s.m.Authorised 0x1002 ∧ (inMode 6).m.Authorised 0x1002 ∧ (inMode 6).m.sys.mode ≠ 1 ∧ (inMode 6).m.participants ≠ [] ∧
    ∀ l ∈ (inMode 6).m.participants, (inMode 6).m.mute 0 l = false ∧ (inMode 6).m.mqAnswer 0x1002 ((inMode 6).m.lane l) = 3 := by
  unfold Mach.Authorised; decide +kernel

theorem witness_RequestedTransitionTakes :
    let s := stSys (fun x => { x with mode := 12, pendingReq := some 0x100C })
    let q := stSys (fun x => { x with mode := 12, pendingReq := some 0x1001 })
    let u := stSys (fun x => { x with mode := 12, pendingReq := some 0x100D, boundary := true })
    Settled s ∧ s.m.sys.pendingReq = some 0x100C ∧ s.m.sys.rst = none ∧ s.m.sys.originAgreed = false ∧ mqValue 0x100C = 12 ∧
    q.m.sys.pendingReq = some 0x1001 ∧ mqValue 0x1001 = 1 ∧ u.m.sys.boundary = true ∧ mqValue 0x100D = 13 ∧
    s.m.preempted = false ∧ s.m.chapterDue = false ∧ u.m.preempted = false ∧ u.m.chapterDue = false ∧
    (stSys (fun x => { x with pendingReq := some 0x100C, rst := some 3, seconds := 1 })).m.preempted = true := by unfold Settled; decide +kernel

theorem witness_FusesAndKeys :
    let s := stSys (fun x => { x with fuse := some 5, mode := 12 })
    let c := st (fun m => (m.updSys (fun x => { x with challenge := some [] })).mapLanes (fun x => { x with lifecycle := 4 }))
    let k := st (fun m => { m with sc := { m.sc with keys := (List.range 7).map (fun k => (k, some 0)) } })
    s.m.sys.fuse = some 5 ∧ s.m.sys.mode ∉ [0, 2, 3, 4] ∧ s.m.sys.rst = none ∧ c.m.sys.challenge ≠ none ∧ c.m.sys.lockout = false ∧
    c.m.a.lifecycle = 4 ∧ State.reset.m.sys.challenge = none ∧ (stSys (fun x => { x with lockout := true })).m.sys.lockout = true ∧
    k.m.a.lifecycle = 3 ∧ k.m.sys.keySet = false ∧ (∀ j < 7, (Store.get noShadow k.m.sc.keys j).isSome = true) ∧
    State.reset.m.a.lifecycle = 3 ∧ Store.get noShadow State.reset.m.sc.keys 6 = none ∧ s.m.sys.keySet = false ∧
    c.m.a.lifecycle ≠ 3 := by decide +kernel

/-- In LOAD at a step. -/
def loadAt (k : Nat) : State := st (fun m => (m.updSys (fun x => { x with mode := 4 })).putAll F.SYS_IMG_LOAD_STEP k)

theorem witness_LoadStreamsAndJudges :
    (loadAt 2).m.sys.mode = 4 ∧ (loadAt 2).m.fld F.SYS_IMG_LOAD_STEP = 2 ∧ (∀ l, ((loadAt 2).m.lane l).outcome = none) ∧
    (loadAt 3).m.fld F.SYS_IMG_LOAD_STEP = 3 ∧ ((loadAt 3).m.lane .c).outcome = none ∧
    (∃ k, (((loadAt 3).m.updLane .c (fun x => { x with outcome := some (0, 0) })).lane k).outcome = none) := by
  refine ⟨by decide +kernel, by decide +kernel, fun l => by cases l <;> decide +kernel, by decide +kernel, by decide +kernel,
    .a, by decide +kernel⟩

theorem witness_TablesThenProving :
    let s := st (fun m => (m.updSys (fun x => { x with mode := 4, step6 := 1 })).putAll F.SYS_IMG_LOAD_STEP 6)
    (loadAt 6).m.sys.mode = 4 ∧ (loadAt 6).m.fld F.SYS_IMG_LOAD_STEP = 6 ∧ (loadAt 6).m.sys.step6 = 0 ∧ s.m.sys.step6 = 1 ∧
    s.m.fld F.SYS_IMG_LOAD_STEP = 6 ∧ s.m.paired = false ∧ (5 : W64) ≠ 6 := by decide +kernel

theorem witness_LoadWaitsEnd :
    let s := stSys (fun x => { x with mode := 4, step6 := 3 })
    s.m.sys.mode = 4 ∧ s.m.sys.step6 = 3 ∧ s.m.paired = false ∧ s.m.fed.ptpValid = false ∧
    ({ s.m with fed := { s.m.fed with ptpValid := true } } : Mach).fed.ptpValid = true ∧
    (stSys (fun x => { x with mode := 4, step6 := 4 })).m.sys.step6 = 4 := by decide +kernel

theorem witness_BoundaryPassAndSweep :
    (running 6 14).sys.originAgreed = true ∧ (running 6 14).sys.preOrigin = false ∧ (running 6 14).cycling = true ∧
    ((running 6 14).lane .a).follows = true ∧ ((running 6 14).lane .a).loaded = true ∧ (running 6 14).sys.bc = 14 ∧
    modePasses (running 6 14).sys.mode = true ∧ State.reset.m.sys.mode ≠ 0 ∧
    State.reset.m.sys.originAgreed = false ∧ State.reset.m.sys.bc ≠ 14 := by decide

theorem witness_GatherAndEvaluate :
    let m := (running 6 0).updLane .b (fun x => { x with rte := { x.rte with gathered := true, contexts := [(255, some (Work.sup 7))] } })
    (running 6 0).cycling = true ∧ (running 6 0).sys.bc = 0 ∧ (running 6 15).sys.bc ≠ 0 ∧
    Store.get noWork (m.lane .b).rte.contexts 255 = some (Work.sup 7) ∧ 3250 ≤ 3250 ∧ (m.lane .b).rte.gathered = true := by decide

theorem witness_ExpiriesAtPress :
    let q : Req := ⟨0x1000000000000000, 7, 0, true, 3, false, 0, true, 0⟩
    let m := (running 6 13).mapLanes (fun x => { x with rte := { x.rte with queue := [q] } })
    m.leadLane.rte.queue.find? (fun r => decide (r.seq = (7 : W32).toNat) && decide (3 ≤ r.drops)) = some q ∧
    (m.lane .a).follows = true ∧ (m.lane .a).loaded = true ∧ (m.lane .a).rte.press = none := by decide

/-- The default lifetime of a stored request has passed. -/
theorem witness_RequestExpiry :
    let q : Req := ⟨0x1800000000000000, 7, 0, false, 0, false, 65535, true, 0⟩
    let m := (running 6 13).mapLanes (fun x => { x with rte := { x.rte with queue := [q] } })
    rqStore 0x1800000000000000 = true ∧
    (m.lane .a).rte.queue.find? (fun r => decide (r.seq = (7 : W32).toNat) && decide (rqType r.word = 1) && rqStore r.word &&
      !r.follower && decide ((m.lane .a).regs.fld F.RTE_REQ_LIFETIME_CLUSTERS ≤ r.clusters)) = some q := by decide +kernel

theorem witness_PressStages : (running 6 13).cycling = true ∧ (running 6 13).sys.bc = 13 ∧ (running 6 13).sys.mode ≠ 9 ∧
    (running 5 13).sys.mode = 5 ∧ (running 5 13).leadLane.follows = true ∧ (running 5 13).leadLane.loaded = true ∧
    ((running 5 13).mapLanes (fun x => { x with rte := { x.rte with gathered := true } })).leadLane.rte.gathered = true ∧
    (running 6 12).sys.bc ≠ 13 := by decide

theorem witness_PressCommits :
    let m := (running 6 13).mapLanes (fun x => { x with rte := { x.rte with press := some ((running 6 13).a.buildPress 0) } })
    m.leadLane.rte.press ≠ none ∧ m.sys.bc = 13 ∧ m.joiner = none ∧ (m.lane .b).follows = true ∧ (m.lane .b).loaded = true := by
  intro m; exact ⟨fun h => absurd (h : some _ = none) (Option.some_ne_none _), by decide⟩

theorem witness_EmitReports : (running 6 14).cycling = true ∧ (running 6 14).sys.bc = 14 ∧ ((running 6 14).lane .c).follows = true ∧
    (running 6 0).sys.bc ≠ 14 := by decide

theorem witness_ExclusionEnacted :
    let s := stSys (fun x => { x with mode := 6, pendingExcl := [(.c, 11, 0)] })
    let h := stSys (fun x => { x with mode := 6, pendingHalt := some 4 })
    Settled s ∧ s.m.sys.pendingHalt = none ∧ s.m.sys.pendingExcl = [(.c, 11, 0)] ∧ 11 < 12 ∧ s.m.sys.mode = 6 ∧
    h.m.sys.pendingHalt = some 4 ∧ h.m.sys.pendingExcl = [] ∧ h.m.sys.mode ∉ [0, 1, 13, 14] := by unfold Settled; decide

theorem witness_ExclusionEnacted_roles : ∀ k, (State.reset.m.lane k).role = .serving := fun k => by cases k <;> rfl

theorem witness_FramesAssembled : (running 6 3).sys.originAgreed = true ∧ (running 6 3).sys.preOrigin = false ∧
    (running 6 3).readmitDue = false := by decide

theorem witness_ScansNameTheLane : ((running 6 3).lane .b).loaded = true ∧ modeActive (running 6 3).sys.mode = true := by decide

theorem witness_SelfFaultConditions : State.reset.m.awake = true := by decide

theorem witness_DegradedLimit :
    let s := st (fun m => (m.updSys (fun x => { x with mode := 7 })).putAll F.RED_STATUS_DEGRADED 1)
    let t := st (fun m => ((m.updSys (fun x => { x with mode := 7 })).putAll F.RED_STATUS_DEGRADED 1).putAll
      F.RED_DEGRADED_REMAIN_SECONDS 3601)
    Settled s ∧ s.m.fld F.RED_STATUS_DEGRADED = 1 ∧ s.m.fld F.RED_DEGRADED_REMAIN_SECONDS = 0 ∧ s.m.sys.mode ∉ [0, 1, 13, 14] ∧
    3600 < t.m.fld F.RED_DEGRADED_REMAIN_SECONDS ∧ t.m.fld F.RED_STATUS_DEGRADED = 1 := by unfold Settled; decide +kernel

theorem witness_LaneTimeKept : (running 6 3).sys.originAgreed = true ∧ (running 6 3).sys.preOrigin = false ∧ LaneId.b = nextLane .a := by
  decide

/-- SERVICE_2 with lane C excluded, at a boundary. -/
def two : Mach := ({ running 7 0 with sys := { (running 7 0).sys with boundary := true } } : Mach).updLane .c (fun x => { x with role := .excluded })

theorem witness_DarnStarts :
    let m := (two.putAll F.RED_DARN_CFG_AUTO 1).putAll F.VOT_EXCLUSION_LANE 2
    let d := m.updSys (fun x => { x with darnDue := true })
    let n := (m.updSys (fun x => { x with darnFrom := some 0, seconds := 3600 })).putAll F.RED_DEGRADED_REMAIN_SECONDS 60
    n.darnDelayOver = true ∧ n.darnRefused .c = false ∧ m.darnDelayOver = false ∧
    m.fld F.RED_DARN_CFG_AUTO = 1 ∧ m.sys.darnDue = false ∧ m.darnLane = some .c ∧ (m.lane .c).role = .excluded ∧
    d.sys.boundary = true ∧ d.sys.darnDue = true ∧ d.sys.mode = 7 ∧ d.darnLane = some .c ∧ State.reset.m.sys.boundary = false := by
  decide +kernel

/-- In DARN at a step, lane C joining. -/
def darnAt (k : Nat) : Mach :=
  (({ running 10 0 with sys := { (running 10 0).sys with boundary := true, track := 16, probRun := 256 } } : Mach).updLane .c
    (fun x => { x with role := .joining, time := { x.time with good := 16 } })).putAll F.RED_DARN_STATUS_STEP k

/-- At step 6, with the snapshot taken in the serving lanes. -/
def darnSnapped : Mach := (darnAt 6).mapLanes (fun x => if x.isServing then { x with snap := some ⟨x.si, x.rte⟩ } else x)

theorem witness_DarnSteps : (darnAt 2).sys.mode = 10 ∧ (darnAt 2).joiner = some .c ∧ (darnAt 2).darnStep = 2 ∧ (darnAt 3).darnStep = 3 ∧
    (darnAt 5).darnStep = 5 ∧ 16 ≤ ((darnAt 5).lane .c).time.good ∧ (darnAt 6).darnStep = 6 ∧
    (darnSnapped.serving.all (fun k => sameSnapshot (darnSnapped.lane k) darnSnapped.leadLane) = true) ∧
    darnSnapped.leadLane.snap = some ⟨[], Rte.reset⟩ ∧ darnSnapped.sys.snapLog = [] ∧ darnSnapped.joiner = some .c ∧
    (darnAt 6).leadLane.snap = none ∧ (darnAt 7).darnStep = 7 ∧
    16 ≤ (darnAt 7).sys.track ∧ (darnAt 7).sys.sinceSnap ≤ 64 ∧ (darnAt 8).darnStep = 8 ∧ (darnAt 8).sys.boundary = true ∧
    (darnAt 9).darnStep = 9 ∧ 256 ≤ (darnAt 9).sys.probRun ∧ (inMode 6).m.sys.mode ≠ 10 := by decide +kernel

theorem witness_DarnBist : (darnAt 3).bistOf (.lane .c) ⟨0, 0, 0, true, 0, 0, 0, 0, 0⟩ 3 ≠ 1 := by decide +kernel

/-- Every figure of a run within R303. -/
def goodRun : BistRun := ⟨0, 0, 0, true, 850, 850, 20000, 20000, 10⟩

theorem witness_DarnBist_passed : (darnAt 3).bistOf (.lane .c) goodRun 3 = 1 := by decide +kernel

/-- The snapshots of the two serving lanes differ. -/
theorem witness_DarnSteps_differ :
    let m := darnSnapped.updLane .b (fun x => { x with snap := some ⟨[(1, ObjRec.ofBytes [1])], x.rte⟩ })
    m.darnStep = 6 ∧ m.leadLane.snap ≠ none ∧ (m.serving.any (fun k => !sameSnapshot (m.lane k) m.leadLane)) = true := by
  decide +kernel

theorem witness_DarnStarts_refused :
    let m := ((two.putAll F.RED_DARN_CFG_AUTO 1).putAll F.VOT_EXCLUSION_LANE 2).updSys (fun x => { x with darnFrom := some 0, seconds := 3600 })
    (m.putAll F.RED_STATUS_DARN_BARRED 1).darnRefused .c = true ∧ (m.putAll F.RED_STATUS_DARN_BARRED 1).darnDelayOver = true := by
  decide +kernel

theorem witness_OddLaneNamed :
    let m := running 6 3
    let n := (running 6 3).updLane .c (fun x => { x with dioNext := 1 })
    m.voting = true ∧ m.signature 1 .a = m.signature 1 .b ∧ m.signature 1 .b = m.signature 1 .c ∧
    n.signature 1 .a = n.signature 1 .b ∧ n.signature 1 .c ≠ n.signature 1 .a ∧ n.voting = true := by decide +kernel

theorem witness_OddLaneNamed_image :
    let m := (running 6 0).mapLanes (fun x => { x with scanned := true })
    m.voting = true ∧ m.sys.bc = 0 ∧ m.leadLane.scanned = true := by decide

theorem witness_RequestsTaken : (Instr.restrictAll 0 0xA000000000000000 0).wf = true ∧ (running 6 0).participants ≠ [] ∧
    (∀ l ∈ (running 6 0).participants, (running 6 0).mute 0 l = false ∧ ((running 6 0).lane l).answer 6 0xA000000000000000 = 1) ∧
    (running 6 0).leadLane.loaded = true ∧ rqMalformed (running 6 0).leadLane.img 0xA000000000000000 = false ∧
    rqAuthority (running 6 0).leadLane.img 0xA000000000000000 ((running 6 0).areas 0) = true := by decide +kernel

/-- A lift of everything needs every area (R83); in LOAD no request is taken; without lanes none either. -/
theorem witness_RequestsTaken_refused :
    rqMalformed (running 6 0).leadLane.img 0xE000000000000000 = false ∧
    rqAuthority (running 6 0).leadLane.img 0xE000000000000000 (((running 6 0).putSc (F.MBX_AREA_HIn_AREAS 7) 0).areas 7) = false ∧
    (inMode 4).m.participants ≠ [] ∧ (inMode 4).m.leadLane.loaded = false ∧ rqMode 4 1 = false ∧ (inMode 1).m.participants = [] := by
  decide +kernel

theorem witness_HostReadsAndErrors :
    let r : Result := ⟨7, 5, 1⟩
    let m := { Mach.reset with sc := { Mach.reset.sc with results := [(7, [5])], reported := [(.a, r), (.b, r)] } }
    Store.get noResult m.sc.results 7 = 5 :: [] ∧ twiceReported m.sc.reported = some r ∧
    (Store.get noResult m.sc.results r.mbx).length < 1024 ∧ twiceReported State.reset.m.sc.reported = none ∧
    sideRead 0x3054 8 = true ∧ sideRead 0x3130 8 = true ∧ sideRead 0x3054 4 = false := by decide

theorem witness_LocksWork : maint.m.Accepted .rte 0x28 0x5A3C 0 ∧ maint.m.Accepted .upd 0x28 0x5A3C 0 ∧
    maint.m.Accepted .rte 0x28 0 0 := by
  unfold Mach.Accepted Mach.Takes; decide +kernel

theorem witness_LocksWork_open :
    let m := maint.m.mapLanes (fun x => { x with regs := x.regs.putLock .rte false true })
    m.Accepted .rte 0x28 (BitVec.ofNat 16 (blkCode .rte)).toNat 0 ∧ (BitVec.ofNat 16 (blkCode .rte)).toNat = blkCode .rte := by
  unfold Mach.Accepted Mach.Takes; decide +kernel

theorem witness_InterruptsAndShadows : maint.m.Accepted .dio 0x18 1 0 ∧ maint.m.Accepted .evr 0x14 1 0 ∧ maint.m.Accepted .phb 0x1C 1 0 ∧
    maint.m.Takes .stg 0x2C 1 ⟨0, 0⟩ ∧ hasShadow .stg = true := by
  unfold Mach.Accepted Mach.Takes; decide +kernel

/-- In MAINTENANCE with the lock of a block open in every lane. -/
def opened (b : Blk) : Mach := maint.m.mapLanes (fun x => { x with regs := x.regs.putLock b true false })

theorem witness_InterruptsAndShadows_write : hasShadow .tsu = true ∧ shadowed .tsu (0x888 - 0x800) = true ∧
    (opened .tsu).Takes .tsu 0x888 1 ⟨0, 0⟩ ∧ (opened .tsu).Takes .tsu 0x2C 1 ⟨0, 0⟩ ∧
    (opened .tsu).Takes .tsu 0x888 1 ⟨0, 7⟩ ∧ (opened .tsu).Takes .tsu 0x2C 1 ⟨0, 7⟩ := by unfold Mach.Takes; decide +kernel

theorem witness_RegistersWithEffects : maint.m.Takes .rte 0x8 1 ⟨0, 0⟩ ∧ maint.m.Takes .vot 0x8 3 ⟨0, 0⟩ ∧
    maint.m.Takes .red 0x114 1 ⟨0, 0⟩ ∧ (opened .bst).Takes .bst 0x40 3 ⟨0, 0⟩ ∧ bitOf 3 0 = true ∧ bitsOf 3 7 4 = 0 ∧
    (opened .bst).Takes .bst 0x40 2 ⟨0, 0⟩ ∧ bitOf 2 0 = false := by unfold Mach.Takes; decide +kernel

theorem witness_RegistersWithEffects_nodes :
    let m := (running 6 0).updNode 2047 (fun n => { n with held := true })
    let n := { m with ph := { m.ph with regs := (m.ph.regs.putLock .stg true false).putLock (.ttp 15) true false } }
    n.Takes .stg 0x84 2047 ⟨0, 0⟩ ∧ n.Takes (.ttp 15) 0x6C (0x80 + 64) ⟨0, 0⟩ := by unfold Mach.Takes; decide +kernel

theorem witness_RegisterWrites :
    let m := (maint.m.putSc (F.HBR_WIN_CFGn_ENABLE 7) 1).putSc (F.HBR_WIN_CFGn_TARGET 7) 3
    (0x3120 : W16).toNat = 0x3040 + 0x20 * 7 ∧
    (maint.m.putSc F.HBR_CMD_CFG_MBX_WR 255).sc.regs.fld F.HBR_CMD_CFG_MBX_WR / 2 ^ 7 % 2 = 1 ∧
    bar0Page 0x0014 ≠ none ∧ 0x14 % 0x1000 = 0x14 ∧ m.sc.regs.fld (F.HBR_WIN_CFGn_ENABLE 7) = 1 ∧
    m.sc.regs.fld (F.HBR_WIN_CFGn_TARGET 7) = 3 ∧ maint.m.sc.regs.fld (F.HBR_WIN_CFGn_ENABLE 0) = 0 ∧ m.participants ≠ [] ∧
    pageOf (0x40000000 + 0x3014) = some .rte ∧ m.Takes .rte 0x14 1 ⟨0, 0⟩ ∧ pageOf (0x40000000 + 0x2FFFC) = none ∧
    m.Takes .rte 0x14 1 ⟨0, 7⟩ := by
  unfold Mach.Takes; decide +kernel

/-- A vector that waits while it is masked; an engine and a channel that do not run. -/
theorem witness_RegisterWrites_owners :
    let m := { Mach.reset with msi := { Msix.reset with pend := 0x80000000 } }
    bitOf m.msi.pend.toNat 31 = true ∧ (0x71FC : W16).toNat = 0x700C + 16 * 31 ∧
    (maint.m.lane .c).regs.fld (F.CRC_SCANm_STATUS_STATE 1) ≠ 1 ∧ maint.m.scanReserved .c 1 = false ∧
    (0x6090 : W16).toNat = 0x6050 + 0x40 * 1 ∧ maint.m.dmaState .sc 7 ∉ [1, 2, 3] ∧ (0x5D8 : BitVec 12).toNat = 0x598 + 0x40 * 1 := by
  decide +kernel

/-- Window 7 onto the staging area, in MAINTENANCE and in UPDATE; window 6 is OFF. -/
theorem witness_RegisterWrites_window :
    let m := ((maint.m.putSc (F.HBR_WIN_CFGn_ENABLE 7) 1).putSc (F.HBR_WIN_CFGn_TARGET 7) 4).putSc (F.HBR_WIN_CFGn_ORDER 7) 4
    let n := m.putSc (F.HBR_WIN_BASE_LOn_BASE 7) 16
    m.sc.regs.fld (F.HBR_WIN_CFGn_ENABLE 6) = 0 ∧ m.sc.regs.fld (F.HBR_WIN_CFGn_ENABLE 7) = 1 ∧
    m.sc.regs.fld (F.HBR_WIN_CFGn_TARGET 7) = 4 ∧ m.sc.regs.fld (F.HBR_WIN_CFGn_ORDER 7) = 4 ∧
    (0x1FFFFF8 : BitVec 25).toNat % 8 = 0 ∧ 0x20000000 ≤ n.windowBase 7 + 0 ∧ n.windowBase 7 + 0x1FFFFF8 + 8 ≤ 0x40000000 ∧
    n.sys.mode ≠ 13 ∧ ({ n with sys := { n.sys with mode := 13 } } : Mach).sys.mode = 13 := by decide +kernel

/-- The byte lanes of R347 for a dword: none swapped, halves of a word, a dword and a quadword swapped, and by the access. -/
theorem test_window_order : (List.range 5).map (fun o => ordered o 4 0 0x11223344) =
    [(0, 0x11223344), (0, 0x22114433), (0, 0x44332211), (4, 0x44332211), (0, 0x44332211)] := by decide +kernel

/-- The lock of UPD is open, slot 0 is selected. -/
def updOpen (state : Nat) : Mach :=
  let m := ({ maint.m with sc := { maint.m.sc with regs := maint.m.sc.regs.putLock .upd true false } } : Mach).putSc F.UPD_IMG_WRITE_LEN_LENGTH 8
  m.setSlot 1 { FlashSlot.empty with state := state }

theorem witness_FlashSlotsKept : (updOpen 0).sc.regs.lockOpen .upd = true ∧ (updOpen 0).sc.regs.fld F.UPD_IMG_SELECT_SLOT ≠ b2n true ∧
    ((updOpen 0).slotOf (b2n true)).state = 0 ∧ (updOpen 0).sc.regs.fld F.UPD_IMG_WRITE_LEN_LENGTH = 8 ∧
    ((updOpen 4).slotOf (b2n true)).state = 4 ∧ ((updOpen 1).slotOf (b2n true)).state = 1 ∧ ((updOpen 2).slotOf (b2n true)).state = 2 ∧
    (updOpen 2).sys.mode = 12 ∧ State.reset.m.sc.regs.lockOpen .upd = false ∧ State.reset.m.sys.mode ≠ 12 := by decide +kernel

theorem witness_SelectedSlotRefused : (updOpen 0).sc.regs.fld F.UPD_IMG_SELECT_SLOT = b2n false ∧
    (updOpen 0).sc.regs.fld F.UPD_IMG_SELECT_SLOT ≠ b2n true ∧ (updOpen 0).sc.regs.lockOpen .upd = true := by decide +kernel

theorem witness_EventStore :
    let m := (maint.m.putSc F.EVR_FETCH_COUNT_COUNT 1).putSc F.EVR_HEAD_SEQUENCE 10
    let f := { m with sc := { m.sc with fetching := some (0, 1, 0), clearing := true, flushing := true, unflushed := [1] } }
    m.sys.mode ≠ 13 ∧ m.sc.fetching = none ∧ 1 ≤ m.sc.regs.fld F.EVR_FETCH_COUNT_COUNT ∧
    m.sc.regs.fld F.EVR_FETCH_OFFSET_OFFSET % 32 = 0 ∧ f.sc.fetching = some (0, 1, 0) ∧ f.sc.clearing = true ∧ f.sc.flushing = true ∧
    f.sc.unflushed ≠ [] ∧ m.sc.unflushed = [] ∧ m.a.lifecycle ∈ [2, 3] ∧ m.sc.clearing = false ∧ m.sys.powerLoss = false ∧
    newer 32 (5 : W32).toNat (olderSeq (m.sc.regs.fld F.EVR_TAIL_SEQUENCE) (m.sc.regs.fld F.EVR_FLASH_TAIL_SEQUENCE)) = true ∧
    newer 32 (5 : W32).toNat (m.sc.regs.fld F.EVR_HEAD_SEQUENCE) = false ∧
    (st (fun m => m.mapLanes (fun x => { x with lifecycle := 1 }))).m.a.lifecycle = 1 := by decide +kernel

theorem witness_ReportsAndLinks :
    let e : Event := ⟨1, 0, 0, 0, 0, 0, true, false⟩
    let m := ((maint.m.putSc F.EVR_STATUS_RUNNING 1).updLane .b (fun x => { x with hostLink := true, events := [e] }))
    let n := { m with sc := { m.sc with waiting := [⟨e, 1⟩], perst := some 7 } }
    m.sc.regs.fld F.EVR_STATUS_RUNNING = 1 ∧ (m.lane .b).hostLink = true ∧ (m.lane .b).events = [e] ∧ m.sc.bufferFull = false ∧
    ({ m.sc with unflushed := [33554432] } : Sc).bufferFull = true ∧
    (State.reset.m.lane .b).events = [] ∧ n.sc.waiting = [⟨e, 1⟩] ∧ m.sc.waiting = [] ∧ m.sc.perst = none ∧ n.sc.perst = some 7 ∧
    (m.updLane .b (fun x => { x with hostLink := false })).b.hostLink = false := by decide +kernel

theorem witness_PerstResetsBridgeOnly : State.reset.m.sc.perst = none ∧
    ({ Mach.reset with sc := { Mach.reset.sc with perst := some 7 } } : Mach).sc.perst = some 7 := by decide

/-- Channel 11 of lane A set to move 128 bytes within the staging region. -/
def dmaReady : Mach :=
  let u := DmaUnit.lane .a
  ((((maint.m.dmaPut u F.DMA_CHn_COUNT_COUNT 11 128).dmaPut u F.DMA_CHn_SRC_LO_SRC 11 0x80000000).dmaPut u F.DMA_CHn_DST_LO_DST 11
    0x80001000).dmaPut u F.DMA_CHn_REMAIN_REMAIN 11 128).dmaPut u F.DMA_CHn_CTRL_SRC_SPACE 11 1

theorem witness_DmaMovesBytes : dmaReady.DramStart .a 11 0x80110000 0 ∧ dmaReady.DramStart .a 11 0x84110000 1 ∧
    dmaReady.DramStart .a 11 0x88110000 2 ∧ bitOf 0x88110000 25 = false ∧ Memory.wf (dmaReady.lane .a).dram = true ∧
    (maint.m.dmaSet (.lane .a) 0 0x84110000).dmaCheck (.lane .a) 0 = 5 := by
  unfold Mach.DramStart; decide +kernel

theorem witness_DmaMovesBytes_running :
    let u := DmaUnit.lane .a
    let m := (dmaReady.dmaPut u F.DMA_CHn_CTRL_DST_SPACE 11 1).dmaPut u F.DMA_CHn_STATUS_STATE 11 1
    m.dmaState u 11 = 1 ∧ m.dmaOutranked u 11 = false ∧ (m.xfer u 11).count = 128 ∧ (m.xfer u 11).srcSpace = 1 ∧
    (m.xfer u 11).dstSpace = 1 ∧ (m.xfer u 11).op = 0 ∧ (m.dmaPut u F.DMA_CHn_STATUS_STATE 11 3).dmaState u 11 = 3 := by
  decide +kernel

theorem witness_CheckUnitsWork :
    let x := maint.m.lane .c
    let y := (x.regs.put (F.CRC_SCANm_ADDR_LO_ADDR 1) 4)
    x.scanCheck 1 0 = 0 ∧ x.scanCheck 1 2 = 0 ∧ ({ x with regs := y } : Lane).scanCheck 1 0 = 3 ∧
    x.regs.fld (F.CRC_SCANm_STATUS_STATE 1) ≠ 1 ∧ maint.m.scanReserved .c 1 = false ∧
    (({ maint.m with sys := { maint.m.sys with bc := 14 } } : Mach).mapLanes (fun x => { x with scanned := true })).scanReserved .c 0 = true ∧
    (x.regs.put (F.CRC_SCANm_STATUS_STATE 1) 1).fld (F.CRC_SCANm_STATUS_STATE 1) = 1 ∧ x.regs.fld (F.CRC_SCANm_POS_POS 1) = 0 ∧
    x.regs.pair (F.CRC_SCANm_RUNNING_LO_RUNNING 1) (F.CRC_SCANm_RUNNING_HI_RUNNING 1) = crcInit 0 ∧
    maint.m.channelsOn x = true ∧ (inMode 6).m.channelsOn x = false ∧ (1 : BitVec 2).toNat < 2 ∧ 2 ≤ (2 : BitVec 2).toNat := by
  decide +kernel

theorem witness_BistEnds :
    let s := stSys (fun x => { x with mode := 3, bistRun := [.lane .c], bistHost := [.lane .c] })
    let h := stSys (fun x => { x with mode := 12, bistRun := [.portHub, .lane .a] })
    .lane .c ∈ s.m.sys.bistRun ∧ .lane .c ∈ s.m.sys.bistHost ∧ s.m.sys.mode ≠ 12 ∧ .portHub ∉ s.m.sys.bistRun ∧ .portHub ∈ h.m.sys.bistRun ∧
    .portHub ∉ h.m.sys.bistHost ∧ h.m.sys.returning = false ∧ ∃ e ∈ h.m.sys.bistRun, e ≠ .portHub := by decide

theorem witness_UpdatesEnd :
    let p := { Mach.reset with sys := { Sys.reset with mode := 6 }, sc := { Sc.reset with probation := some 1, serviceS := 1800 } }
    let q := p.putSc F.UPD_PROBATION_CONFIRM_S 300
    (inMode 13).m.sys.mode = 13 ∧ (inMode 13).m.sys.rst = none ∧ (inMode 13).m.sys.rideOver = false ∧
    (inMode 13).m.patchForm ≠ none ∧ q.sc.probation ≠ none ∧
    q.sc.falling = false ∧ 300 ≤ q.sc.regs.fld F.UPD_PROBATION_CONFIRM_S ∧ q.confirming = true ∧ 1800 ≤ p.sc.serviceS ∧
    modeActive p.sys.mode = true ∧ State.reset.m.sc.probation = none := by decide +kernel

/-! ### Ports -/

/-- An image with one class 7 object on node 1 of port 0, a port of the mode given. -/
def ringImage (mode : Byte) : Mem :=
  [(0x1A, 2), (0x101, 1), (0x107, 1), (0x10E, 2), (0x117, 0x40), (0x121, 12), (0x12E, 0x10), (0x135, 0x10), (0x202, 7), (0x205, 1),
   (0x1000, mode), (0x1001, 1), (0x1002, 1), (0x1005, 2), (0x1006, 2), (0x1009, 3), (0x1040, 1), (0x2001, 1), (0x2010, 6), (0x2011, 1),
   (0x2016, 0xFF)]

/-- Port 0 runs in SERVICE_3, with a grant of node 1 and one of the module's own. -/
def portUp (mode : Byte) : Mach :=
  ((running 6 3).mapLanes (fun x => { x with dram := ringImage mode })).updPort 0 (fun q =>
    { q with running := true, commanding := true, grants := [⟨1, 2, 0, 4000⟩, ⟨0, 4, 100, frameUnits 16⟩, ⟨0, 4, 200, frameUnits 76⟩],
             own := [(4, 1, 10, []), (4, 1, 8, [])] })

/-- A frame of node 1 of port 0 for the module. -/
def nodeFrame (type : Nat) (pay : List Byte) : RxFrame :=
  ⟨frameBytes (huskBytes ⟨0, false, 0, 0, 0, 0, 9, 0, 0⟩ type false 0 1 pay.length) pay, 0, 100⟩

def inputPay : List Byte := List.replicate 5 0 ++ [1] ++ List.replicate 8 0

theorem witness_NodeFramesTaken : (portUp 1).Accepts 0 (nodeFrame 4 (List.replicate 16 0)) 4 ∧ (portUp 1).Accepts 0 (nodeFrame 5 []) 5 ∧
    (portUp 1).Accepts 0 (nodeFrame 6 []) 6 ∧ (portUp 1).Accepts 0 (nodeFrame 10 (2 :: List.replicate 15 0)) 10 ∧
    (portUp 1).Accepts 0 (nodeFrame 9 (List.replicate 4 0)) 9 ∧ (portUp 1).Accepts 0 (nodeFrame 7 (List.replicate 24 0)) 7 := by
  unfold Mach.Accepts Mach.Guarded Mach.Unbarred
  refine ⟨?_, ?_, ?_, ?_, ?_, ?_⟩ <;> decide +kernel

theorem witness_NodeFramesTaken_input : (portUp 1).Accepts 0 (nodeFrame 3 inputPay) 3 := by
  unfold Mach.Accepts Mach.Guarded Mach.Unbarred; decide +kernel

theorem witness_NodeFramesTaken_reply :
    let rx := nodeFrame 12 inputPay
    let r : RxFrame := ⟨rx.bytes, 2000, 2100⟩
    (portUp 2).Accepts 0 r 12 := by unfold Mach.Accepts Mach.Guarded Mach.Unbarred; decide +kernel

theorem witness_NodeFramesTaken_refused :
    let bad : RxFrame := nodeFrame 3 []
    let cut : RxFrame := ⟨[], 1000000, 1000100⟩
    let late : RxFrame := ⟨(nodeFrame 5 []).bytes, 1000000, 1000100⟩
    let source := fun (a : Nat) => frameBytes (huskBytes ⟨0, false, 0, 0, 0, 0, 9, 0, 0⟩ 3 false 0 a inputPay.length) inputPay
    (portUp 1).Guarded 0 bad ∧ (portUp 1).Unbarred 0 bad ∧ ((portUp 1).guardian 0 bad).1 = 0 ∧
    (portUp 1).discardReason 0 ((portUp 1).guardian 0 bad).2.1 bad.bytes = some 2 ∧ (portUp 1).Guarded 0 cut ∧ ((portUp 1).guardian 0 cut).1 ≠ 0 ∧
    frameWhole cut.bytes = false ∧ (portUp 1).Guarded 0 late ∧ ((portUp 1).guardian 0 late).1 ≠ 0 ∧ frameWhole late.bytes = true ∧
    badIndex (source 65) = true ∧ ownReturn 0 (source 65) = false ∧ ownReturn 0 (source 0) = true ∧
    (portUp 1).portImg.hasNode 0 1 = true ∧ (portUp 1).portImg.portMode 0 = 1 := by
  unfold Mach.Guarded Mach.Unbarred; decide +kernel

theorem witness_PortsSend :
    let m := { portUp 1 with ph := { (portUp 1).ph with frames := [(1, some ([], 0, [0, 0, 0]))] } }
    (State.reset.m.port 0).running = false ∧ (m.port 0).running = true ∧ (m.port 0).commanding = true ∧
    m.assembled 0 1 = some ([], 0, [0, 0, 0]) ∧ m.portImg.portMode 0 = 1 ∧ (portUp 2).portImg.portMode 0 = 2 ∧
    (m.takeOwn 0 (nodeAddr 0 1) 10 16).isSome = true ∧ State.reset.m.takeOwn 0 1 10 16 = none := by decide +kernel

/-- Node 1 of port 0 with a communication state. -/
def commAt (c : NodeComm) (mode : Byte) : Mach := (portUp mode).updComm everyLane 1 (fun _ => c)

theorem witness_NodesKept :
    let m := commAt ⟨0, 2, 0, 0, 0⟩ 1
    let n := commAt ⟨1, 0, 2, 0, 0⟩ 1
    let l := (commAt ⟨1, 0, 0, 0, 0⟩ 1).updSys (fun s => { s with cluster := 3 })
    let a := (commAt ⟨2, 0, 0, 0, 0⟩ 1).updNode 1 (fun x => { x with request := some (be 1 0) })
    let j := (commAt ⟨3, 0, 0, 0, 0⟩ 1).updNode 1 (fun x => { x with entry := some 0 })
    let q := (commAt ⟨4, 0, 0, 0, 0⟩ 1).updNode 1 (fun x => { x with quarantined := true })
    let q2 := q.updSys (fun s => { s with cluster := q.ph.regs.fld F.STG_QUAR_CFG_HOLD })
    let h := (commAt ⟨4, 0, 0, 0, 0⟩ 1).updNode 1 (fun x => { x with held := true })
    let p := (commAt ⟨0, 0, 0, 0, 0⟩ 2).updNode 1 (fun x => { x with silent := 2 })
    (m.port 0).running = true ∧ m.portImg.hasNode 0 1 = true ∧ m.portImg.portMode 0 = 1 ∧ (m.node 1).copies = [] ∧
    (m.comm 1).state = 0 ∧ m.portImg.lossLimit (nodePort 1) ≤ (m.comm 1).lost ∧ (n.comm 1).state = 1 ∧
    n.portImg.restoreCount (nodePort 1) ≤ (n.comm 1).restore ∧ (l.comm 1).since + l.portImg.leaveLimit (nodePort 1) ≤ l.sys.cluster ∧
    (a.node 1).request = some (be 1 0) ∧ (a.takeOwn 0 1 8 joinGrantLen).isSome = true ∧ (a.comm 1).state = 2 ∧
    (j.node 1).entry = some 0 ∧ (j.comm 1).state = 3 ∧ 0 ≤ j.sys.cluster ∧ (q2.node 1).quarantined = true ∧
    (q2.node 1).quarAt + q2.ph.regs.fld F.STG_QUAR_CFG_HOLD ≤ q2.sys.cluster ∧ (h.node 1).held = true ∧
    p.portImg.portMode 0 = 2 ∧ 2 ≤ (p.node 1).silent := by decide +kernel

theorem witness_NodesKept_input :
    let m := (commAt ⟨1, 1, 254, 0, 0⟩ 1).updNode 1 (fun x => { x with copies := [⟨0, 3, 9, 0, true, inputPay⟩] })
    (m.node 1).copies = [⟨0, 3, 9, 0, true, inputPay⟩] ∧ (m.comm 1).state = 1 ∧ m.portImg.hasNode 0 1 = true := by decide +kernel

theorem witness_RingsAndSchedules :
    let m := portUp 1
    let s := (m.updPort 0 (fun q => { q with split := true, good := 16 })).updSys (fun x => { x with boundary := true })
    let o := m.updPort 0 (fun q => { q with westUp := false })
    let j := m.updPort 0 (fun q => { q with joinIndex := 64, started := 16, maxL := 1, missed := 1 })
    let a := m.updPort 0 (fun q => { q with announcing := true, target := 1, bc := m.portImg.perCluster 0 - 1 })
    (m.port 0).running = true ∧ m.portImg.portMode 0 = 1 ∧ (m.port 0).split = false ∧ (m.port 0).eastUp = true ∧
    m.inTime 0 0 = true ∧ m.inTime 0 100000000 = false ∧ (o.port 0).eastUp ≠ (o.port 0).westUp ∧ s.sys.boundary = true ∧
    (a.port 0).bc + 1 = a.portImg.perCluster 0 ∧ (State.reset.m.port 0).running = false ∧
    (m.port 0).westUp = true ∧ (m.port 0).missed = 0 ∧ 1 ≤ (j.port 0).missed ∧ (s.port 0).split = true ∧ 16 ≤ (s.port 0).good ∧
    (m.port 0).joinIndex = 0 ∧ (j.port 0).joinIndex ≠ 0 ∧ (j.port 0).checked = false ∧ 16 ≤ (j.port 0).started ∧
    j.portImg.ringMax 0 * 1000 < (j.port 0).maxL ∧ (m.port 0).maxL ≤ m.portImg.ringMax 0 * 1000 ∧
    (a.port 0).announcing = true ∧ (a.sys.cluster + 1) % 16 = (a.port 0).target ∧ (a.port 0).decided = none ∧ a.nacks 0 = [] ∧
    (a.updComm everyLane 1 (fun _ => ⟨0, 0, 0, 0, 0⟩)).nacks 0 ≠ [] := by decide +kernel
/-! ### Federation, pair, time, DIO -/

/-- An image that imports object 5 from module 3. -/
def fedImage : Mem := [(0x1A, 1), (0x101, 13), (0x10E, 2), (0x116, 4), (0x203, 1), (0x311, 5), (0x312, 3)]

/-- In SERVICE_3 with that image, the federation enabled, as one of a pair. -/
def fedUp : Mach :=
  (((running 6 3).mapLanes (fun x => { x with dram := fedImage })).putAll F.FED_CFG_ENABLE 1).putAll F.RED_PAIR_CFG_PAIRED 1

/-- The header and the payload of a message of module `source` to module 0. -/
def messageBody (type source seq : Nat) (pay : List Byte) : List Byte :=
  be 1 type ++ be 1 1 ++ be 2 0 ++ be 1 source ++ be 1 0 ++ be 2 0 ++ be 4 0 ++ be 4 0 ++ be 4 seq ++ be 2 pay.length ++
    be 2 0 ++ be 8 250000 ++ pay

/-- A body in its Ethernet header, with the codes of the three lanes. -/
def messageFrame (body : List Byte) : List Byte :=
  let code := fun (l : LaneId) => be 4 (laneCode (laneSeed l) 0 body).toNat
  let f := (List.replicate 12 0 ++ be 2 (fedUp.fld F.FED_CFG_ETHERTYPE) ++ body) ++ (code .a ++ (code .b ++ code .c))
  f ++ fcs f

def message (type source seq : Nat) (pay : List Byte) : List Byte := messageFrame (messageBody type source seq pay)

/-- BLOCKED and RESTRICTED of object 5. -/
def boundaryPay : List Byte := [0, 1, 0, 0, 0xC0, 5, 0, 0]

theorem be_length (n v : Nat) : (be n v).length = n := by
  induction n with
  | zero => rfl
  | succ n ih => simp [be, ih]

theorem fcs_length (l : List Byte) : (fcs l).length = 4 := by simp [fcs, be_length]

/-- The last four bytes of a framed string are its frame check sequence. -/
theorem fcs_checks (f : List Byte) (n : Nat) (h : f.length = n) : (f ++ fcs f).drop n = fcs ((f ++ fcs f).take n) := by
  rw [List.drop_left' h, List.take_left' h]

/-- The three lane codes of a body. -/
def codesOf (body : List Byte) : List Byte := be 4 (laneCode (laneSeed .a) 0 body).toNat ++
  (be 4 (laneCode (laneSeed .b) 0 body).toNat ++ be 4 (laneCode (laneSeed .c) 0 body).toNat)

theorem codesOf_length (body : List Byte) : (codesOf body).length = 12 := by simp [codesOf, be_length]

/-- A framed body reads as whole, with its codes, where its LENGTH is right. -/
theorem frame_reads (body : List Byte) (n : Nat) (h : body.length = 32 + n) (e : rd (messageFrame body) 34 2 = n) :
    (readMsg (messageFrame body)).whole = true ∧ (readMsg (messageFrame body)).codes = codesOf body := by
  have k : messageFrame body = ((List.replicate 12 0 ++ be 2 (fedUp.fld F.FED_CFG_ETHERTYPE) ++ body) ++ codesOf body) ++
    fcs ((List.replicate 12 0 ++ be 2 (fedUp.fld F.FED_CFG_ETHERTYPE) ++ body) ++ codesOf body) := rfl
  have hn : (messageFrame body).length = 62 + n := by simp [k, be_length, fcs_length, codesOf_length, h]; omega
  refine ⟨?_, ?_⟩
  · have c := fcs_checks ((List.replicate 12 0 ++ be 2 (fedUp.fld F.FED_CFG_ETHERTYPE) ++ body) ++ codesOf body) (58 + n)
      (by simp [be_length, codesOf_length, h]; omega)
    rw [← k] at c
    have e4 : 62 + n - 4 = 58 + n := by omega
    simp only [readMsg, e, hn, e4, c, Nat.add_comm n 62, Nat.le_add_right, decide_true, Bool.and_self]
  · have l : (List.replicate 12 0 ++ be 2 (fedUp.fld F.FED_CFG_ETHERTYPE) ++ body).length = 46 + n := by simp [be_length, h]; omega
    simp only [readMsg, e]
    rw [k, List.append_assoc, List.drop_left' l, List.take_left' (codesOf_length body)]

/-- Codes over a message's own bytes verify. -/
theorem codes_verify (i : Img) (g : FedMsg) (body : List Byte) (hk : i.rxKey g = 0) (hb : g.head ++ g.payload = body)
    (hc : g.codes = codesOf body) : i.codesOk g = true := by
  simp only [Img.codesOk, hk, hb, hc, codesOf]
  simp [laneIds, laneIx, be_length, List.take_left', List.drop_left', List.filter]

/-- A message of the tests is whole and verifies under the key zero. -/
theorem message_verifies (i : Img) (type source seq : Nat) (pay : List Byte) (n : Nat)
    (h : (messageBody type source seq pay).length = 32 + n) (e : rd (message type source seq pay) 34 2 = n)
    (k : i.rxKey (readMsg (message type source seq pay)) = 0)
    (b : (readMsg (message type source seq pay)).head ++ (readMsg (message type source seq pay)).payload = messageBody type source seq pay) :
    (readMsg (message type source seq pay)).whole = true ∧ i.codesOk (readMsg (message type source seq pay)) = true :=
  have r := frame_reads (messageBody type source seq pay) n h e
  ⟨r.1, codes_verify i _ _ k b r.2⟩

theorem witness_FederationMessages :
    fedUp.Receives .netA (message 1 3 7 boundaryPay) 251000 1 := by
  have v := message_verifies fedUp.leadLane.img 1 3 7 boundaryPay 8 (by decide +kernel) (by decide +kernel) (by decide +kernel)
    (by decide +kernel)
  refine ⟨by decide +kernel, by decide +kernel, by decide +kernel, ?_, by decide +kernel⟩
  unfold Mach.fedReason; simp only [v.1, v.2]; decide +kernel

theorem witness_FederationMessages_B :
    fedUp.Receives .netB (message 2 3 7 (List.replicate 16 0)) 251000 2 := by
  have v := message_verifies fedUp.leadLane.img 2 3 7 (List.replicate 16 0) 16 (by decide +kernel) (by decide +kernel) (by decide +kernel)
    (by decide +kernel)
  refine ⟨by decide +kernel, by decide +kernel, by decide +kernel, ?_, by decide +kernel⟩
  unfold Mach.fedReason; simp only [v.1, v.2]; decide +kernel

theorem witness_FederationMessages_loose :
    fedUp.Receives .netA (message 3 3 7 (List.replicate 16 0)) 0 3 := by
  have v := message_verifies fedUp.leadLane.img 3 3 7 (List.replicate 16 0) 16 (by decide +kernel) (by decide +kernel) (by decide +kernel)
    (by decide +kernel)
  refine ⟨by decide +kernel, by decide +kernel, by decide +kernel, ?_, by decide +kernel⟩
  unfold Mach.fedReason; simp only [v.1, v.2]; decide +kernel

theorem witness_FederationMessages_health :
    fedUp.Receives .pair (message 4 0 7 (List.replicate 16 0)) 251000 4 ∧ fedUp.sys.mode ≠ 4 ∧ fedUp.sys.mode ≠ 8 ∧
    modeActive fedUp.sys.mode = true := by
  have v := message_verifies fedUp.leadLane.img 4 0 7 (List.replicate 16 0) 16 (by decide +kernel) (by decide +kernel) (by decide +kernel)
    (by decide +kernel)
  refine ⟨⟨by decide +kernel, by decide +kernel, by decide +kernel, ?_, by decide +kernel⟩, by decide +kernel⟩
  unfold Mach.fedReason; simp only [v.1, v.2]; decide +kernel

theorem witness_FederationMessages_5 :
    fedUp.Receives .pair (message 5 0 7 (List.replicate 16 0)) 251000 5 := by
  have v := message_verifies fedUp.leadLane.img 5 0 7 (List.replicate 16 0) 16 (by decide +kernel) (by decide +kernel) (by decide +kernel)
    (by decide +kernel)
  refine ⟨by decide +kernel, by decide +kernel, by decide +kernel, ?_, by decide +kernel⟩
  unfold Mach.fedReason; simp only [v.1, v.2]; decide +kernel

theorem witness_FederationMessages_7 :
    fedUp.Receives .pair (message 7 0 7 (List.replicate 8 0)) 251000 7 := by
  have v := message_verifies fedUp.leadLane.img 7 0 7 (List.replicate 8 0) 8 (by decide +kernel) (by decide +kernel) (by decide +kernel)
    (by decide +kernel)
  refine ⟨by decide +kernel, by decide +kernel, by decide +kernel, ?_, by decide +kernel⟩
  unfold Mach.fedReason; simp only [v.1, v.2]; decide +kernel

/-- A block of 1,024 bytes of zeros, the first of a full snapshot. -/
def seedPay : List Byte := be 1 1 ++ List.replicate 36 0 ++ [0, 0, 0] ++ List.replicate 13 0 ++ [0, 32, 0, 0] ++ List.replicate 983 0

theorem witness_FederationMessages_seed :
    (fedUp.updSys (fun s => { s with mode := 8 })).Receives .pair (message 6 0 7 seedPay) 251000 6 := by
  have v := message_verifies (fedUp.updSys (fun s => { s with mode := 8 })).leadLane.img 6 0 7 seedPay 1040 (by decide +kernel)
    (by decide +kernel) (by decide +kernel) (by decide +kernel)
  refine ⟨by decide +kernel, by decide +kernel, by decide +kernel, ?_, by decide +kernel⟩
  unfold Mach.fedReason; simp only [v.1, v.2]; decide +kernel

theorem witness_FederationMessages_block :
    (readMsg (message 6 0 7 seedPay)).imageId = fedUp.leadLane.img.imageId ∧
    rd seedPay 0 1 = 1 ∧ rd seedPay 4 4 = 0 ∧ (seedPay.drop 16).length < streamLength 1 (seedPay.drop 16) := by decide +kernel

theorem witness_FederationMessages_refused : fedUp.hasImage = true ∧ fedUp.fld F.FED_CFG_ENABLE ≠ 0 ∧ fedUp.paired = true ∧
    fedUp.fedReason .netA (readMsg []) 0 = some 1 ∧ fedUp.fedReason .pair (readMsg (message 4 0 7 (List.replicate 16 0))) 900000000 = some 5 := by
  have v := message_verifies fedUp.leadLane.img 4 0 7 (List.replicate 16 0) 16 (by decide +kernel) (by decide +kernel)
    (by decide +kernel) (by decide +kernel)
  refine ⟨by decide +kernel, by decide +kernel, by decide +kernel, by decide +kernel, ?_⟩
  unfold Mach.fedReason; simp only [v.1, v.2]; decide +kernel

theorem witness_FederationMessages_copies :
    let c : Nat × Nat × Nat × List Byte := (7, netIx .netB, 251000, boundaryPay)
    let m := fedUp.updSource 3 (fun s => { s with copies := [c] })
    let g := readMsg (message 1 3 7 boundaryPay)
    m.Receives .netA (message 1 3 7 boundaryPay) 251000 1 ∧ ((boundaryEntries g.payload).map (fun e => e.1)).Nodup ∧
    (m.source g.source).copies.find? (fun c => decide (c.2.1 ≠ netIx .netA)) = some (g.seq, netIx .netB, 251000, g.payload) := by
  intro c m g
  have v := message_verifies m.leadLane.img 1 3 7 boundaryPay 8 (by decide +kernel) (by decide +kernel) (by decide +kernel)
    (by decide +kernel)
  refine ⟨⟨by decide +kernel, by decide +kernel, by decide +kernel, ?_, by decide +kernel⟩, by decide +kernel⟩
  unfold Mach.fedReason; simp only [v.1, v.2]; decide +kernel

theorem witness_FederationState :
    let s := fedUp.updLane .b (fun x => x.updSrc 15 (fun k => { k with silent := fedUp.fld F.FED_CFG_LOSS_LIMIT, run := 16 }))
    let g := fedUp.mapLanes (fun x => x.updSrc 15 (fun k => { k with silent := 0 }))
    let n := { fedUp with fed := { fedUp.fed with silA := 16, silB := 0, runA := 16, runB := 16 } }
    let o := n.putAll F.FED_NETS_SINGLE 1
    let d := (fedUp.putAll F.FED_DUPLICATE_MODULES 0x8000).updSys (fun x => { x with cluster := 64 })
    let l := { fedUp with fed := { fedUp.fed with startState := 1 } }
    let c := { fedUp with fed := { fedUp.fed with startState := 2 } }
    s.fld F.FED_CFG_LOSS_LIMIT ≤ ((s.lane .b).srcOf 15).silent ∧ 16 ≤ ((s.lane .b).srcOf 15).run ∧
    (laneIds.all (fun l => decide (((g.lane l).srcOf 15).run < 16) && decide (((g.lane l).srcOf 15).silent < g.fld F.FED_CFG_LOSS_LIMIT))) = true ∧
    16 ≤ n.fed.silA ∧ n.fed.silB < 16 ∧ n.fld F.FED_NETS_SINGLE = 0 ∧ o.fld F.FED_NETS_SINGLE = 1 ∧ 16 ≤ o.fed.runA ∧ 16 ≤ o.fed.runB ∧
    bitOf (d.fld F.FED_DUPLICATE_MODULES) 15 = true ∧ (d.source 15).dupAt + 64 ≤ d.sys.cluster ∧
    fedUp.sys.cluster < (fedUp.source 15).dupAt + 64 ∧ l.fed.startState = 1 ∧ l.fld F.RED_PAIR_CFG_UNIT = 0 ∧ c.fed.startState = 2 ∧
    3 ≤ (laneIds.filter c.speaks).length ∧ ({ fedUp with fed := { fedUp.fed with startState := 3 } } : Mach).fed.startState = 3 := by
  decide +kernel

theorem witness_FederationState_expiry :
    let m := ((fedUp.putAll F.FED_NETS_SINGLE 1).putAll F.RED_DEGRADED_LIMIT_HOURS 1).putAll F.FED_SINGLE_ELAPSED_SECONDS 3600
    m.fld F.FED_NETS_SINGLE = 1 ∧ m.fld F.FED_NETS_EXPIRED = 0 ∧
    m.fld F.RED_DEGRADED_LIMIT_HOURS * 3600 ≤ m.fld F.FED_SINGLE_ELAPSED_SECONDS := by decide +kernel

/-- In STANDBY as unit 0, fit, at a boundary. -/
def standby : Mach :=
  ((fedUp.putAll F.RED_PAIR_STATUS_FIT 1).putAll F.RED_PAIR_STATUS_HOLD_ELAPSED 65535).updSys (fun s => { s with mode := 8, boundary := true, cluster := 5 })

theorem witness_StandbyTakesOver :
    let q := { standby with fed := { standby.fed with quiet := 8 } }
    let d := { standby with fed := { standby.fed with decided := some (5, 3) } }
    let t := { standby with fed := { standby.fed with testLane := some .b } }
    let e := standby.updSource 0 (fun s => { s with epoch := some 9 })
    let b := (nodeFrame 1 []).bytes
    e.hasImage = true ∧ e.forwards 15 = true ∧ Mach.reset.forwards 0 = false ∧ frameWhole b = true ∧ (readHusk b).type = 1 ∧
    (readHusk b).imageId = e.leadLane.img.imageId ∧ frameWhole (b.drop 1) = false ∧ e.sys.mode = 8 ∧
    (e.source e.leadLane.img.moduleNumber).epoch = some 9 ∧ 8 ≤ q.fed.quiet ∧ q.fed.decided = none ∧
    q.fld F.RED_PAIR_STATUS_FIT = 1 ∧ d.fed.decided = some (5, 3) ∧ 5 ≤ d.sys.cluster ∧ d.sys.boundary = true ∧
    modeActive fedUp.sys.mode = true ∧ fedUp.paired = true ∧
    2 ≤ fedUp.healthAge ∧ ({ fedUp with fed := { fedUp.fed with healthAt := some 0 } } : Mach).healthAge < 2 ∧
    standby.fed.testLane = none ∧ standby.fed.testTurn = laneIx .a ∧ (standby.lane .a).role = .serving ∧
    t.fed.testLane = some .b ∧ t.fed.voids = 0 ∧ t.bistOf (.lane .b) ⟨0, 0, 0, true, 80, 90, 0, 0, 0⟩ 3 ≠ 0 := by decide +kernel

theorem witness_StandbyTakesOver_own :
    let o := { standby with fed := { standby.fed with decided := some (5, 2) } }
    let t := { standby with fed := { standby.fed with testLane := some .b } }
    o.fed.ownDecision = true ∧ { standby.fed with decided := some (5, 3) }.ownDecision = false ∧ standby.fed.ownDecision = false ∧
    standby.preempted = false ∧ t.bistOf (.lane .b) goodRun 3 = 1 ∧ t.bistOf (.lane .b) ⟨0, 0, 0, true, 80, 90, 0, 0, 0⟩ 3 = 3 ∧
    (t.mapLanes (fun x => { x with dram := [] })).scanOk .b false = true := by decide +kernel

theorem witness_HandbackSteps :
    let r := { standby.mapLanes (fun x => { x with sb := { x.sb with full := true } }) with
      fed := { standby.fed with testedAt := [(0, 1), (1, 1), (2, 1)] } }
    let a := { fedUp.updSys (fun s => { s with boundary := true }) with fed := { fedUp.fed with ready := true, partnerFit := true } }
    let h := { fedUp.updSys (fun s => { s with boundary := true, mode := 11, cluster := 5 }) with
      fed := { fedUp.fed with handback := some 5, healthAt := some 4 } }
    let f := { h with fed := { h.fed with final := true, finalApplied := true } }
    r.sys.mode = 8 ∧ r.paired = true ∧ r.fld F.RED_PAIR_CFG_UNIT = 0 ∧ r.fld F.RED_PAIR_STATUS_FIT = 1 ∧
    r.fld F.RED_PAIR_CFG_RETURN_HOLD ≤ r.fld F.RED_PAIR_STATUS_HOLD_ELAPSED ∧
    (Store.get zeroNat r.fed.testedAt 2 ≠ 0) ∧ r.leadLane.sb.full = true ∧ a.sys.boundary = true ∧ a.paired = true ∧ a.sys.mode ∈ [6, 7] ∧
    a.fed.ready = true ∧ a.fed.partnerFit = true ∧ a.sys.darnDue = false ∧ a.fld F.RED_PAIR_CFG_HANDBACK_HOLD = 0 ∧
    h.fed.handback = some 5 ∧ h.sys.mode = 11 ∧ h.sys.boundary = true ∧ 5 ≤ h.sys.cluster ∧ h.fed.final = false ∧
    h.fed.partnerFit = false ∧ Settled ⟨f, []⟩ ∧ f.fed.final = true ∧ f.fed.finalApplied = true ∧ 1 ≤ f.healthAge ∧
    State.reset.m.fed.handback = none := by unfold Settled; decide +kernel

/-- PTP on network A, with a master and one path delay. -/
def ptpUp (state : Nat) : Mach :=
  let m := (((running 6 3).putAll F.TSU_PTP_CFG_ENABLE 1).putAll F.TSU_PTP_CFG_NETS 3).putAll F.TSU_PTP_STATE state
  (m.putAll F.TSU_PTP_NET 1).setPtp .netA ⟨some ⟨1, 6, 0, 0, 1, 5, 0⟩, false, [2000], []⟩

theorem witness_PtpKept :
    let m := ptpUp 3
    let h := (ptpUp 4).putAll F.TSU_STATUS_HOLDOVER 1
    let o : Rat := (((3001 : Int) - 0 : Int) : Rat) - 1000
    (Mach.reset.putAll F.TSU_PTP_CFG_ENABLE 0).netOn .netA = false ∧ m.netOn .netA = true ∧ (m.ptp .netA).isMaster = false ∧ (m.ptp .netA).mean = some 1000 ∧
    (ptpUp 1).fld F.TSU_PTP_STATE ∉ [2, 3] ∧ m.fld F.TSU_PTP_STATE = 3 ∧ netOf (m.fld F.TSU_PTP_NET) = .netA ∧ m.fed.stepDue = false ∧
    2000 < ratAbs o ∧ ratAbs (o - 1) ≤ 2000 ∧ m.fld F.TSU_PTP_NET ≠ 0 ∧ h.fld F.TSU_PTP_STATE ∈ [2, 4] ∧
    h.fld F.TSU_STATUS_HOLDOVER = 1 ∧ m.fld F.TSU_STATUS_HOLDOVER = 0 ∧ (m.ptp .netA).master ≠ none ∧
    dsBetter ⟨0, 6, 0, 0, 1, 9, 0⟩ ⟨1, 6, 0, 0, 1, 5, 0⟩ = true ∧ dsBetter ⟨2, 6, 0, 0, 1, 9, 0⟩ ⟨1, 6, 0, 0, 1, 5, 0⟩ = false ∧
    (m.setPtp .netB { Ptp.reset with isMaster := true }).netOn .netB = true := by decide +kernel

/-- The timeout of network A was started before that of network B; and no network has a slave. -/
theorem witness_PtpKept_timeout :
    let m := ptpUp 3
    let b := { m with fed := { m.fed with ptpLast := some .netB } }
    let o := (m.setPtp .netA { Ptp.reset with isMaster := true }).setPtp .netB { Ptp.reset with isMaster := true }
    b.fld F.TSU_PTP_STATE ≠ 0 ∧ b.netOn .netA = true ∧ (b.ptp .netA).isMaster = false ∧
    (∀ k ∈ b.ptpNets, (b.ptp k).isMaster = false → k = .netA ∨ b.fed.ptpLast = some k) ∧
    (∀ k ∈ o.ptpNets, (o.ptp k).isMaster = true) ∧ o.ptpNets ≠ [] := by decide +kernel

theorem witness_DioKept :
    let d := { Dio.reset with demag := setBit64 0 63 true, prevWord := setBit64 0 15 true, rbCount := [(63, 8)], disagree := [(191, 16)],
                              senseBad := [(5, 2)] }
    W64.bit d.demag 63 = true ∧ W64.bit d.demag 0 = false ∧ W64.bit d.prevWord 15 = true ∧ W64.bit (d.deferred ||| d.overload) 15 = false ∧
    120 ≤ (120 : BitVec 8).toNat ∧ 2 ≤ (running 6 3).sys.mode ∧ (d.setGroup 3 2).groupAt 3 = 2 ∧ ¬2 ≤ (inMode 1).m.sys.mode ∧
    8 ≤ Store.get zeroNat d.rbCount 63 ∧ Store.get zeroNat d.rbCount 63 ≠ 255 ∧ 16 ≤ Store.get zeroNat d.disagree (laneIx .c * 64 + 63) ∧
    d.senseFault .c = true ∧ d.senseFault .a = false ∧ (running 6 3).sys.originAgreed = true ∧ (running 6 3).sys.preOrigin = false := by decide +kernel

theorem witness_RestartRequests : (Instr.restartOrWake 0x1002 0).wf = true ∧ maint.m.Authorised 0x1002 ∧ maint.m.sys.rst = none ∧
    maint.m.sys.mode ∈ [12, 14] ∧ maint.m.participants ≠ [] ∧ (∀ l ∈ maint.m.participants, maint.m.mute 0 l = false) ∧
    (inMode 1).m.Authorised 0x1002 ∧ (inMode 6).m.sys.mode ∉ [1, 12, 14] ∧ (inMode 6).m.participants ≠ [] := by
  unfold Mach.Authorised; decide +kernel

theorem witness_ModeStaysLegal : Steps State.reset State.reset ∧ State.reset.m.sys.mode ≤ 14 := ⟨rfl, by decide⟩

theorem witness_SafeHaltHolds : Steps (inMode 14) (inMode 14) ∧ (inMode 14).m.sys.mode = 14 ∧ (inMode 14).m.sys.holdupWait = false ∧
    (inMode 14).m.sys.pendingReq = none := ⟨rfl, rfl, rfl, rfl⟩

/-! ### Clauses of the last review -/

/-- Readiness lost while the module serves; an entry into LOAD that waits; a discharge that runs. -/
theorem witness_HoldupKept_test :
    let w := stSys (fun x => { x with mode := 3, holdupWait := true })
    let t := st (fun m => (m.updSys (fun x => { x with mode := 6, holdupReady := true })).putAll F.SYS_HOLDUP_TESTING 1)
    w.m.sys.holdupWait = true ∧ 40 ≤ (40 : W16).toNat ∧ t.m.fld F.SYS_HOLDUP_TESTING = 1 ∧ t.m.sys.holdupWait = false ∧
    t.m.sys.holdupReady = true ∧ (39 : W16).toNat < 40 ∧ modeActive t.m.sys.mode = true ∧ t.m.sys.powerLoss = false ∧
    w.m.fld F.SYS_HOLDUP_TESTING = 0 := by decide +kernel

/-- A reset that waits: due 1 ms after its edge, not yet due, and an edge that comes meanwhile. -/
theorem witness_ResetHonoured_due :
    let s := stSys (fun x => { x with rst := some 1, rstAt := 1000000, seconds := 1, us := 1000, mode := 6, front := ⟨true, false⟩ })
    s.m.sys.rst ≠ none ∧ 2 ≤ s.m.sys.mode ∧ s.m.sys.originAgreed = false ∧ s.m.sys.rstAt + 1000 ≤ s.m.upUs ∧ s.m.resetDue = true ∧
    s.m.sys.mode ≠ 13 ∧ (s.m.updSys (fun x => { x with us := 999 })).upUs < s.m.sys.rstAt + 1000 ∧ s.m.input .front = ⟨true, false⟩ ∧
    (stSys (fun x => { x with rear := ⟨true, true⟩ })).m.sys.mode ≠ 0 ∧
    ((stSys (fun x => { x with rear := ⟨true, true⟩ })).m.input .rear).stuck = true := by decide +kernel

/-- A supply that fell out in UPDATE; a second loss in SAFE_HALT with cause 10 that ended. -/
theorem witness_PowerRecoveryResets_halt :
    let h := st (fun m => (m.updSys (fun x => { x with feedB := true, mode := 14 })).putAll F.SYS_HALT_CAUSE 10)
    (h.m.sys.feedA || h.m.sys.feedB) = true ∧ h.m.sys.rst = none ∧ h.m.sys.mode = 14 ∧ h.m.fld F.SYS_HALT_CAUSE = 10 ∧
    h.m.sys.rideOver = false := by decide +kernel

/-- Firmware that does not verify. -/
theorem witness_BootAndSelfTestEnd_firmware :
    let s := st (fun m => { m with sc := { m.sc with running := [(2, { FwStore.factory 2 with whole := false })] } })
    s.m.sys.mode = 2 ∧ s.m.resetDue = false ∧ s.m.fusesAgree = true ∧ s.m.a.lifecycle ∈ [2, 3, 4] ∧ s.m.sc.verified = false := by
  decide +kernel

/-- A slot of one byte, lanes with their host links up, and a lane that has its outcome. -/
theorem witness_LoadStreamsAndJudges_bytes :
    let m := ((loadAt 2).m.setSlot 0 { FlashSlot.empty with len := 1, bytes := [(0, 0xFF)] }).updLane .c
      (fun x => { x with outcome := some (0, 0) })
    m.sys.mode = 4 ∧ m.fld F.SYS_IMG_LOAD_STEP = 2 ∧ (m.lane .a).outcome = none ∧ (m.lane .a).hostLink = true ∧
    0 < (m.slotOf m.sys.slot).len ∧ (m.lane .c).outcome ≠ none ∧ (loadAt 3).m.fld F.SYS_IMG_LOAD_STEP ≠ 2 := by decide +kernel

/-- Reads of the host that meet a cause, that have a side effect, and that return what is there. -/
theorem witness_HostReadsAndErrors_reads :
    let m := Mach.reset
    m.readFails true 0xE000000 4 = some 4 ∧ m.readFails false 0x8000 4096 = none ∧ m.readFails false 0x4000 4 = none ∧
    ((m.updLane .a (fun x => { x with hostLink := false })).readFails false 0x4000 4) = some 1 ∧
    (m.updLane .a (fun x => { x with hostLink := false })).readFails false 0x3FFC 4 = none ∧
    resultMailbox false 0x3134 4 = some 7 ∧ resultMailbox false 0x3134 8 = none ∧ resultMailbox false 0x8FFC 4 = none ∧
    bar0Page 0x8FFC = some .scdma ∧ sideRead 0x3130 4 = false := by decide +kernel

/-- A mailbox that takes commands; window 7 in its own byte order, at both ends of the staging area. -/
theorem witness_RegisterWrites_sizes :
    let m := ((maint.m.putSc (F.HBR_WIN_CFGn_ENABLE 7) 1).putSc (F.HBR_WIN_CFGn_TARGET 7) 4).putSc (F.HBR_WIN_BASE_LOn_BASE 7) 16
    m.sc.regs.fld (F.HBR_WIN_CFGn_ENABLE 7) = 1 ∧ m.sc.regs.fld (F.HBR_WIN_CFGn_TARGET 7) = 4 ∧ m.sc.regs.fld (F.HBR_WIN_CFGn_ORDER 7) = 0 ∧
    0x20000000 ≤ m.windowBase 7 + 0 ∧ m.windowBase 7 + 0x1FFFF00 + 256 ≤ 0x40000000 ∧ m.sys.mode ≠ 13 ∧ m.sys.mode = 12 := by decide +kernel

/-- A transfer that runs alone with a byte kept from before, one whose range has come to be protected, and a stop with a start that waits. -/
theorem witness_DmaMovesBytes_held :
    let u := DmaUnit.lane .a
    let m := ((dmaReady.dmaPut u F.DMA_CHn_CTRL_DST_SPACE 11 1).dmaPut u F.DMA_CHn_STATUS_STATE 11 1).dmaKeep u 11 [7]
    let p := m.updLane .a (fun x => { x with activeHi := true })
    let stop := (m.dmaPut u F.DMA_CHn_STATUS_STATE 11 3).dmaPut u F.DMA_CHn_STATUS_DEFERRED 11 1
    2 ≤ m.sys.mode ∧ m.dmaPeers u 11 = [] ∧ m.dmaKept u 11 = [7] ∧
    m.dmaShut u 11 (m.xfer u 11) 0x80001000 128 = false ∧ p.dmaShut u 11 (p.xfer u 11) 0x80001000 128 = true ∧
    stop.dmaState u 11 = 3 ∧ stop.dmaFld u F.DMA_CHn_STATUS_DEFERRED 11 = 1 ∧ m.dmaFld u F.DMA_CHn_STATUS_DEFERRED 11 = 0 ∧
    ¬2 ≤ (inMode 1).m.sys.mode := by decide +kernel

/-- Two lanes hand over; lane C is under test. -/
theorem witness_FramesAssembled_tested :
    let m := (running 6 3).updSys (fun s => { s with bistRun := [.lane .c] })
    m.speaks .a = true ∧ m.speaks .b = true ∧ m.speaks .c = false ∧ m.readmitDue = false := by decide +kernel

/-- A store that waits for a lane's records to be flushed. -/
theorem witness_ReportsAndLinks_full :
    let e : Event := ⟨1, 0, 0, 0, 0, 0, false, false⟩
    let m := (maint.m.putSc F.EVR_STATUS_RUNNING 1).updLane .b (fun x => { x with hostLink := true, events := [e] })
    let f := { m with sc := { m.sc with unflushed := [33554432] } }
    f.sc.bufferFull = true ∧ (f.lane .b).events = [e] ∧ f.sc.regs.fld F.EVR_STATUS_RUNNING = 1 := by decide +kernel

/-- A Patch for component 0 with an empty part. `part`: the seal of that part. -/
def patchHead (part : Nat) : List Byte :=
  be 4 0x414B5054 ++ be 2 1 ++ be 2 1 ++ be 4 5 ++ be 4 0 ++ be 8 96 ++ be 8 0 ++ be 8 0 ++ be 8 part ++ List.replicate 16 0

/-- In UPDATE with that Patch staged, signed under the empty key or not. -/
def patchStaged (part : Nat) (signed : Bool) : Mach :=
  let m := (inMode 13).m.putSc F.UPD_PATCH_LEN_LENGTH 96
  let h := patchHead part
  { m with sc := { m.sc with dram := m.sc.dram.write patchBase (h ++ (if signed then hmac [] h else List.replicate 32 0)) } }

theorem witness_UpdatesEnd_patch :
    let m := patchStaged (crc64 []).toNat true
    m.patchForm = none ∧ m.sc.falling = false ∧ (m.patchWrite (fun _ => some true)).sc.verified = true ∧
    (m.patchPending).sc.pending = some 1 := by decide +kernel

theorem witness_UpdatesEnd_unsigned :
    let m := patchStaged (crc64 []).toNat false
    m.patchForm = none ∧ (m.patchWrite (fun _ => some true)).sc.verified = false ∧ m.sc.pending = none ∧ m.sc.probation = none ∧
    (inMode 13).m.sc.verified = true := by decide +kernel

/-- A whole frame whose DEST names an invalid index. -/
theorem witness_NodeFramesTaken_dest :
    let f := frameBytes (huskBytes ⟨0, false, 0, 0, 0, 0, 9, 0, 0⟩ 3 false 127 1 inputPay.length) inputPay
    badIndex f = true ∧ ownReturn 0 f = false ∧ badIndex (nodeFrame 3 inputPay).bytes = false := by decide +kernel

/-- A split that its next port basic cycle records; a ring that fifteen good ones and what the links show restore. -/
theorem witness_RingsAndSchedules_split :
    let m := (portUp 1).updPort 0 (fun q => { q with splitDue := 3 })
    let s := ((portUp 1).updPort 0 (fun q => { q with split := true, both := true, good := 15 })).updSys (fun x => { x with boundary := true })
    (m.port 0).running = true ∧ m.portImg.portMode 0 = 1 ∧ (m.port 0).splitDue ≠ 0 ∧ m.portNext 0 ≠ 0 ∧ s.sys.boundary = true ∧
    (s.port 0).split = true ∧ 15 ≤ (s.port 0).good ∧ (s.port 0).ringGood ⟨true, true, some 0, some 100⟩ = true ∧
    (s.port 0).ringGood ⟨false, true, none, some 0⟩ = false := by decide +kernel

/-- An acknowledgement of a Press that was sent, and of one that was not. -/
theorem witness_FederationMessages_ack :
    let m := { fedUp with fed := { fedUp.fed with sentCluster := 3 } }
    modeActive m.sys.mode = true ∧ rd (be 8 3) 0 8 ≤ m.fed.sentCluster ∧ ¬rd (be 8 4) 0 8 ≤ m.fed.sentCluster ∧ m.sys.bc ≠ 14 ∧
    (m.lane .a).follows = true := by decide +kernel

/-! ### Clauses of the third review -/

/-- A feed at 16.0 V is not lost. -/
theorem witness_FeedsComeAndGo_kept : ¬voltsOf .feedB 0 160 < 160 ∧ (inMode 0).m.sys.mode = 0 := by decide

/-- Entries into LOAD that wait in SELF_TEST and in MAINTENANCE; a discharge that a loss of power abandons. -/
theorem witness_HoldupKept_load :
    let w := fun k => stSys (fun x => { x with mode := k, holdupWait := true })
    let l := stSys (fun x => { x with mode := 6, powerLoss := true })
    (w 3).m.sys.powerLoss = false ∧ (w 3).m.sys.holdupWait = true ∧ (w 3).m.sys.mode = 3 ∧ (w 12).m.sys.mode = 12 ∧
    (w 12).m.sys.pendingReq = none ∧ l.m.sys.powerLoss = true ∧ l.m.sys.mode ≠ 0 := by decide

theorem witness_BootAndSelfTestEnd_load :
    let s := stSys (fun x => { x with mode := 3, holdupReady := true })
    s.m.sys.mode = 3 ∧ s.m.sys.bistRun = [] ∧ s.m.sys.holdupWait = false ∧ s.m.sys.bistBad = 0 ∧ s.m.a.lifecycle ≠ 2 ∧
    s.m.sys.holdupReady = true := by decide

/-- A challenge that a refusal spends: the first, the fifth in a row, and one in a lockout. -/
theorem witness_ModeRequestsRefused_challenge :
    let s := fun n => st (fun m => (m.updSys (fun x => { x with mode := 12, challenge := some [], refusals := n })).mapLanes
      (fun x => { x with lifecycle := 4 }))
    ¬ (s 3).m.Authorised 0x1002 ∧ (s 3).m.sys.challenge ≠ none ∧ (s 3).m.sys.lockout = false ∧ (s 3).m.sys.refusals < 4 ∧
    ¬ (s 4).m.Authorised 0x1002 ∧ 4 ≤ (s 4).m.sys.refusals ∧
    ((s 0).m.updSys (fun x => { x with lockout := true })).sys.lockout = true := by
  unfold Mach.Authorised; decide +kernel

/-- A return to service that waits for its instant: every lane tested, lane B tested by software, lane C excluded. -/
theorem witness_RequestedTransitionTakes_load :
    let s := fun (r : List LaneId) (h : Bool) =>
      stSys (fun x => { x with mode := 12, pendingReq := some 0x1004, retest := r, holdupReady := h })
    let left := fun (s : State) (l : LaneId) => s.m.sys.retest.contains l || decide ((s.m.lane l).role ≠ .serving)
    let c := st (fun m => m.updLane .c (fun x => { x with role := .excluded }))
    Settled (s [] true) ∧ mqValue 0x1004 = 4 ∧ (s [] true).m.preempted = false ∧ (s [] true).m.chapterDue = false ∧
    (s [] true).m.sys.originAgreed = false ∧ (s [] true).m.sys.bistRun = [] ∧ (s [] true).m.sys.pendingReq = some 0x1004 ∧
    (s [] true).m.sys.holdupReady = true ∧ (s [] false).m.sys.holdupReady = false ∧ (s [] true).m.sys.mode = 12 ∧
    (laneIds.all (fun l => left (s [] true) l == false)) = true ∧ left (s [.b] true) .b = true ∧ left c .c = true := by
  unfold Settled; decide +kernel

/-- Outcomes of the three lanes, over empty staging regions, whose stored seals are 0. -/
def judged (a b c : Nat × W64) : Mach :=
  { Mach.reset with a := { Mach.reset.a with outcome := some a }, b := { Mach.reset.b with outcome := some b },
                    c := { Mach.reset.c with outcome := some c } }

theorem witness_LoadStreamsAndJudges_judge :
    (judged (3, 0) (3, 0) (3, 0)).judgeLoad.1 = .fault 3 ∧ (judged (0, 0) (0, 0) (0, 0)).judgeLoad.1 = .pass ∧
    (judged (0, 5) (0, 5) (0, 5)).judgeLoad.1 = .fault 3 ∧ (judged (4, 0) (0, 0) (4, 0)).judgeLoad.1 = .fault 4 ∧
    (judged (0, 0) (4, 0) (0, 0)).judgeLoad.1 = .retry .b ∧ (judged (0, 5) (0, 5) (0, 6)).judgeLoad.1 = .fault 3 ∧
    ((judged (0, 0) (0, 0) (6, 0)).updSys (fun s => { s with retried := true })).judgeLoad.1 = .fault 9 ∧
    (judged (3, 0) (4, 0) (0, 0)).judgeLoad.1 = .fault 9 ∧ Mach.reset.a.stagingImg.storedSeal = 0 := by decide +kernel

/-! A station of two sections, a point and two signals, with a call-on route 0 from signal 3 over section 1 and point 2 to signal 4. -/

def writes (l : List (Nat × Nat × Nat)) : Mem := l.foldl (fun (m : Mem) e => m.write e.1 (be e.2.1 e.2.2)) []
def secEntry (k kind count off len : Nat) : List (Nat × Nat × Nat) :=
  [(0x100 + 32 * k, 2, kind), (0x104 + 32 * k, 4, count), (0x108 + 32 * k, 8, off), (0x110 + 32 * k, 8, len)]
def objEntry (o c points : Nat) : List (Nat × Nat × Nat) := [(0x1002 + 64 * o, 1, c), (0x1004 + 64 * o, 2, 1), (0x1008 + 64 * o, 4, points)]
def routeImage : Mem := writes (
  [(0x18, 2, 4), (0x1A, 1, 9)] ++ secEntry 0 1 6 0x1000 384 ++ secEntry 1 2 2 0x2000 128 ++ secEntry 2 3 8 0x2400 64 ++
  secEntry 3 8 1 0x2800 16 ++ secEntry 4 9 16 0x2900 128 ++ secEntry 5 10 1 0x3000 136 ++ secEntry 6 15 6 0x4000 48 ++
  secEntry 7 16 2 0x5000 512 ++ secEntry 8 12 1 0x10000 0x20000 ++
  objEntry 1 1 0x01000000 ++ objEntry 2 2 0x01028384 ++ objEntry 3 3 0x01828300 ++ objEntry 4 3 0x01828300 ++ objEntry 5 1 0x01000000 ++
  [(0x2003, 1, 1), (0x2004, 2, 3), (0x2006, 2, 4), (0x200A, 1, 2), (0x200C, 4, 0), (0x2014, 8, 0xFFFFFFFFFFFFFFFF)] ++
  [(0x2043, 1, 1), (0x2044, 2, 4), (0x2046, 2, 3), (0x204A, 1, 1), (0x204C, 4, 2), (0x2054, 8, 0xFFFFFFFFFFFFFFFF)] ++
  [(0x2400, 2, 1), (0x2402, 1, 1), (0x2408, 2, 2), (0x240A, 1, 2), (0x240B, 1, 1), (0x2410, 2, 5), (0x2412, 1, 1)] ++
  [(0x2930, 1, 1), (0x2934, 4, 20), (0x3000, 1, 2), (0x3010, 1, 1), (0x3011, 1, 5), (0x3012, 2, 0x20)] ++
  (List.range 6).map (fun o => (0x4000 + 8 * o, 2, o)) ++
  [(0x5000, 4, 0x30004000), (0x5004, 4, 0x10008001), (0x5008, 4, 0x6000C000), (0x5100, 4, 0x30014000), (0x5104, 4, 0x60010000)] ++
  [(0x10000, 1, 1), (0x10001, 1, 1), (0x10002, 1, 1), (0x10005, 1, 2), (0x10006, 1, 2), (0x10009, 1, 3), (0x10040, 1, 1),
   (0x11001, 1, 1), (0x11010, 1, 6), (0x11011, 1, 1), (0x11016, 2, 0xFF)])

/-- What a lane evaluates: everything clear, point 2 in position 1, but for the detections given. -/
def routeEnv (f : SI) (det : List (Nat × Nat)) : Fz :=
  let i : Img := ⟨routeImage, 0⟩
  ⟨i, f, { InputSet.empty with node := [(1, ⟨0, 0, 9, 0, 0⟩)],
                               obj := (List.range 6).map (fun o => (o, some ⟨0, Store.get zeroNat (det ++ [(2, 1)]) o⟩)) }, 0⟩

def pressOf (q : Req) (s : SI) : PS := ⟨s, [q], [], [], [], [], [], [], [], false, 0, [], [], none⟩
def asked (w : W64) : Req := ⟨w, 7, 0, false, 0, false, 0, true, 0⟩
def worked (w : W64) (f : SI) (det : List (Nat × Nat)) : PS := (pressOf (asked w) f).request (routeEnv f det) [.req 7] (asked w)
/-- The State Image after SET_ROUTE of route 0. -/
def lockedImage : SI := (worked 0x1000000000000000 [] []).s

/-- The request of route 0 is in hand; it has a lock, a section that is occupied, and once locked refusals and both cancellations. -/
theorem witness_PressStages_routes :
    let i : Img := ⟨routeImage, 0⟩
    let q := asked 0x1000000000000000
    let n := worked 0x1000000000000000 [] []
    let block := (routeEnv [] [(1, 1)]).setRoute 0 0
    q ∈ (pressOf q []).queue ∧ q.follower = false ∧ (pressOf q []).ends = [] ∧ q.drops < 3 ∧ rqType q.word = 1 ∧
    i.isLocked [] 0 = false ∧ (q, 1, 0) ∈ n.ends ∧ block = .block 3 false ∧ rqStore q.word = false ∧
    rqStore 0x1800000000000000 = true ∧ ((pressOf q []).written = []) := by decide +kernel

theorem witness_PressStages_cancel :
    let i : Img := ⟨routeImage, 0⟩
    let held := fun (k : Nat) => SI.upd lockedImage 3 (fun e => { e with lockKind := k })
    let came := SI.upd lockedImage 1 (fun e => { e with release := 1 })
    rqType 0x2000000000000000 = 2 ∧ i.isLocked [] 0 = false ∧ i.isLocked lockedImage 0 = true ∧ i.entered lockedImage 0 = false ∧
    i.entered came 0 = true ∧ i.isLocked came 0 = true ∧ (SI.at (held 3) (i.rEntry 0)).lockKind = 3 ∧ i.isLocked (held 3) 0 = true ∧
    i.entered (held 3) 0 = false ∧ (SI.at lockedImage (i.rEntry 0)).lockKind = 1 ∧ (SI.at (held 2) (i.rEntry 0)).lockKind = 2 ∧
    i.isLocked (held 2) 0 = true ∧ i.entered (held 2) 0 = false ∧
    i.approach 0 = [] ∧ (i.rule 0).cancel = 0 ∧ ((⟨routeImage.write 0x2800 [1, 1, 1], 0⟩ : Img).rule 0).cancel ≠ 0 := by decide +kernel

/-- Point 2 lies in position 1; whether it can be thrown is the rule program's (R109, assumption 37). -/
theorem witness_PressStages_points :
    let z := routeEnv [] []
    rqType 0x3200000000000002 = 3 ∧ rqOption 0x3200000000000002 = 2 ∧ z.throwPoint 2 1 = .throwTo none ∧
    (routeEnv lockedImage []).throwPoint 2 2 = .block 2 true ∧
    (Config.throwCondition z.i.imageId 2 2 0 = true → z.throwPoint 2 2 = .throwTo (some 2)) ∧
    isRestriction (rqType 0x8000000000000001) = true ∧ (asked 0x8000000000000001).gathered = true ∧ rqType 0xC000000000000001 = 12 := by
  refine ⟨by decide +kernel, by decide +kernel, by decide +kernel, by decide +kernel, ?_, by decide +kernel⟩
  intro h
  have l : (routeEnv [] []).throwReason 2 2 = none := by
    have a : ((routeEnv [] []).i.lockPositions (routeEnv [] []).f 2).any (fun p => decide (p ≠ 2)) = false := by decide +kernel
    have b : ((routeEnv [] []).at 2).restrict = 0 := by decide +kernel
    have c : (routeEnv [] []).lost 2 = false := by decide +kernel
    have d : (routeEnv [] []).cluster = 0 := rfl
    simp only [Fz.throwReason, a, b, c, d, h]; decide
  have e : ¬(if ((routeEnv [] []).read 2).det % 4 = 3 then 0 else ((routeEnv [] []).read 2).det % 4) = 2 := by decide +kernel
  simp only [Fz.throwPoint, if_neg e, l]

/-- TAKEOVER, with one node of the Seedbank that is not back; with a limit of no cluster it is over. -/
theorem witness_PressStages_takeover :
    let m := { running 9 13 with fed := { (running 9 13).fed with takeComm := [5] } }
    m.cycling = true ∧ m.sys.bc = 13 ∧ m.sys.mode = 9 ∧ (Store.get NodeComm.absent m.leadLane.rte.frozen.node 5).state ≠ 0 ∧
    m.fed.takeoverAt + (m.putAll F.RED_PAIR_LIMIT_TAKEOVER_LIMIT 0).fld F.RED_PAIR_LIMIT_TAKEOVER_LIMIT ≤ m.sys.cluster ∧
    (running 9 13).fed.takeComm = [] ∧ m.serving.length = 3 ∧
    (m.updLane .c (fun x => { x with role := .excluded })).serving.length < 3 := by decide +kernel

/-- A lane with a slot for route 0. -/
def guarded : Lane :=
  { ({ (running 6 14).a with dram := routeImage, si := lockedImage } : Lane).admitRoute 0 [3] 0 with loaded := true }

/-- An object of each kind of the pass: a signal with its slot, a restricted one, a point of a COLLIDED route. -/
theorem witness_BoundaryPassAndSweep_guard :
    let r := { guarded with zvl := guarded.zvl.restrict 0x8000000000000001 true }
    let k := { guarded with zvl := guarded.zvl.mapSlots (fun t => { t with collided := true }) }
    (running 6 3).nextBasic ≠ 14 ∧ (guarded.zvl.slotList.map (fun e => (e.2.route, e.2.guarded))) = [(0, 3)] ∧
    r.zRestricted 1 = true ∧ 1 ∈ r.img.objects ∧ r.img.cls 1 ≠ 3 ∧ 3 ∈ guarded.img.objects ∧
    guarded.img.cls 3 = 3 ∧ guarded.img.cls 2 = 2 ∧
    (k.zvl.slotList.any (fun e => e.2.collided && e.2.positions.any (fun p => p.1 = 2))) = true ∧
    (∃ e ∈ ([(.b, 9)] : List (LaneId × Nat)), e.1 = .b) := by decide +kernel

/-- A Press that writes the lock of route 0 in its signal's record. -/
theorem witness_PressCommits_admission :
    let x : Lane := { (running 6 13).a with dram := routeImage }
    let p := { x.buildPress 0 with si := lockedImage, changed := [1, 2, 3] }
    let y := { x with si := p.si }.zvlCommit x.si 0 p.changed p.lifts
    3 ∈ p.changed ∧ x.img.cls 3 = 3 ∧ (SI.at p.si 3).lockKind ≠ 0 ∧ (SI.at p.si 3).routeLock = 0 ∧
    (y.zvl.slotList.map (fun e => e.2.route)) = [0] ∧ x.zvl.slotList = [] := by decide +kernel

/-- Two lanes vote, alike, apart, and with one that names itself; and in DARN. -/
theorem witness_OddLaneNamed_two :
    let m := two
    let d := two.updLane .b (fun x => { x with dioNext := 1 })
    let f := two.updLane .a (fun x => { x with selfFaults := [8] })
    m.voting = true ∧ m.voters = [.a, .b] ∧ (m.lane .c).role = .excluded ∧ m.signature 1 .a = m.signature 1 .b ∧
    d.signature 1 .a ≠ d.signature 1 .b ∧ (d.signature 1 .a).isSome = true ∧ (d.signature 1 .b).isSome = true ∧ d.sys.mode = 7 ∧
    (f.lane .a).selfFaults = [8] ∧ (darnAt 9).voting = true ∧ (darnAt 9).sys.mode = 10 ∧ (darnAt 9).voters = [.a, .b] := by
  decide +kernel

theorem witness_ExclusionEnacted_reset :
    let s := stSys (fun x => { x with mode := 6, rst := some 3, seconds := 1, pendingExcl := [(.c, 11, 0)] })
    s.m.resetDue = true ∧ s.m.sys.pendingExcl = [(.c, 11, 0)] ∧ s.m.sys.mode = 6 ∧ s.m.sys.pendingHalt = none := by decide +kernel

/-- Three payloads for one node; two that differ where two lanes serve. -/
theorem witness_FramesAssembled_differ :
    let part := fun (l : LaneId) => ⟨1, 50, [BitVec.ofNat 8 (laneIx l)]⟩
    let m := laneIds.foldl (fun (m : Mach) l => m.updLane l (fun x => { x with staged := [part l] })) (running 6 3)
    let n := laneIds.foldl (fun (m : Mach) l => m.updLane l (fun x => { x with staged := [part l] })) two
    m.readmitDue = false ∧ (laneIds.map (fun l => takenPayload m m.speaks l 1)) = laneIds.map (fun l => some (part l)) ∧
    (laneIds.map m.speaks) = [true, true, true] ∧ n.serving = [.a, .b] ∧ n.sys.mode = 7 ∧ n.sys.pendingHalt = none ∧
    takenPayload n n.speaks .a 1 = some (part .a) ∧ takenPayload n n.speaks .b 1 = some (part .b) ∧ part .a ≠ part .b ∧
    n.readmitDue = false := by decide +kernel

/-- Exchanges with either neighbour, of 60 ns from the last and of 40. -/
theorem witness_LaneTimeKept_exchanges :
    let m := (running 6 3).updLane .b (fun x => { x with time := { x.time with deltaNext := some 0, deltaPrev := some 0 } })
    let delta := fun (a b n : Int) => (((a + b : Int) : Rat) / 2 - n : Rat)
    (m.lane .b).time.deltaNext = some 0 ∧ (m.lane .b).time.deltaPrev = some 0 ∧ 50 < ratAbs (delta 60 60 0 - 0) ∧
    ratAbs (delta 40 40 0 - 0) ≤ 50 ∧ LaneId.b = nextLane .a ∧ LaneId.c = nextLane .b := by decide +kernel

/-- A start by the host that is refused: Darn is barred. -/
theorem witness_DarnStarts_host :
    let m := (two.putAll F.VOT_EXCLUSION_LANE 2).putAll F.RED_STATUS_DARN_BARRED 1
    m.darnLane = some .c ∧ m.darnRefused .c = true ∧ m.participants ≠ [] ∧ (∀ k ∈ m.participants, m.mute 0 k = false) ∧
    (darnAt 3).preempted = false := by decide +kernel

/-- A cut-over and a re-admission: with the epoch that every lane shows; and one that a SAFE_HALT precedes. -/
theorem witness_DarnSteps_boundary :
    (darnAt 9).preempted = false ∧ (∀ l ∈ laneIds, ((darnAt 9).lane l).regs.fld F.RED_EPOCH_EPOCH = (darnAt 9).fld F.RED_EPOCH_EPOCH) ∧
    ((darnAt 9).updSys (fun s => { s with pendingHalt := some 3 })).preempted = true ∧ (darnAt 9).sys.boundary = true ∧
    ((darnAt 8).updSys (fun s => { s with boundary := false })).sys.boundary = false := by
  decide +kernel

theorem witness_RegistersWithEffects_leaving :
    let m := (running 6 0).updNode 2047 (fun n => { n with leaving := true })
    m.sys.originAgreed = true ∧ (m.node 2047).leaving = true ∧ (m.node 2047).quarantined = false := by decide +kernel

/-- A clear in SERVICE, with its response and without. -/
theorem witness_EventStore_service :
    let m := (maint.m.updSys (fun s => { s with challenge := some (List.replicate 16 0), key := List.replicate 32 0 })).mapLanes
      (fun x => { x with lifecycle := 4 })
    let r := hmac m.sys.key (List.replicate 16 0 ++ (0xC1 :: be 4 (5 : W32).toNat) ++ be 8 m.a.serial.toNat)
    let y := (List.range 4).foldl (fun (m : Mach) k => m.putSc (F.HBR_AUTH_RESPk_RESPONSE k) (rd r (4 * k) 4)) (m.putSc F.EVR_HEAD_SEQUENCE 10)
    m.responds (0xC1 :: be 4 (5 : W32).toNat) = false ∧ y.responds (0xC1 :: be 4 (5 : W32).toNat) = true ∧ y.a.lifecycle = 4 ∧
    y.sc.clearing = false ∧ y.sys.powerLoss = false ∧ y.sys.mode ≠ 13 ∧
    newer 32 (5 : W32).toNat (olderSeq (y.sc.regs.fld F.EVR_TAIL_SEQUENCE) (y.sc.regs.fld F.EVR_FLASH_TAIL_SEQUENCE)) = true ∧
    newer 32 (5 : W32).toNat (y.sc.regs.fld F.EVR_HEAD_SEQUENCE) = false := by decide +kernel

/-- Ranges of a copy that do not overlap. -/
theorem witness_DmaMovesBytes_apart :
    let x := (dmaReady.dmaSet (.lane .a) 11 0x80110000).xfer (.lane .a) 11
    x.src + x.count ≤ x.dst ∧ 0 < x.count := by decide +kernel

/-- A source whose run and silence stand in every lane; a unit that is not a voter's Seedbank. -/
theorem witness_FederationState_lanes :
    let s := fedUp.mapLanes (fun x => x.updSrc 15 (fun k => { k with silent := 65535, run := 16 }))
    (∀ l, s.fld F.FED_CFG_LOSS_LIMIT ≤ ((s.lane l).srcOf 15).silent ∧ 16 ≤ ((s.lane l).srcOf 15).run) := by
  intro s l; cases l <;> decide +kernel

/-- A block of the current Seedbank, in a lane that has one. -/
theorem witness_FederationMessages_increment :
    let m := fedUp.mapLanes (fun x => { x with sb := { x.sb with full := true, cluster := some 0 } })
    (∀ l ∈ m.voters, (m.lane l).sb.full = true ∧ (m.lane l).sb.cluster.map (· + 1) = some 1) ∧ fedUp.voters = [.a, .b, .c] ∧
    two.voters = [.a, .b] := by decide +kernel

theorem witness_PtpKept_noDelay : (((ptpUp 3).setPtp .netA { Ptp.reset with master := none }).ptp .netA).delays = [] ∧
    (ptpUp 3).netOn .netB = true := by decide +kernel

theorem witness_RestartRequests_dormant : (inMode 1).m.sys.mode = 1 ∧ (laneIds.map ((inMode 1).m.mute 0)) = [false, false, false] := by
  decide +kernel

/-- A whole frame outside its window, cut and charged to its SOURCE. -/
theorem witness_NodeFramesTaken_cut :
    let late : RxFrame := ⟨(nodeFrame 5 []).bytes, 1000000, 1000100⟩
    (portUp 1).Guarded 0 late ∧ ((portUp 1).guardian 0 late).1 ≠ 0 ∧ frameWhole late.bytes = true ∧ (readHusk late.bytes).source = 1 := by
  unfold Mach.Guarded; decide +kernel

end Sys2Proof.Tests
end

/-! # Commands that leave the mode, changes of one lane, and self-fault conditions (R18, R151, R321) -/
namespace Sys2Proof.Machine

/-! ### The outcome of a command that leaves the mode -/

/-- The restart of R407 waits for a change of mode. -/
theorem Mach.settle_of_mode_eq {m n : Mach} (h : n.sys.mode = m.sys.mode) : m.settle n = n := by
  unfold Mach.settle
  rw [h]
  cases modeActive m.sys.mode <;> simp

/-- A command that runs a meaning which leaves the mode completes with what the meaning gives. -/
theorem completes_of_run {c : Instr} {s : State} {P : Mach → Prop} (f : Mach → Mach) (hc : exec c s = s.run f)
    (hmode : (f s.m).sys.mode = s.m.sys.mode) (h : P (f s.m)) : Completes c s P :=
  ⟨f s.m, by rw [hc]; unfold State.run; rw [Mach.settle_of_mode_eq hmode], h⟩

/-! ### Changes of one lane alone -/

/-- Beside lane `l`, the Service Controller and what was sent, all of the module is as before; lane `l` keeps its State Image and role. -/
def Mach.OnlyLane (m n : Mach) (l : LaneId) : Prop :=
  (∀ k, k ≠ l → n.lane k = m.lane k) ∧ n.sys = m.sys ∧ n.ph = m.ph ∧ n.fed = m.fed ∧ n.dio = m.dio ∧
  (n.lane l).si = (m.lane l).si ∧ (n.lane l).role = (m.lane l).role

namespace Mach.OnlyLane

variable {m n o : Mach} {l : LaneId}

theorem refl (m : Mach) (l : LaneId) : m.OnlyLane m l := ⟨fun _ _ => rfl, rfl, rfl, rfl, rfl, rfl, rfl⟩

theorem trans (h : m.OnlyLane n l) (g : n.OnlyLane o l) : m.OnlyLane o l := by
  obtain ⟨hl, hs, hp, hf, hd, hi, hr⟩ := h
  obtain ⟨gl, gs, gp, gf, gd, gi, gr⟩ := g
  exact ⟨fun k hk => (gl k hk).trans (hl k hk), gs.trans hs, gp.trans hp, gf.trans hf, gd.trans hd, gi.trans hi, gr.trans hr⟩

theorem lane_ne (h : m.OnlyLane n l) : ∀ k, k ≠ l → n.lane k = m.lane k := h.1

theorem sys (h : m.OnlyLane n l) : n.sys = m.sys := h.2.1

theorem ph (h : m.OnlyLane n l) : n.ph = m.ph := h.2.2.1

theorem si (h : m.OnlyLane n l) : (n.lane l).si = (m.lane l).si := h.2.2.2.2.2.1

/-- The State Image of every lane stays. -/
theorem si_all (h : m.OnlyLane n l) (k : LaneId) : (n.lane k).si = (m.lane k).si := by
  by_cases hk : k = l
  · rw [hk]; exact h.si
  · rw [h.lane_ne k hk]

theorem mode (h : m.OnlyLane n l) : n.sys.mode = m.sys.mode := by rw [h.sys]

theorem updLane {f : Lane → Lane} (hi : (f (m.lane l)).si = (m.lane l).si) (hr : (f (m.lane l)).role = (m.lane l).role) :
    m.OnlyLane (m.updLane l f) l :=
  ⟨fun _ hk => Mach.lane_updLane_ne m f hk, by simp, by simp, by simp, by simp, by simp [hi], by simp [hr]⟩

theorem raiseLane (m : Mach) (l : LaneId) (b : Blk) (i : Nat) : m.OnlyLane (m.raiseLane l b i) l :=
  ⟨fun _ hk => Mach.lane_raiseLane_ne m b i hk, by simp, by simp, by simp, by simp, by simp, by simp⟩

/-- A change that leaves every lane, `sys`, the Port Hub, the federation and the DIO. -/
theorem of_eq (hl : ∀ k, n.lane k = m.lane k) (hs : n.sys = m.sys) (hp : n.ph = m.ph) (hf : n.fed = m.fed) (hd : n.dio = m.dio) :
    m.OnlyLane n l := ⟨fun k _ => hl k, hs, hp, hf, hd, by rw [hl], by rw [hl]⟩

end Mach.OnlyLane

/-! ### Self-faults (R151) -/

@[simp] theorem Lane.regs_selfFault (x : Lane) (c : Nat) : (x.selfFault c).regs = x.regs := by unfold Lane.selfFault; split <;> rfl
@[simp] theorem Lane.si_selfFault (x : Lane) (c : Nat) : (x.selfFault c).si = x.si := by unfold Lane.selfFault; split <;> rfl
@[simp] theorem Lane.role_selfFault (x : Lane) (c : Nat) : (x.selfFault c).role = x.role := by unfold Lane.selfFault; split <;> rfl

/-- The lane names itself with the cause. -/
theorem Lane.mem_selfFault (x : Lane) (c : Nat) : c ∈ (x.selfFault c).selfFaults := by
  unfold Lane.selfFault
  split
  next hc => simpa using hc
  next => simp

@[simp] theorem Mach.sc_selfFault (m : Mach) (l : LaneId) (c : Nat) : (m.selfFault l c).sc = m.sc := by
  unfold Mach.selfFault; split <;> simp

@[simp] theorem Mach.regs_selfFault (m : Mach) (l : LaneId) (c : Nat) : ((m.selfFault l c).lane l).regs = (m.lane l).regs := by
  unfold Mach.selfFault; split <;> simp

theorem Mach.OnlyLane.selfFault (m : Mach) (l : LaneId) (c : Nat) : m.OnlyLane (m.selfFault l c) l := by
  unfold Mach.selfFault
  split
  · exact .updLane (by simp) (by simp)
  · exact .refl m l

/-- A lane that runs names itself. -/
theorem Mach.mem_selfFault {m : Mach} (l : LaneId) (c : Nat) (h : m.awake = true) : c ∈ ((m.selfFault l c).lane l).selfFaults := by
  rw [Mach.selfFault, if_pos h, Mach.lane_updLane_self]
  exact Lane.mem_selfFault _ c

@[simp] theorem Mach.awake_updLane (m : Mach) (l : LaneId) (f : Lane → Lane) : (m.updLane l f).awake = m.awake := by
  simp [Mach.awake]

@[simp] theorem Mach.awake_raiseLane (m : Mach) (l : LaneId) (b : Blk) (i : Nat) : (m.raiseLane l b i).awake = m.awake := by
  simp [Mach.awake]

/-- The signed reading of a word is its two's complement. -/
theorem signed_toNat_eq_toInt (v : W16) : signed 16 v.toNat = v.toInt := by
  have h := v.isLt
  simp only [BitVec.toInt_eq_toNat_cond, signed, Nat.mod_eq_of_lt h]
  split <;> split <;> omega

/-! ### The self-fault conditions (R18, R151, R321) -/

section
variable {m : Mach} (l : LaneId) (h : m.awake = true)
include h

/-- SUPPLY_FAULT (R321): the sample stands in its register; outside 0.80 V to 0.90 V, and only there, the lane names itself with
cause 10. -/
theorem Mach.supplyFault_spec {mv : Nat} (hmv : mv < 1024) :
    m.OnlyLane (m.supplyFault l mv) l ∧ (m.supplyFault l mv).sc = m.sc ∧
    ((m.supplyFault l mv).lane l).regs.fld F.SYS_VCORE_MV = mv ∧
    (mv < 800 ∨ 900 < mv → 10 ∈ ((m.supplyFault l mv).lane l).selfFaults) ∧
    (800 ≤ mv → mv ≤ 900 → ((m.supplyFault l mv).lane l).selfFaults = (m.lane l).selfFaults) := by
  have hmod : mv % 2 ^ 10 = mv := Nat.mod_eq_of_lt hmv
  unfold Mach.supplyFault
  simp only [h, Bool.not_true, Bool.false_eq_true, if_false]
  split
  next hout =>
    refine ⟨.trans (.updLane rfl rfl) (.selfFault _ l 10), by simp, ?_, fun _ => Mach.mem_selfFault l 10 (by simpa using h), by omega⟩
    simp (disch := decide) [Regs.fld_put_beside, Regs.fld_put_same]
    exact hmod
  next hin =>
    refine ⟨.updLane rfl rfl, by simp, ?_, fun ho => absurd ho hin, by simp⟩
    simp (disch := decide) [Regs.fld_put_beside, Regs.fld_put_same]
    exact hmod

/-- CLOCK_MONITOR_TRIP (R321): the deviation stands in its register; beyond ± 0.5 %, and only there, the lane names itself with
cause 10 and shows its clock as not in order. -/
theorem Mach.clockTrip_spec (ppm : W16) :
    m.OnlyLane (m.clockTrip l ppm) l ∧ (m.clockTrip l ppm).sc = m.sc ∧
    ((m.clockTrip l ppm).lane l).regs.fld F.CLK_MONITOR_FAST_PPM = ppm.toNat ∧
    (5000 < ppm.toInt.natAbs → 10 ∈ ((m.clockTrip l ppm).lane l).selfFaults ∧
      ((m.clockTrip l ppm).lane l).regs.fld F.CLK_STATUS_MONITOR_OK = 0) ∧
    (ppm.toInt.natAbs ≤ 5000 → ((m.clockTrip l ppm).lane l).selfFaults = (m.lane l).selfFaults ∧
      ((m.clockTrip l ppm).lane l).regs.fld F.CLK_STATUS_MONITOR_OK = 1) := by
  have hmod : ppm.toNat % 2 ^ 16 = ppm.toNat := Nat.mod_eq_of_lt ppm.isLt
  unfold Mach.clockTrip
  simp only [h, Bool.not_true, Bool.false_eq_true, if_false, signed_toNat_eq_toInt, decide_eq_true_eq]
  split
  next hfar =>
    refine ⟨((Mach.OnlyLane.updLane rfl rfl).trans (.updLane rfl rfl)).trans ((Mach.OnlyLane.raiseLane _ l _ _).trans (.selfFault _ l 10)),
      by simp, ?_, fun _ => ⟨Mach.mem_selfFault l 10 (by simpa using h), ?_⟩, by omega⟩
    · simp (disch := decide) [Regs.fld_setBit_ne, Regs.fld_incReg_ne, Regs.inc, Regs.fld_put_ne, Regs.fld_put_beside, Regs.fld_put_same]
      exact hmod
    · simp (disch := decide) [Regs.fld_setBit_ne, Regs.fld_incReg_ne, Regs.fld_inc_ne, Regs.fld_put_same, hfar, b2n]
  next hnear =>
    refine ⟨.updLane rfl rfl, by simp, ?_, fun hf => absurd hf hnear, fun _ => ⟨by simp, ?_⟩⟩
    · simp (disch := decide) [Regs.fld_put_ne, Regs.fld_put_same]
      exact hmod
    · simp (disch := decide) [Regs.fld_put_same, hnear, b2n]

/-- PLL_UNLOCK (R321). -/
theorem Mach.pllUnlock_spec :
    m.OnlyLane (m.pllUnlock l) l ∧ (m.pllUnlock l).sc = m.sc ∧ 10 ∈ ((m.pllUnlock l).lane l).selfFaults ∧
    ((m.pllUnlock l).lane l).regs.fld F.CLK_STATUS_PLL_LOCKED = 0 := by
  unfold Mach.pllUnlock
  simp only [h, Bool.not_true, Bool.false_eq_true, if_false]
  refine ⟨.trans (.updLane rfl rfl) (.trans (.raiseLane _ l _ _) (.selfFault _ l 10)), by simp,
    Mach.mem_selfFault l 10 (by simpa using h), ?_⟩
  simp (disch := decide) [Regs.fld_setBit_ne, Regs.fld_put_same]

/-- LATE_WAKE (R18, R321). -/
theorem Mach.lateWake_spec :
    m.OnlyLane (m.lateWake l) l ∧ (m.lateWake l).sc = m.sc ∧ 9 ∈ ((m.lateWake l).lane l).selfFaults := by
  unfold Mach.lateWake
  simp only [h, Bool.not_true, Bool.false_eq_true, if_false]
  exact ⟨.trans (.updLane rfl rfl) (.trans (.raiseLane _ l _ _) (.selfFault _ l 9)), by simp,
    Mach.mem_selfFault l 9 (by simpa using h)⟩

/-- WATCHDOG (R151): beside the lane, the Service Controller marks the boot (R407). -/
theorem Mach.watchdog_spec :
    m.OnlyLane (m.watchdog l) l ∧ (m.watchdog l).sc = { m.sc with watchdogSeen := true } ∧ 9 ∈ ((m.watchdog l).lane l).selfFaults ∧
    ((m.watchdog l).lane l).regs = (m.lane l).regs := by
  unfold Mach.watchdog
  rw [if_pos h]
  have hlane : ∀ (n : Mach) (c : Sc) k, ({ n with sc := c } : Mach).lane k = n.lane k := fun n c k => by cases k <;> rfl
  rw [hlane]
  exact ⟨(Mach.OnlyLane.selfFault m l 9).trans (.of_eq (hlane _ _) rfl rfl rfl rfl), by simp, Mach.mem_selfFault l 9 h, by simp⟩

/-- MEMORY_ERROR (R151), not corrected. -/
theorem Mach.memoryError_uncorrected_spec :
    m.OnlyLane (m.memoryError l false) l ∧ (m.memoryError l false).sc = m.sc ∧ 7 ∈ ((m.memoryError l false).lane l).selfFaults ∧
    ((m.memoryError l false).lane l).regs = (m.lane l).regs := by
  unfold Mach.memoryError
  exact ⟨.selfFault m l 7, by simp, Mach.mem_selfFault l 7 h, by simp⟩

/-- MEMORY_ERROR (R151), corrected: counted, and no lane is named. -/
theorem Mach.memoryError_corrected_spec :
    m.OnlyLane (m.memoryError l true) l ∧ (m.memoryError l true).sc = m.sc ∧
    ((m.memoryError l true).lane l).selfFaults = (m.lane l).selfFaults ∧
    ((m.memoryError l true).lane l).regs.get (blkBase .vot + 0x20) =
      BitVec.ofNat 32 (min (((m.lane l).regs.get (blkBase .vot + 0x20)).toNat + 1) (2 ^ 32 - 1)) := by
  unfold Mach.memoryError
  simp only [h, Bool.not_true, Bool.false_eq_true, if_false, if_true]
  exact ⟨.updLane rfl rfl, by simp, by simp, by simp [Regs.incReg, satAt]⟩

end

/-- Settles O27: every row names its lane through `Mach.selfFault`, which changes that lane alone. -/
theorem selfFaultConditions : Obligations.SelfFaultConditions := by
  intro s l h
  refine ⟨fun mv => ?_, fun ppm => ?_, ?_, ?_, ?_, fun v => ?_, fun v => ?_⟩
  · have hs := Mach.supplyFault_spec l h mv.isLt
    exact completes_of_run (·.supplyFault l mv.toNat) rfl hs.1.mode hs
  · have hs := Mach.clockTrip_spec l h ppm
    exact completes_of_run (·.clockTrip l ppm) rfl hs.1.mode hs
  · have hs := Mach.pllUnlock_spec l h
    exact completes_of_run (·.pllUnlock l) rfl hs.1.mode hs
  · have hs := Mach.lateWake_spec l h
    exact completes_of_run (·.lateWake l) rfl hs.1.mode hs
  · have hs := Mach.watchdog_spec l h
    exact completes_of_run (·.watchdog l) rfl hs.1.mode hs
  · have hs := Mach.memoryError_uncorrected_spec l h
    exact completes_of_run (·.memoryError l false) rfl hs.1.mode hs
  · have hs := Mach.memoryError_corrected_spec l h
    exact completes_of_run (·.memoryError l true) rfl hs.1.mode hs

end Sys2Proof.Machine

/-! # Event reports and host links (R31, R390 to R393, R440) -/
namespace Sys2Proof.Machine

/-! ### Changes outside the lanes -/

/-- A module with the same three lanes. -/
theorem Mach.lane_congr {m n : Mach} (ha : n.a = m.a) (hb : n.b = m.b) (hc : n.c = m.c) (l : LaneId) : n.lane l = m.lane l := by
  cases l
  · exact ha
  · exact hb
  · exact hc

@[simp] theorem Mach.lane_withSc (m : Mach) (c : Sc) (l : LaneId) : ({ m with sc := c } : Mach).lane l = m.lane l :=
  Mach.lane_congr rfl rfl rfl l

/-! ### Storing a record (R392, R393) -/

theorem nextSequence_lt (q : Nat) : nextSequence q < 2 ^ 32 := by
  unfold nextSequence; split <;> omega

/-- The Service Controller with one more record that waits for its flush, in these registers and this memory. -/
def Mach.withRecord (m : Mach) (r : Regs) (d : Mem) : Mach :=
  { m with sc := { m.sc with
    regs := r, dram := d, rate := m.sc.rate + 1, unflushed := m.sc.unflushed ++ [m.sc.regs.fld F.EVR_HEAD_SEQUENCE] } }

/-- What storing a record does: EVR.HEAD goes to the next sequence, a flush may fall due, the interrupt is raised. -/
theorem Mach.storeRecord_eq (m : Mach) (e : Event) (ls : Nat) (g : Bool) (o : Nat) : ∃ r d, ∃ flush : Bool,
    r.fld F.EVR_HEAD_SEQUENCE = nextSequence (m.sc.regs.fld F.EVR_HEAD_SEQUENCE) ∧
    m.storeRecord e ls g o = (if flush then (m.withRecord r d).startFlush else m.withRecord r d).raiseSc .evr I.EVR_RECORD := by
  refine ⟨_, _, _, ?_, rfl⟩
  rw [Regs.fld_put_ne _ _ (by decide), Regs.fld_put_ne _ _ (by decide), Regs.fld_put_same _ _ _ (by decide) (by decide)]
  exact Nat.mod_eq_of_lt (nextSequence_lt _)

section
variable (m : Mach) (e : Event) (ls : Nat) (g : Bool) (o : Nat)

/-- A stored record touches no lane. -/
theorem Mach.OnlyLane.storeRecord (l : LaneId) : m.OnlyLane (m.storeRecord e ls g o) l := by
  obtain ⟨r, d, flush, -, h⟩ := m.storeRecord_eq e ls g o
  rw [h]
  refine .of_eq ?_ ?_ ?_ ?_ ?_ <;> cases flush <;> simp [Mach.withRecord]

@[simp] theorem Mach.lane_storeRecord (l : LaneId) : (m.storeRecord e ls g o).lane l = m.lane l := by
  obtain ⟨r, d, flush, -, h⟩ := m.storeRecord_eq e ls g o
  rw [h]
  cases flush <;> simp [Mach.withRecord]

/-- The reports that wait stay, the record waits for its flush, and EVR.HEAD goes to the next sequence. -/
theorem Mach.storeRecord_sc : (m.storeRecord e ls g o).sc.waiting = m.sc.waiting ∧
    (m.storeRecord e ls g o).sc.unflushed = m.sc.unflushed ++ [m.sc.regs.fld F.EVR_HEAD_SEQUENCE] ∧
    (m.storeRecord e ls g o).sc.regs.fld F.EVR_HEAD_SEQUENCE = nextSequence (m.sc.regs.fld F.EVR_HEAD_SEQUENCE) := by
  obtain ⟨r, d, flush, hr, h⟩ := m.storeRecord_eq e ls g o
  rw [h, ← hr]
  cases flush <;> simp -implicitDefEqProofs (disch := decide) [Mach.withRecord, Regs.fld_setBit_ne, Regs.fld_put_ne]

end

section
variable (m : Mach) (e : Event) (ls : Nat) (g : Bool)

/-- A stored report touches no lane. -/
theorem Mach.OnlyLane.storeReport (l : LaneId) : m.OnlyLane (m.storeReport e ls g) l := by
  unfold Mach.storeReport
  dsimp only
  refine (Mach.OnlyLane.storeRecord m e ls g (originOf e) l).trans ?_
  split
  · exact .of_eq (by simp) (by simp) (by simp) (by simp) (by simp)
  · exact .refl _ l

@[simp] theorem Mach.lane_storeReport (l : LaneId) : (m.storeReport e ls g).lane l = m.lane l := by
  unfold Mach.storeReport; dsimp only; split <;> simp

/-- A stored report is a stored record. -/
theorem Mach.storeReport_sc : (m.storeReport e ls g).sc.waiting = m.sc.waiting ∧
    (m.storeReport e ls g).sc.unflushed = m.sc.unflushed ++ [m.sc.regs.fld F.EVR_HEAD_SEQUENCE] ∧
    (m.storeReport e ls g).sc.regs.fld F.EVR_HEAD_SEQUENCE = nextSequence (m.sc.regs.fld F.EVR_HEAD_SEQUENCE) := by
  refine Eq.mp ?_ (m.storeRecord_sc e ls g (originOf e))
  unfold Mach.storeReport
  dsimp only
  split <;> simp -implicitDefEqProofs (disch := decide) [Regs.fld_setBit_ne, Regs.fld_put_ne]

end

/-- A report waits in the Service Controller, or is stored (R390). -/
theorem Mach.mergeReport_eq (m : Mach) (l : LaneId) (e : Event) :
    (∃ c, m.mergeReport l e = { m with sc := c }) ∨ ∃ c ls g, m.mergeReport l e = ({ m with sc := c }).storeReport e ls g := by
  unfold Mach.mergeReport
  split
  · dsimp only
    split
    · exact .inr ⟨_, _, _, rfl⟩
    · exact .inl ⟨_, rfl⟩
  · dsimp only
    split
    · exact .inr ⟨m.sc, _, _, rfl⟩
    · exact .inl ⟨_, rfl⟩

@[simp] theorem Mach.lane_mergeReport (m : Mach) (l k : LaneId) (e : Event) : (m.mergeReport l e).lane k = m.lane k := by
  obtain ⟨c, h⟩ | ⟨c, ls, g, h⟩ := m.mergeReport_eq l e <;> rw [h] <;> simp

theorem Mach.OnlyLane.mergeReport (m : Mach) (l : LaneId) (e : Event) : m.OnlyLane (m.mergeReport l e) l := by
  have hsc : ∀ c, m.OnlyLane { m with sc := c } l := fun c => .of_eq (Mach.lane_withSc m c) rfl rfl rfl rfl
  obtain ⟨c, h⟩ | ⟨c, ls, g, h⟩ := m.mergeReport_eq l e <;> rw [h]
  · exact hsc c
  · exact (hsc c).trans (.storeReport _ e ls g l)

/-! ### EVL.STATUS.HOLDING -/

section
variable (m : Mach) (l : LaneId) (on : Bool)

theorem Mach.OnlyLane.holding : m.OnlyLane (m.holding l on) l := by
  unfold Mach.holding
  dsimp only
  split
  · exact .trans (.updLane rfl rfl) (.raiseLane _ l _ _)
  · exact .updLane rfl rfl

@[simp] theorem Mach.holding_sc : (m.holding l on).sc = m.sc := by unfold Mach.holding; dsimp only; split <;> simp

@[simp] theorem Mach.events_holding : ((m.holding l on).lane l).events = (m.lane l).events := by
  unfold Mach.holding; dsimp only; split <;> simp

@[simp] theorem Mach.hostLink_holding : ((m.holding l on).lane l).hostLink = (m.lane l).hostLink := by
  unfold Mach.holding; dsimp only; split <;> simp

/-- EVL.STATUS.HOLDING shows what it is set to. -/
theorem Mach.fld_holding : ((m.holding l on).lane l).regs.fld F.EVL_STATUS_HOLDING = b2n on := by
  unfold Mach.holding
  dsimp only
  split <;> simp (disch := decide) [Regs.fld_setBit_ne, Regs.fld_put_same] <;> cases on <;> rfl

/-- EVL.STATUS.RUNNING stays. -/
theorem Mach.running_holding : ((m.holding l on).lane l).regs.fld F.EVL_STATUS_RUNNING = (m.lane l).regs.fld F.EVL_STATUS_RUNNING := by
  unfold Mach.holding
  dsimp only
  split <;> simp (disch := decide) [Regs.fld_setBit_ne, Regs.fld_put_beside]

end

/-! ### EVENT_REPORT and MERGE_TIMEOUT (R390, R391) -/

/-- The oldest record leaves the staging of a lane, and EVL shows it. -/
def Mach.unstaged (m : Mach) (l : LaneId) (t : List Event) : Mach :=
  let n := m.updLane l (fun x => { x with
    events := t, regs := (x.regs.put F.EVL_STAGED_KBYTES (t.length * 32 / 1024)).addWrap F.EVL_PASSED_COUNT 1 })
  if t.isEmpty then n.holding l false else n

section
variable (m : Mach) (l : LaneId) (t : List Event)

theorem Mach.OnlyLane.unstaged : m.OnlyLane (m.unstaged l t) l := by
  unfold Mach.unstaged
  dsimp only
  split
  · exact .trans (.updLane rfl rfl) (.holding _ l false)
  · exact .updLane rfl rfl

@[simp] theorem Mach.events_unstaged : ((m.unstaged l t).lane l).events = t := by
  unfold Mach.unstaged; dsimp only; split <;> simp

@[simp] theorem Mach.unstaged_sc : (m.unstaged l t).sc = m.sc := by unfold Mach.unstaged; dsimp only; split <;> simp

end

section
variable {m : Mach} {l : LaneId} {e : Event} {t : List Event} (hrun : m.sc.regs.fld F.EVR_STATUS_RUNNING = 1)
  (hlink : (m.lane l).hostLink = true) (hev : (m.lane l).events = e :: t)
include hrun hlink hev

/-- While the buffer has no room the lane holds its records. -/
theorem Mach.eventReport_of_full (hfull : m.sc.bufferFull = true) : m.eventReport l = m.holding l true := by
  simp [Mach.eventReport, hrun, hlink, hev, hfull]

/-- With room, the oldest record leaves the lane: a delayed one is stored, another waits for those of the other lanes. -/
theorem Mach.eventReport_of_room (hroom : m.sc.bufferFull = false) :
    m.eventReport l = if e.delayed then (m.unstaged l t).storeReport e (2 ^ laneIx l) false else (m.unstaged l t).mergeReport l e := by
  simp [Mach.eventReport, hrun, hlink, hev, hroom, Mach.unstaged]

end

/-- A lane that has staged nothing reports nothing. -/
theorem Mach.eventReport_of_empty {m : Mach} {l : LaneId} (hev : (m.lane l).events = []) : m.eventReport l = m := by
  simp [Mach.eventReport, hev]

/-- With room, one record of the lane is taken, and a delayed one stored under the next sequence. -/
theorem Mach.eventReport_room_spec {m : Mach} {l : LaneId} {e : Event} {t : List Event}
    (hrun : m.sc.regs.fld F.EVR_STATUS_RUNNING = 1) (hlink : (m.lane l).hostLink = true) (hev : (m.lane l).events = e :: t)
    (hroom : m.sc.bufferFull = false) :
    m.OnlyLane (m.eventReport l) l ∧ ((m.eventReport l).lane l).events = t ∧
    (e.delayed = true → (m.eventReport l).sc.regs.fld F.EVR_HEAD_SEQUENCE = nextSequence (m.sc.regs.fld F.EVR_HEAD_SEQUENCE) ∧
      (m.eventReport l).sc.unflushed = m.sc.unflushed ++ [m.sc.regs.fld F.EVR_HEAD_SEQUENCE]) := by
  rw [Mach.eventReport_of_room hrun hlink hev hroom]
  have hun := Mach.OnlyLane.unstaged m l t
  split
  next => 
    have hsc := (m.unstaged l t).storeReport_sc e (2 ^ laneIx l) false
    rw [Mach.unstaged_sc] at hsc
    exact ⟨hun.trans (.storeReport _ e _ _ l), by simp, fun _ => ⟨hsc.2.2, hsc.2.1⟩⟩
  next hd => exact ⟨hun.trans (.mergeReport _ l e), by simp, fun h => absurd h hd⟩

/-! ### Host links (R31, R440) -/

/-- What was staged stays in front. -/
theorem Lane.events_isPrefix_stage (x : Lane) (e : Event) : x.events <+: (x.stage e).events := by
  unfold Lane.stage
  split
  · exact ⟨_, rfl⟩
  · exact ⟨[], List.append_nil _⟩

/-- What was staged stays in front of a new record. -/
theorem Lane.events_isPrefix_addEvent (x : Lane) (e : Event) : x.events <+: (x.addEvent e).events := by
  unfold Lane.addEvent Lane.addEventAt
  refine List.IsPrefix.trans ?_ (Lane.events_isPrefix_stage _ _)
  split
  · exact Lane.events_isPrefix_stage { x with evLost := 0 } _
  · exact ⟨[], List.append_nil _⟩

/-- With room, and no lost records to tell of, a record is the last staged. -/
theorem Lane.events_addEvent_eq (x : Lane) (e : Event) (h : x.evLost = 0) (hroom : x.events.length < stagingMax) :
    (x.addEvent e).events = x.events ++ [{ e with delayed := !x.hostLink, fed := x.fedTime }] := by
  unfold Lane.addEvent Lane.addEventAt
  rw [if_neg (by simp [h])]
  unfold Lane.stage
  rw [if_pos hroom]

/-- A record touches nothing of a lane but staging and registers. -/
theorem Lane.rest_addEvent (x : Lane) (e : Event) :
    (x.addEvent e).si = x.si ∧ (x.addEvent e).role = x.role ∧ (x.addEvent e).hostLink = x.hostLink := by
  have h := (Lane.keeps_addEvent x e).1
  exact ⟨by rw [h], by rw [h], by rw [h]⟩

/-- A lane whose link has failed, before it stages the record of the failure. -/
def Lane.cutOff (x : Lane) : Lane :=
  { x with hostLink := false, events := x.events.map (fun e => { e with delayed := true }), regs := x.regs.put F.EVL_STATUS_RUNNING 0 }

theorem Mach.linkFails_of_up {m : Mach} {l : LaneId} (h : (m.lane l).hostLink = true) :
    m.linkFails l = ((m.updLane l Lane.cutOff).recordLane l Config.linkCode.toNat (laneIx l) 0 0 0).holding l true := by
  simp [Mach.linkFails, h]; rfl

theorem Mach.linkFails_of_down {m : Mach} {l : LaneId} (h : (m.lane l).hostLink = false) : m.linkFails l = m := by
  simp [Mach.linkFails, h]

theorem Mach.OnlyLane.recordLane (m : Mach) (l : LaneId) (code p0 p1 p2 p3 : Nat) :
    m.OnlyLane (m.recordLane l code p0 p1 p2 p3) l := by
  unfold Mach.recordLane
  have h := Lane.rest_addEvent (m.lane l) ⟨code, m.nowNs, p0, p1, p2, p3, false, false⟩
  exact .updLane h.1 h.2.1

theorem Mach.OnlyLane.linkFails (m : Mach) (l : LaneId) : m.OnlyLane (m.linkFails l) l := by
  cases h : (m.lane l).hostLink with
  | false => rw [Mach.linkFails_of_down h]; exact .refl m l
  | true =>
    rw [Mach.linkFails_of_up h]
    exact .trans (.updLane rfl rfl) (.trans (.recordLane _ l _ _ _ _ _) (.holding _ l true))

@[simp] theorem Mach.linkFails_sc (m : Mach) (l : LaneId) : (m.linkFails l).sc = m.sc := by
  unfold Mach.linkFails; split <;> simp

/-- After the failure of a lane's link it is down, and every other as before. -/
theorem Mach.hostLink_linkFails (m : Mach) (l k : LaneId) :
    ((m.linkFails l).lane k).hostLink = if k = l then false else (m.lane k).hostLink := by
  split
  next hk =>
    subst hk
    cases h : (m.lane k).hostLink with
    | false => rw [Mach.linkFails_of_down h, h]
    | true =>
      rw [Mach.linkFails_of_up h, Mach.hostLink_holding, Mach.recordLane, Mach.lane_updLane_self,
        (Lane.rest_addEvent _ _).2.2, Mach.lane_updLane_self]
      rfl
  next hk => rw [(Mach.OnlyLane.linkFails m l).lane_ne k hk]

/-- HOST_LINK_FAIL (R31): the lane holds its records, now delayed, and shows it; the record of the failure follows them. -/
theorem Mach.linkFails_spec {m : Mach} {l : LaneId} (h : (m.lane l).hostLink = true) :
    (m.lane l).events.map (fun e => { e with delayed := true }) <+: ((m.linkFails l).lane l).events ∧
    ((m.lane l).evLost = 0 → (m.lane l).events.length < stagingMax → ∃ e : Event, e.delayed = true ∧
      ((m.linkFails l).lane l).events = (m.lane l).events.map (fun e => { e with delayed := true }) ++ [e]) ∧
    ((m.linkFails l).lane l).regs.fld F.EVL_STATUS_HOLDING = 1 := by
  rw [Mach.linkFails_of_up h, Mach.fld_holding, Mach.events_holding, Mach.recordLane, Mach.lane_updLane_self, Mach.lane_updLane_self]
  refine ⟨Lane.events_isPrefix_addEvent (m.lane l).cutOff _,
    fun hlost hroom => ⟨_, ?_, Lane.events_addEvent_eq (m.lane l).cutOff _ hlost ?_⟩, rfl⟩
  · rfl
  · simpa [Lane.cutOff] using hroom

/-- The vectors that follow a change touch neither lanes nor devices. -/
theorem Mach.OnlyLane.vectored (m n : Mach) (bs : List Blk) (l : LaneId) : n.OnlyLane (m.vectored bs n) l := by
  induction bs generalizing n with
  | nil => exact .refl n l
  | cons b bs ih =>
    have hb : n.OnlyLane (m.vectorIf n b) l := .of_eq (by simp) (by simp) (by simp) (by simp) (by simp)
    exact hb.trans (ih (m.vectorIf n b))

@[simp] theorem Mach.lane_vectored (m n : Mach) (bs : List Blk) (k : LaneId) : (m.vectored bs n).lane k = n.lane k := by
  induction bs generalizing n with
  | nil => rfl
  | cons b bs ih => exact (ih (m.vectorIf n b)).trans (Mach.lane_vectorIf m n b k)

@[simp] theorem Mach.vectored_sc (m n : Mach) (bs : List Blk) : (m.vectored bs n).sc = n.sc := by
  induction bs generalizing n with
  | nil => rfl
  | cons b bs ih => exact (ih (m.vectorIf n b)).trans (Mach.vectorIf_sc m n b)

/-- A lane whose link is back. -/
def Lane.linked (x : Lane) : Lane := { x with hostLink := true, regs := x.regs.put F.EVL_STATUS_RUNNING 1 }

/-- The module with a lane's link up again and the vectors of what the lane has pending sent. -/
def Mach.linkUpAgain (m : Mach) (l : LaneId) : Mach :=
  let n := m.vectored laneBlks (m.updLane l Lane.linked)
  if (n.lane l).regs.pendingOf .dma ≠ 0 then n.sendVector (21 + laneIx l) else n

theorem Mach.linkBack_of_down {m : Mach} {l : LaneId} (h : (m.lane l).hostLink = false) :
    m.linkBack l = if ((m.linkUpAgain l).lane l).events.isEmpty then (m.linkUpAgain l).holding l false else m.linkUpAgain l := by
  unfold Mach.linkBack
  rw [if_neg (by simp [h])]
  rfl

theorem Mach.linkBack_of_up {m : Mach} {l : LaneId} (h : (m.lane l).hostLink = true) : m.linkBack l = m := by
  simp [Mach.linkBack, h]

theorem Mach.OnlyLane.linkUpAgain (m : Mach) (l : LaneId) : m.OnlyLane (m.linkUpAgain l) l := by
  unfold Mach.linkUpAgain
  dsimp only
  have hup : m.OnlyLane (m.updLane l Lane.linked) l := .updLane rfl rfl
  refine (hup.trans (.vectored m _ laneBlks l)).trans ?_
  split
  · exact .of_eq (by simp) (by simp) (by simp) (by simp) (by simp)
  · exact .refl _ l

theorem Mach.lane_linkUpAgain (m : Mach) (l : LaneId) :
    (m.linkUpAgain l).lane l = (m.lane l).linked := by
  unfold Mach.linkUpAgain; dsimp only; split <;> simp

@[simp] theorem Mach.linkUpAgain_sc (m : Mach) (l : LaneId) : (m.linkUpAgain l).sc = m.sc := by
  unfold Mach.linkUpAgain; dsimp only; split <;> simp

theorem Mach.OnlyLane.linkBack (m : Mach) (l : LaneId) : m.OnlyLane (m.linkBack l) l := by
  cases h : (m.lane l).hostLink with
  | true => rw [Mach.linkBack_of_up h]; exact .refl m l
  | false =>
    rw [Mach.linkBack_of_down h]
    refine (Mach.OnlyLane.linkUpAgain m l).trans ?_
    split
    · exact .holding _ l false
    · exact .refl _ l

@[simp] theorem Mach.linkBack_sc (m : Mach) (l : LaneId) : (m.linkBack l).sc = m.sc := by
  cases h : (m.lane l).hostLink with
  | true => rw [Mach.linkBack_of_up h]
  | false => rw [Mach.linkBack_of_down h]; split <;> simp

/-- HOST_LINK_RESTORE (R31): the link is up, and the lane's records go out from its staging. -/
theorem Mach.linkBack_spec {m : Mach} {l : LaneId} (h : (m.lane l).hostLink = false) :
    ((m.linkBack l).lane l).hostLink = true ∧ ((m.linkBack l).lane l).events = (m.lane l).events ∧
    ((m.linkBack l).lane l).regs.fld F.EVL_STATUS_RUNNING = 1 := by
  have hrun : ((m.linkUpAgain l).lane l).regs.fld F.EVL_STATUS_RUNNING = 1 := by
    rw [Mach.lane_linkUpAgain, Lane.linked, Regs.fld_put_same _ _ _ (by decide) (by decide)]
    rfl
  rw [Mach.linkBack_of_down h]
  split
  · rw [Mach.running_holding, Mach.hostLink_holding, Mach.events_holding]
    exact ⟨by rw [Mach.lane_linkUpAgain]; rfl, by rw [Mach.lane_linkUpAgain]; rfl, hrun⟩
  · exact ⟨by rw [Mach.lane_linkUpAgain]; rfl, by rw [Mach.lane_linkUpAgain]; rfl, hrun⟩

/-- After a lane's link is back it is up, and every other as before. -/
theorem Mach.hostLink_linkBack (m : Mach) (l k : LaneId) :
    ((m.linkBack l).lane k).hostLink = if k = l then true else (m.lane k).hostLink := by
  split
  next hk =>
    subst hk
    cases h : (m.lane k).hostLink with
    | true => rw [Mach.linkBack_of_up h, h]
    | false => exact (Mach.linkBack_spec h).1
  next hk => rw [(Mach.OnlyLane.linkBack m l).lane_ne k hk]

/-! ### PERST# (R440) -/

/-- The module with every lane's link failed. -/
def Mach.failLinks (m : Mach) : Mach := laneIds.foldl Mach.linkFails m

theorem Mach.failLinks_eq (m : Mach) : m.failLinks = ((m.linkFails .a).linkFails .b).linkFails .c := rfl

theorem Mach.hostLink_failLinks (m : Mach) (k : LaneId) : (m.failLinks.lane k).hostLink = false := by
  rw [Mach.failLinks_eq]
  cases k <;> simp only [Mach.hostLink_linkFails] <;> rfl

theorem Mach.failLinks_frame (m : Mach) :
    m.failLinks.sys = m.sys ∧ m.failLinks.sc = m.sc ∧ ∀ k, (m.failLinks.lane k).si = (m.lane k).si := by
  have h := Mach.OnlyLane.linkFails
  rw [Mach.failLinks_eq]
  exact ⟨by rw [(h _ .c).sys, (h _ .b).sys, (h m .a).sys], by simp,
    fun k => by rw [(h _ .c).si_all, (h _ .b).si_all, (h m .a).si_all]⟩

/-- The link of a lane is back where it is one of a set. -/
def Mach.restoreLink (u : Nat) (m : Mach) (l : LaneId) : Mach := if bitOf u (laneIx l) then m.linkBack l else m

/-- The module with the links of a set of lanes back. -/
def Mach.restoreLinks (m : Mach) (u : Nat) : Mach := laneIds.foldl (Mach.restoreLink u) m

theorem Mach.restoreLinks_eq (m : Mach) (u : Nat) :
    m.restoreLinks u = (((m.restoreLink u .a).restoreLink u .b).restoreLink u .c) := rfl

theorem Mach.restoreLink_sys (m : Mach) (u : Nat) (l : LaneId) : (m.restoreLink u l).sys = m.sys := by
  unfold Mach.restoreLink
  split
  · exact (Mach.OnlyLane.linkBack m l).sys
  · rfl

theorem Mach.restoreLink_sc (m : Mach) (u : Nat) (l : LaneId) : (m.restoreLink u l).sc = m.sc := by
  unfold Mach.restoreLink; split <;> simp

theorem Mach.hostLink_restoreLink (m : Mach) (u : Nat) (l k : LaneId) :
    ((m.restoreLink u l).lane k).hostLink = ((decide (k = l) && bitOf u (laneIx l)) || (m.lane k).hostLink) := by
  unfold Mach.restoreLink
  split
  next hu => rw [Mach.hostLink_linkBack]; split <;> simp [*]
  next hu => simp [hu]

/-- From no link on, those of the set and no others are up. -/
theorem Mach.hostLink_restoreLinks {m : Mach} (u : Nat) (h : ∀ k, (m.lane k).hostLink = false) (k : LaneId) :
    ((m.restoreLinks u).lane k).hostLink = bitOf u (laneIx k) := by
  rw [Mach.restoreLinks_eq]
  simp only [Mach.hostLink_restoreLink, h]
  cases k <;> simp

theorem Mach.restoreLinks_frame (m : Mach) (u : Nat) : (m.restoreLinks u).sys = m.sys ∧ (m.restoreLinks u).sc = m.sc := by
  rw [Mach.restoreLinks_eq]
  exact ⟨by simp only [Mach.restoreLink_sys], by simp only [Mach.restoreLink_sc]⟩

/-- The link up, and the two free values of its width and speed taken. -/
def Mach.retrained (m : Mach) : Mach := { m.fresh.2.fresh.2 with sc := { m.fresh.2.fresh.2.sc with linkUp := true } }

@[simp] theorem Mach.retrained_sys (m : Mach) : m.retrained.sys = { m.sys with free := m.sys.free + 1 + 1 } := rfl
@[simp] theorem Mach.retrained_sc (m : Mach) : m.retrained.sc = { m.sc with linkUp := true } := rfl
@[simp] theorem Mach.lane_retrained (m : Mach) (l : LaneId) : m.retrained.lane l = m.lane l := Mach.lane_congr rfl rfl rfl l

/-- The link trains, and HBR.STATUS and HBR.LINK show it. -/
theorem Mach.linkTrained_eq (m : Mach) : ∃ w v,
    m.linkTrained = ((m.retrained.putSc F.HBR_STATUS_LINK_UP 1).putSc F.HBR_LINK_WIDTH w).putSc F.HBR_LINK_SPEED v := ⟨_, _, rfl⟩

theorem Mach.linkTrained_spec (m : Mach) :
    m.linkTrained.sc.linkUp = true ∧ m.linkTrained.sc.perst = m.sc.perst ∧ m.linkTrained.sc.regs.fld F.HBR_STATUS_LINK_UP = 1 ∧
    (∀ k, m.linkTrained.lane k = m.lane k) ∧ m.linkTrained.sys = { m.sys with free := m.linkTrained.sys.free } := by
  obtain ⟨w, v, h⟩ := m.linkTrained_eq
  rw [h]
  refine ⟨by simp, by simp -implicitDefEqProofs, ?_, by simp, by simp -implicitDefEqProofs⟩
  simp (disch := decide) [Regs.fld_put_ne, Regs.fld_put_same]

/-- The links of the lanes failed, those that were up kept, the link down and the MSI-X structures reset. -/
def Mach.perstBegun (m : Mach) : Mach :=
  { m.failLinks with
    sc := { m.failLinks.sc with perst := some (laneSet (fun k => (m.lane k).hostLink)), linkUp := false }, msi := Msix.reset }

/-- PERST# is asserted: the links of the lanes count as failed, and those that were up are kept. -/
theorem Mach.perst_asserted_spec {m : Mach} (h : m.sc.perst = none) :
    (m.perst true).sc.linkUp = false ∧ (∀ k, ((m.perst true).lane k).hostLink = false) ∧
    (m.perst true).sc.perst = some (laneSet (fun k => (m.lane k).hostLink)) ∧
    (m.perst true).sc.regs.fld F.HBR_STATUS_LINK_UP = 0 ∧ (m.perst true).sys = m.sys ∧
    ∀ k, ((m.perst true).lane k).si = (m.lane k).si := by
  have he : m.perst true = ((((m.perstBegun).putSc F.HBR_STATUS_LINK_UP 0).incSc F.HBR_LINK_DOWN_COUNT).raiseSc .hbr I.HBR_LINK) := by
    unfold Mach.perst; rw [h]; rfl
  have hlane : ∀ k, m.perstBegun.lane k = m.failLinks.lane k := Mach.lane_congr rfl rfl rfl
  obtain ⟨hs, -, hsi⟩ := m.failLinks_frame
  rw [he]
  refine ⟨?_, fun k => ?_, ?_, ?_, ?_, fun k => ?_⟩
  · simp [Mach.incSc, Mach.perstBegun]
  · simp [hlane, Mach.hostLink_failLinks]
  · simp [Mach.incSc, Mach.perstBegun]
  · simp (disch := decide) [Mach.incSc, Regs.fld_setBit_ne, Regs.fld_inc_ne, Regs.fld_put_same]
  · simpa [Mach.perstBegun] using hs
  · simp [hlane, hsi]

/-- PERST# is deasserted: the link trains, and the links of the lanes kept are back. -/
theorem Mach.perst_deasserted_spec {m : Mach} {u : Nat} (h : m.sc.perst = some u) (hdown : ∀ k, (m.lane k).hostLink = false) :
    (m.perst false).sc.linkUp = true ∧ (m.perst false).sc.perst = none ∧
    (m.perst false).sc.regs.fld F.HBR_STATUS_LINK_UP = 1 ∧ (∀ k, ((m.perst false).lane k).hostLink = bitOf u (laneIx k)) ∧
    (m.perst false).sys = { m.sys with free := (m.perst false).sys.free } := by
  have he : m.perst false = ((({ m with sc := { m.sc with perst := none } } : Mach).restoreLinks u).linkTrained).raiseSc .hbr I.HBR_LINK := by
    unfold Mach.perst; rw [h]; rfl
  obtain ⟨hup, hperst, hst, hlane, hsys⟩ := (({ m with sc := { m.sc with perst := none } } : Mach).restoreLinks u).linkTrained_spec
  obtain ⟨hs, hsc⟩ := ({ m with sc := { m.sc with perst := none } } : Mach).restoreLinks_frame u
  rw [hs] at hsys
  rw [hsc] at hperst
  rw [he]
  refine ⟨?_, ?_, ?_, fun k => ?_, ?_⟩
  · simp [hup]
  · simp [hperst]
  · simp (disch := decide) [Regs.fld_setBit_ne, hst]
  · rw [Mach.lane_raiseSc, hlane]
    exact Mach.hostLink_restoreLinks u (fun k => by simp [hdown]) k
  · simpa using hsys

/-! ### The obligation -/

/-- Settles O40: what is taken from a lane leaves its staging alone, what is stored changes the Service Controller alone, and a host link
that fails or comes back changes its lane alone. -/
theorem reportsAndLinks : Obligations.ReportsAndLinks := by
  intro s l
  refine ⟨fun e t hrun hlink hev => ⟨fun hfull => ?_, fun hroom => ?_⟩, fun hev => ?_, fun w t hw => ?_, fun hw => ?_,
    fun hperst hup => ?_, fun hperst hdown => ?_, fun hperst => ?_, fun u hperst hdown => ?_⟩
  · have ho := Mach.OnlyLane.holding s.m l true
    have he := Mach.eventReport_of_full hrun hlink hev hfull
    refine completes_of_run (·.eventReport l) rfl ?_ ?_ <;> simp only [he]
    · exact ho.mode
    · exact ⟨by rw [Mach.events_holding, hev], Mach.fld_holding s.m l true, ho.lane_ne, ho.sys, ho.ph, by simp⟩
  · obtain ⟨ho, hevents, hstored⟩ := Mach.eventReport_room_spec hrun hlink hev hroom
    exact completes_of_run (·.eventReport l) rfl ho.mode ⟨hevents, ho.lane_ne, ho.sys, ho.ph, ho.si, hstored⟩
  · have he := Mach.eventReport_of_empty hev
    exact completes_of_run (·.eventReport l) rfl (by simp only [he]) he
  · have he : s.m.mergeTimeout = ({ s.m with sc := { s.m.sc with waiting := t } } : Mach).storeReport w.ev w.lanes.toNat
        (decide (2 ≤ lanesIn w.lanes.toNat)) := by unfold Mach.mergeTimeout; rw [hw]
    have ho := Mach.OnlyLane.storeReport { s.m with sc := { s.m.sc with waiting := t } } w.ev w.lanes.toNat
      (decide (2 ≤ lanesIn w.lanes.toNat)) l
    obtain ⟨hwait, hunfl, hhead⟩ := Mach.storeReport_sc { s.m with sc := { s.m.sc with waiting := t } } w.ev w.lanes.toNat
      (decide (2 ≤ lanesIn w.lanes.toNat))
    rw [← he] at ho hwait hunfl hhead
    exact completes_of_run Mach.mergeTimeout rfl ho.mode ⟨hwait, hhead, hunfl, fun k => by rw [he]; simp, ho.sys⟩
  · have he : s.m.mergeTimeout = s.m := by unfold Mach.mergeTimeout; rw [hw]
    exact completes_of_run Mach.mergeTimeout rfl (by rw [he]) he
  · have he : s.m.hostLinkFail l = s.m.linkFails l := by unfold Mach.hostLinkFail; rw [hperst]
    have ho := Mach.OnlyLane.linkFails s.m l
    obtain ⟨hpre, hrec, hhold⟩ := Mach.linkFails_spec hup
    have hlink : ((s.m.linkFails l).lane l).hostLink = false := by rw [Mach.hostLink_linkFails, if_pos rfl]
    rw [← he] at ho hpre hrec hhold hlink
    exact completes_of_run (·.hostLinkFail l) rfl ho.mode ⟨hlink, hpre, hrec, hhold, ho.lane_ne, ho.sys, by rw [he]; simp⟩
  · have he : s.m.hostLinkRestore l = s.m.linkBack l := by unfold Mach.hostLinkRestore; rw [hperst]
    have ho := Mach.OnlyLane.linkBack s.m l
    obtain ⟨hlink, hevents, hrun⟩ := Mach.linkBack_spec hdown
    rw [← he] at ho hlink hevents hrun
    exact completes_of_run (·.hostLinkRestore l) rfl ho.mode ⟨hlink, hevents, hrun, ho.lane_ne, ho.sys, by rw [he]; simp⟩
  · obtain ⟨hup, hlinks, hkept, hst, hsys, hsi⟩ := Mach.perst_asserted_spec hperst
    exact completes_of_run (·.perst true) rfl (by rw [hsys]) ⟨hup, hlinks, hkept, hst, hsys, hsi⟩
  · obtain ⟨hup, hnone, hst, hlinks, hsys⟩ := Mach.perst_deasserted_spec hperst hdown
    exact completes_of_run (·.perst false) rfl (by rw [hsys]) ⟨hup, hnone, hst, hlinks, hsys⟩

end Sys2Proof.Machine

/-! # The assembly of frames in the Port Hub (R14, R155, R190, R191) -/
namespace Sys2Proof.Machine

/-! ### Folds, and lists without repetition -/

/-- What an element of a list establishes, from an invariant that the others keep, and the others keep too, holds after the list. -/
theorem foldl_of_mem {α β : Type} {op : β → α → β} {P Q : β → Prop} {l : List α} {d : α} {b : β} (hd : d ∈ l) (hb : Q b)
    (hQ : ∀ b, Q b → ∀ a ∈ l, Q (op b a)) (hset : ∀ b, Q b → P (op b d)) (hP : ∀ b, P b → ∀ a ∈ l, P (op b a)) :
    P (l.foldl op b) := by
  obtain ⟨s, t, rfl⟩ := List.append_of_mem hd
  rw [List.foldl_append, List.foldl_cons]
  have hs : Q (s.foldl op b) := List.foldlRecOn s op hb (fun b hb a ha => hQ b hb a (by simp [ha]))
  exact List.foldlRecOn t op (hset _ hs) (fun b hb a ha => hP b hb a (by simp [ha]))

/-- The model's `dedup` keeps every element. -/
theorem mem_dedup {α : Type} [DecidableEq α] {l : List α} {a : α} : a ∈ dedup l ↔ a ∈ l := by
  have key : ∀ (l acc : List α), a ∈ l.foldl (fun acc x => if acc.contains x then acc else acc ++ [x]) acc ↔ a ∈ acc ∨ a ∈ l := by
    intro l
    induction l with
    | nil => simp
    | cons x t ih =>
      intro acc
      rw [List.foldl_cons, ih]
      split
      next hx =>
        have hx : x ∈ acc := by simpa using hx
        constructor
        · rintro (h | h) <;> simp [h]
        · rintro (h | h)
          · exact .inl h
          · obtain rfl | h := List.mem_cons.mp h
            · exact .inl hx
            · exact .inr h
      next => simp [or_assoc]
  simpa [dedup] using key l []

/-! ### What the lanes offer for a node (R14, R155) -/

/-- Launch and coded part of the payloads of the lanes taken for a node, in the order of the lanes. -/
def Mach.offers (m : Mach) (taken : LaneId → Bool) (d : Nat) : List (Nat × List Byte) :=
  (laneIds.filterMap (fun l => takenPayload m taken l d)).map (fun q => (q.launch, q.part))

theorem mem_laneIds (l : LaneId) : l ∈ laneIds := by cases l <;> decide

/-- Two or three equal payloads are a majority without exception. -/
theorem majority_replicate {α : Type} [DecidableEq α] (a : α) {n : Nat} (h2 : 2 ≤ n) (h3 : n ≤ 3) :
    majority (List.replicate n a) = some (a, 0) := by
  obtain rfl | rfl : n = 2 ∨ n = 3 := by omega
  · simp [List.replicate, majority]
  · simp [List.replicate, majority]

section
variable {m : Mach} {taken : LaneId → Bool} {d : Nat}

theorem takenPayload_eq_some {l : LaneId} {p : Payload} (h : takenPayload m taken l d = some p) :
    taken l = true ∧ p ∈ (m.lane l).staged ∧ p.node = d := by
  unfold takenPayload at h
  split at h
  next ht => exact ⟨ht, List.mem_of_find?_eq_some h, by simpa using List.find?_some h⟩
  next => simp at h

theorem takenPayload_eq_none {l : LaneId} (h : taken l = false) : takenPayload m taken l d = none := by
  simp [takenPayload, h]

/-- Two lanes and more that hand over one payload agree on it. -/
theorem majority_offers_of_agree {la : Nat} {pa : List Byte} (htwo : ∃ l k, l ≠ k ∧ taken l = true ∧ taken k = true)
    (hsame : ∀ l, taken l = true → takenPayload m taken l d = some ⟨d, la, pa⟩) :
    majority (m.offers taken d) = some ((la, pa), 0) := by
  obtain ⟨l, k, hne, hl, hk⟩ := htwo
  have hsome : ∀ l, (takenPayload m taken l d).isSome = taken l := fun l => by
    cases ht : taken l with
    | true => rw [hsame l ht]; rfl
    | false => rw [takenPayload_eq_none ht]; rfl
  have hlen : (m.offers taken d).length = (laneIds.filter taken).length := by
    rw [Mach.offers, List.length_map, List.length_filterMap_eq_countP, List.countP_eq_length_filter]
    simp only [hsome]
  have hall : m.offers taken d = List.replicate (laneIds.filter taken).length (la, pa) := by
    refine List.eq_replicate_iff.mpr ⟨hlen, fun f hf => ?_⟩
    simp only [Mach.offers, List.mem_map, List.mem_filterMap] at hf
    obtain ⟨p, ⟨l, -, hp⟩, rfl⟩ := hf
    obtain rfl : ⟨d, la, pa⟩ = p := by simpa [hsame l (takenPayload_eq_some hp).1] using hp
    rfl
  have hsub : [l, k] ⊆ laneIds.filter taken := by simp [mem_laneIds, hl, hk]
  have h2 : 2 ≤ (laneIds.filter taken).length := (List.subperm_of_subset (by simpa using hne) hsub).length_le
  rw [hall]
  exact majority_replicate _ h2 (List.length_filter_le _ _)

/-- Three lanes that hand over three different payloads: lane A's stands. -/
theorem majority_offers_of_three {p q r : Payload} (ha : takenPayload m taken .a d = some p) (hb : takenPayload m taken .b d = some q)
    (hc : takenPayload m taken .c d = some r) (hab : (p.launch, p.part) ≠ (q.launch, q.part))
    (hbc : (q.launch, q.part) ≠ (r.launch, r.part)) (hac : (p.launch, p.part) ≠ (r.launch, r.part)) :
    majority (m.offers taken d) = some ((p.launch, p.part), 3) := by
  have ho : m.offers taken d = [(p.launch, p.part), (q.launch, q.part), (r.launch, r.part)] := by
    simp [Mach.offers, laneIds, ha, hb, hc]
  rw [ho, majority, if_neg hab, if_neg hac, if_neg hbc]

/-- Two lanes alone that hand over two different payloads. -/
theorem majority_offers_of_two {x y : LaneId} {p q : Payload} (hxy : x ≠ y) (htaken : ∀ l, taken l = true ↔ l = x ∨ l = y)
    (hx : takenPayload m taken x d = some p) (hy : takenPayload m taken y d = some q)
    (hpq : (p.launch, p.part) ≠ (q.launch, q.part)) : ∃ f, majority (m.offers taken d) = some (f, 2) := by
  have hnone : ∀ l, l ≠ x → l ≠ y → takenPayload m taken l d = none := fun l hlx hly =>
    takenPayload_eq_none (by simpa [hlx, hly] using htaken l)
  have ho : m.offers taken d = [(p.launch, p.part), (q.launch, q.part)] ∨ m.offers taken d = [(q.launch, q.part), (p.launch, p.part)] := by
    cases x <;> cases y <;> simp [Mach.offers, laneIds, hx, hy, hnone] at hxy ⊢
  obtain h | h := ho <;> rw [h]
  · exact ⟨_, by rw [majority, if_neg hpq]⟩
  · exact ⟨_, by rw [majority, if_neg hpq.symm]⟩

/-- Three payloads that differ are three. -/
theorem length_of_majority_eq_three {α : Type} [DecidableEq α] {l : List α} {f : α} (h : majority l = some (f, 3)) : l.length = 3 := by
  unfold majority at h
  split at h
  case h_1 => rfl
  case h_2 => split at h <;> simp at h
  case h_3 => simp at h
  case h_4 => simp at h

/-- Where a lane is not taken, no three payloads differ. -/
theorem majority_offers_ne_three {z : LaneId} (hz : taken z = false) {f : Nat × List Byte} {how : Nat}
    (h : majority (m.offers taken d) = some (f, how)) : how ≠ 3 := by
  have hnone : takenPayload m taken z d = none := takenPayload_eq_none hz
  have hothers : laneIds.filterMap (fun l => takenPayload m taken l d) =
      (laneIds.filter (fun l => decide (l ≠ z))).filterMap (fun l => takenPayload m taken l d) := by
    cases z <;> simp [laneIds, List.filterMap_cons, hnone]
  have hlen : (m.offers taken d).length ≤ 2 := by
    rw [Mach.offers, List.length_map, hothers]
    exact (List.length_filterMap_le _ _).trans (by cases z <;> decide)
  rintro rfl
  have := length_of_majority_eq_three h
  omega

end

/-! ### The frames of a node (R14, R155) -/

/-- The slot that the frames of a node stand in. -/
def Mach.frameKey (m : Mach) (bc d : Nat) : Nat := d + 2048 * m.leadLane.img.frameSlot (nodePort d) bc

theorem Mach.frameKey_ne {m : Mach} {bc d e : Nat} (hd : d < 2048) (he : e < 2048) (h : d ≠ e) : m.frameKey bc d ≠ m.frameKey bc e := by
  unfold Mach.frameKey; omega

@[simp] theorem Mach.incPh_ph (m : Mach) (f : Field) : (m.incPh f).ph = { m.ph with regs := m.ph.regs.inc f } := rfl
@[simp] theorem Mach.lane_withPh (m : Mach) (p : Ph) (l : LaneId) : ({ m with ph := p } : Mach).lane l = m.lane l := by cases l <;> rfl

theorem Mach.frames_incPh (m : Mach) (f : Field) : (m.incPh f).ph.frames = m.ph.frames := by rw [Mach.incPh_ph]
theorem Mach.frames_raisePh (m : Mach) (b : Blk) (i : Nat) : (m.raisePh b i).ph.frames = m.ph.frames := by rw [Mach.raisePh_ph]

/-- PHB.INT_RAW shows that three payloads of a node differed. -/
def Mach.Payload3 (m : Mach) : Prop := bitOf (m.ph.regs.get (blkBase .phb + 0x10)).toNat I.PHB_PAYLOAD_3 = true

/-- It stays while the Port Hub counts and raises. -/
theorem Mach.Payload3.raisePh_incPh {m : Mach} (h : m.Payload3) {f : Field} (hf : blkBase .phb + 0x10 ≠ f.addr) {i : Nat} (hi : i < 32) :
    ((m.incPh f).raisePh .phb i).Payload3 := by
  unfold Mach.Payload3
  rw [Mach.raisePh_ph]
  refine Regs.bit_setBit_keeps _ _ _ _ _ hi ?_
  rw [Mach.incPh_ph, Regs.inc, Regs.get_put_ne _ _ hf]
  exact h

/-- Lanes, Service Controller, mode and exclusions due are as before, and so are the ports and nodes that the Port Hub holds. -/
def Mach.HubKeeps (m n : Mach) : Prop :=
  (∀ l, n.lane l = m.lane l) ∧ n.sc = m.sc ∧ n.sys.mode = m.sys.mode ∧ n.sys.pendingExcl = m.sys.pendingExcl ∧
  n.ph.nodes = m.ph.nodes ∧ n.ph.ports = m.ph.ports

theorem Mach.HubKeeps.refl (m : Mach) : m.HubKeeps m := ⟨fun _ => rfl, rfl, rfl, rfl, rfl, rfl⟩

theorem Mach.HubKeeps.trans {m n o : Mach} (h : m.HubKeeps n) (g : n.HubKeeps o) : m.HubKeeps o := by
  obtain ⟨hl, hsc, hmode, hex, hnodes, hports⟩ := h
  obtain ⟨gl, gsc, gmode, gex, gnodes, gports⟩ := g
  exact ⟨fun l => (gl l).trans (hl l), gsc.trans hsc, gmode.trans hmode, gex.trans hex, gnodes.trans hnodes, gports.trans hports⟩

/-- What counts hand-offs touches: the Port Hub's registers and frames alone. -/
def Mach.HubCounts (m n : Mach) : Prop := m.HubKeeps n ∧ n.sys.pendingHalt = m.sys.pendingHalt

theorem Mach.HubCounts.refl (m : Mach) : m.HubCounts m := ⟨.refl m, rfl⟩

theorem Mach.HubCounts.trans {m n o : Mach} (h : m.HubCounts n) (g : n.HubCounts o) : m.HubCounts o :=
  ⟨h.1.trans g.1, g.2.trans h.2⟩

/-- A change of the Port Hub that keeps its nodes and ports. -/
theorem Mach.HubCounts.withPh {m : Mach} {p : Ph} (hnodes : p.nodes = m.ph.nodes) (hports : p.ports = m.ph.ports) :
    m.HubCounts { m with ph := p } := ⟨⟨Mach.lane_withPh m p, rfl, rfl, rfl, hnodes, hports⟩, rfl⟩

/-- A change of registers of the Port Hub. -/
theorem Mach.HubCounts.hubRegs (m : Mach) (r : Regs) : m.HubCounts { m with ph := { m.ph with regs := r } } := .withPh rfl rfl

theorem Mach.HubCounts.putPh (m : Mach) (f : Field) (v : Nat) : m.HubCounts (m.putPh f v) := .hubRegs m _

theorem Mach.HubCounts.incPh (m : Mach) (f : Field) : m.HubCounts (m.incPh f) := .hubRegs m _

theorem Mach.HubCounts.incPhReg (m : Mach) (a : Nat) : m.HubCounts (m.incPhReg a) := .hubRegs m _

theorem Mach.HubCounts.raisePh (m : Mach) (b : Blk) (i : Nat) : m.HubCounts (m.raisePh b i) :=
  ⟨⟨by simp, by simp, by simp, by simp, by simp, by simp⟩, by simp⟩

theorem Mach.HubCounts.foldl {α : Type} {f : Mach → α → Mach} (h : ∀ (m : Mach) a, m.HubCounts (f m a)) (l : List α) (m : Mach) :
    m.HubCounts (l.foldl f m) :=
  List.foldlRecOn l f (Mach.HubCounts.refl m) (fun n hn a _ => hn.trans (h n a))

/-- What is due of SAFE_HALT is none of what `HubKeeps` names. -/
theorem Mach.HubKeeps.pendingHalt (m : Mach) (f : Sys → Option Nat) :
    m.HubKeeps (m.updSys (fun s => { s with pendingHalt := f s })) := ⟨by simp, rfl, rfl, rfl, rfl, rfl⟩

/-- A frame with its codes in its slot, which is listed as split where no two lanes agreed on it. -/
def Mach.putFrame (m : Mach) (key : Nat) (f : List Byte × Nat × List W32) (how : Nat) : Mach :=
  { m with ph := { m.ph with
    frames := Store.set noFrame m.ph.frames key (some f), split := if 2 ≤ how then m.ph.split ++ [key] else m.ph.split } }

/-- PHB.ERR_ADDR names a node. -/
def Mach.nameNode (m : Mach) (d : Nat) : Mach :=
  { m with ph := { m.ph with regs := m.ph.regs.set (blkBase .phb + 0x24) (BitVec.ofNat 32 d) } }

theorem Mach.nameNode_sys (m : Mach) (d : Nat) : (m.nameNode d).sys = m.sys := rfl
theorem Mach.frames_nameNode (m : Mach) (d : Nat) : (m.nameNode d).ph.frames = m.ph.frames := rfl

theorem Mach.Payload3.updSys {m : Mach} (h : m.Payload3) (f : Sys → Sys) : (m.updSys f).Payload3 := h

theorem Mach.Payload3.nameNode {m : Mach} (h : m.Payload3) (d : Nat) : (m.nameNode d).Payload3 := by
  unfold Mach.Payload3 Mach.nameNode
  rw [Regs.get_set_ne _ _ (by decide)]
  exact h

theorem Mach.HubCounts.nameNode (m : Mach) (d : Nat) : m.HubCounts (m.nameNode d) := .hubRegs m _

/-- What a majority of this kind for a node brings, by the lanes that serve in `m` (R155). -/
def Mach.judgeMajority (m : Mach) (d how : Nat) (n : Mach) : Mach :=
  if how = 0 then n
  else if how = 1 then ((n.nameNode d).incPh F.PHB_PAYLOAD_DIFF_ONE_OFF).raisePh .phb I.PHB_PAYLOAD_2
  else if how = 3 then
    (((n.nameNode d).incPh F.PHB_PAYLOAD_DIFF_THREE_WAY).raisePh .phb I.PHB_PAYLOAD_3).updSys (fun s => { s with pendingHalt := some 4 })
  else if mode155 m.sys.mode && decide (m.serving.length = 2) then
    (n.nameNode d).updSys (fun s => { s with pendingHalt := some (s.pendingHalt.getD 3) })
  else n.nameNode d

section
variable {m : Mach} {taken : LaneId → Bool} {cluster bc d : Nat}

theorem Mach.assembleNode_of_none (n : Mach) (h : majority (m.offers taken d) = none) : m.assembleNode taken cluster bc n d = n := by
  unfold Mach.offers at h
  unfold Mach.assembleNode
  dsimp only
  rw [h]

/-- With a majority, the frame takes its slot with some codes, and the majority is judged. -/
theorem Mach.assembleNode_of_majority {la how : Nat} {pa : List Byte} (h : majority (m.offers taken d) = some ((la, pa), how)) :
    ∃ codes, ∀ n, m.assembleNode taken cluster bc n d = m.judgeMajority d how (n.putFrame (m.frameKey bc d) (pa, la, codes) how) := by
  unfold Mach.offers at h
  unfold Mach.assembleNode
  dsimp only
  rw [h]
  exact ⟨_, fun n => rfl⟩

end

section
variable (m : Mach) (d how : Nat) (n : Mach)

theorem Mach.frames_judgeMajority : (m.judgeMajority d how n).ph.frames = n.ph.frames := by
  unfold Mach.judgeMajority
  repeat' split
  · rfl
  · rw [Mach.frames_raisePh, Mach.frames_incPh, Mach.frames_nameNode]
  · rw [Mach.updSys_ph, Mach.frames_raisePh, Mach.frames_incPh, Mach.frames_nameNode]
  · rw [Mach.updSys_ph, Mach.frames_nameNode]
  · rw [Mach.frames_nameNode]

theorem Mach.HubKeeps.judgeMajority : n.HubKeeps (m.judgeMajority d how n) := by
  have hname : n.HubKeeps (n.nameNode d) := (Mach.HubCounts.nameNode n d).1
  have hcount : ∀ f i, n.HubKeeps (((n.nameNode d).incPh f).raisePh .phb i) := fun f i =>
    hname.trans ((Mach.HubCounts.incPh _ f).trans (.raisePh _ _ i)).1
  unfold Mach.judgeMajority
  repeat' split
  · exact .refl n
  · exact hcount _ _
  · exact (hcount _ _).trans (.pendingHalt _ _)
  · exact hname.trans (.pendingHalt _ _)
  · exact hname

/-- Three different payloads make SAFE_HALT with cause 4 due, two where two lanes serve with cause 3 unless one is due already. -/
theorem Mach.pendingHalt_judgeMajority : (m.judgeMajority d how n).sys.pendingHalt =
    if how = 0 ∨ how = 1 then n.sys.pendingHalt else if how = 3 then some 4
    else if mode155 m.sys.mode && decide (m.serving.length = 2) then some (n.sys.pendingHalt.getD 3) else n.sys.pendingHalt := by
  unfold Mach.judgeMajority
  by_cases h0 : how = 0
  · rw [if_pos h0, if_pos (.inl h0)]
  by_cases h1 : how = 1
  · rw [if_neg h0, if_pos h1, if_pos (.inr h1), Mach.raisePh_sys, Mach.incPh_sys, Mach.nameNode_sys]
  rw [if_neg h0, if_neg h1, if_neg (not_or.mpr ⟨h0, h1⟩)]
  repeat' split
  · rw [Mach.updSys_sys]
  · rw [Mach.updSys_sys, Mach.nameNode_sys]
  · rw [Mach.nameNode_sys]

/-- PAYLOAD_3 is raised by three different payloads. -/
theorem Mach.payload3_judgeMajority : (m.judgeMajority d 3 n).Payload3 := by
  unfold Mach.judgeMajority Mach.Payload3
  rw [if_neg (by decide), if_neg (by decide), if_pos rfl, Mach.updSys_ph, Mach.raisePh_ph]
  exact Regs.bit_setBit_self _ (blkBase .phb + 0x10) I.PHB_PAYLOAD_3 (by decide)

/-- No majority lowers it. -/
theorem Mach.Payload3.judgeMajority {n : Mach} (h : n.Payload3) : (m.judgeMajority d how n).Payload3 := by
  unfold Mach.judgeMajority
  repeat' split
  · exact h
  · exact (h.nameNode d).raisePh_incPh (by decide) (by decide)
  · exact ((h.nameNode d).raisePh_incPh (by decide) (by decide)).updSys _
  · exact (h.nameNode d).updSys _
  · exact h.nameNode d

end

/-! ### Assembling the frames of one node -/

@[simp] theorem Mach.frames_putFrame (m : Mach) (key : Nat) (f : List Byte × Nat × List W32) (how : Nat) :
    (m.putFrame key f how).ph.frames = Store.set noFrame m.ph.frames key (some f) := rfl

theorem Mach.HubKeeps.putFrame (m : Mach) (key : Nat) (f : List Byte × Nat × List W32) (how : Nat) : m.HubKeeps (m.putFrame key f how) :=
  ⟨Mach.lane_withPh m _, rfl, rfl, rfl, rfl, rfl⟩

/-- A frame of this payload and launch stands in a slot. -/
def Mach.HasFrame (m : Mach) (key : Nat) (pa : List Byte) (la : Nat) : Prop :=
  ∃ codes, Store.get noFrame m.ph.frames key = some (pa, la, codes)

section
variable {m : Mach} {taken : LaneId → Bool} {cluster bc d : Nat}

theorem Mach.HubKeeps.assembleNode (n : Mach) : n.HubKeeps (m.assembleNode taken cluster bc n d) := by
  cases h : majority (m.offers taken d) with
  | none => rw [Mach.assembleNode_of_none n h]; exact .refl n
  | some r =>
    obtain ⟨⟨la, pa⟩, how⟩ := r
    obtain ⟨codes, h⟩ := Mach.assembleNode_of_majority (cluster := cluster) (bc := bc) h
    rw [h n]
    exact (Mach.HubKeeps.putFrame n _ _ how).trans (.judgeMajority m d how _)

/-- The majority's payload stands in the slot of the node. -/
theorem Mach.hasFrame_assembleNode {la how : Nat} {pa : List Byte} (h : majority (m.offers taken d) = some ((la, pa), how)) (n : Mach) :
    (m.assembleNode taken cluster bc n d).HasFrame (m.frameKey bc d) pa la := by
  obtain ⟨codes, h⟩ := Mach.assembleNode_of_majority (cluster := cluster) (bc := bc) h
  exact ⟨codes, by rw [h n, Mach.frames_judgeMajority, Mach.frames_putFrame, Store.get_set_self]⟩

/-- The frames of another node stay. -/
theorem Mach.hasFrame_assembleNode_of_ne {n : Mach} {key : Nat} {pa : List Byte} {la : Nat} (hk : key ≠ m.frameKey bc d)
    (hn : n.HasFrame key pa la) : (m.assembleNode taken cluster bc n d).HasFrame key pa la := by
  cases h : majority (m.offers taken d) with
  | none => rw [Mach.assembleNode_of_none n h]; exact hn
  | some r =>
    obtain ⟨⟨la', pa'⟩, how⟩ := r
    obtain ⟨codes, h⟩ := Mach.assembleNode_of_majority (cluster := cluster) (bc := bc) h
    obtain ⟨old, hold⟩ := hn
    exact ⟨old, by rw [h n, Mach.frames_judgeMajority, Mach.frames_putFrame, Store.get_set_ne _ _ _ hk, hold]⟩

/-- Three different payloads of a node: SAFE_HALT with cause 4 is due and PAYLOAD_3 raised. -/
def Mach.ThreeWay (m : Mach) : Prop :=
  m.sys.pendingHalt = some 4 ∧ m.Payload3

theorem Mach.threeWay_assembleNode {f : Nat × List Byte} (h : majority (m.offers taken d) = some (f, 3)) (n : Mach) :
    (m.assembleNode taken cluster bc n d).ThreeWay := by
  obtain ⟨codes, h⟩ := Mach.assembleNode_of_majority (cluster := cluster) (bc := bc) h
  rw [h n]
  exact ⟨by rw [Mach.pendingHalt_judgeMajority]; simp, Mach.payload3_judgeMajority m d _⟩

/-- No other node lifts them. -/
theorem Mach.threeWay_assembleNode_of {n : Mach} (hn : n.ThreeWay) : (m.assembleNode taken cluster bc n d).ThreeWay := by
  cases h : majority (m.offers taken d) with
  | none => rw [Mach.assembleNode_of_none n h]; exact hn
  | some r =>
    obtain ⟨⟨la, pa⟩, how⟩ := r
    obtain ⟨codes, h⟩ := Mach.assembleNode_of_majority (cluster := cluster) (bc := bc) h
    obtain ⟨hhalt, hraised⟩ := hn
    have hput : (n.putFrame (m.frameKey bc d) (pa, la, codes) how).sys.pendingHalt = some 4 := hhalt
    rw [h n]
    refine ⟨?_, Mach.Payload3.judgeMajority m d how hraised⟩
    rw [Mach.pendingHalt_judgeMajority, hput]
    (repeat' split) <;> rfl

/-- Two lanes that serve and differ make SAFE_HALT with cause 3 due, unless another is. -/
theorem Mach.pendingHalt_assembleNode_of_two {f : Nat × List Byte} (h : majority (m.offers taken d) = some (f, 2))
    (hmode : mode155 m.sys.mode = true) (htwo : m.serving.length = 2) (n : Mach) :
    (m.assembleNode taken cluster bc n d).sys.pendingHalt = some (n.sys.pendingHalt.getD 3) := by
  obtain ⟨codes, h⟩ := Mach.assembleNode_of_majority (cluster := cluster) (bc := bc) h
  rw [h n, Mach.pendingHalt_judgeMajority, if_neg (by decide), if_neg (by decide), if_pos (by simp [hmode, htwo])]
  rfl

/-- Where no three payloads differ, a node makes no SAFE_HALT due but with cause 3. -/
theorem Mach.pendingHalt_assembleNode_of_ne_three (n : Mach) (h3 : ∀ f how, majority (m.offers taken d) = some (f, how) → how ≠ 3) :
    (m.assembleNode taken cluster bc n d).sys.pendingHalt = n.sys.pendingHalt ∨
    (m.assembleNode taken cluster bc n d).sys.pendingHalt = some (n.sys.pendingHalt.getD 3) := by
  cases h : majority (m.offers taken d) with
  | none => rw [Mach.assembleNode_of_none n h]; exact .inl rfl
  | some r =>
    obtain ⟨⟨la, pa⟩, how⟩ := r
    have hne := h3 _ _ h
    obtain ⟨codes, h⟩ := Mach.assembleNode_of_majority (cluster := cluster) (bc := bc) h
    have hput : (n.putFrame (m.frameKey bc d) (pa, la, codes) how).sys.pendingHalt = n.sys.pendingHalt := rfl
    rw [h n, Mach.pendingHalt_judgeMajority, hput, if_neg hne]
    repeat' split
    · exact .inl rfl
    · exact .inr rfl
    · exact .inl rfl

end

/-! ### The assembly of a basic cycle (R14, R155, R191) -/

/-- Late and faulty hand-offs are counted and shown. -/
theorem Mach.HubCounts.handOffs (m : Mach) (late bad : Nat) : m.HubCounts (m.handOffs late bad) := by
  have hlates : m.HubCounts ((laneIds.filter (fun l => bitOf late (laneIx l))).foldl (fun (m : Mach) _ => m.incPh F.PHB_LATE_PAYLOAD_COUNT) m) :=
    .foldl (fun n _ => .incPh n _) _ m
  unfold Mach.handOffs
  dsimp only
  generalize (laneIds.filter (fun l => bitOf late (laneIx l))).foldl (fun (m : Mach) _ => m.incPh F.PHB_LATE_PAYLOAD_COUNT) m = n at hlates ⊢
  refine Mach.HubCounts.trans ?_ (.foldl (fun n _ => .incPhReg n _) _ _)
  split
  · split
    · exact hlates.trans (.hubRegs n _)
    · exact hlates
  · refine Mach.HubCounts.trans (.trans ?_ (.putPh _ _ _)) (.raisePh _ _ _)
    split
    · exact hlates.trans (.hubRegs n _)
    · exact hlates

/-- The lanes that the Port Hub takes: those that speak and whose hand-off came in time and whole. -/
def Mach.takes (m : Mach) (late bad : Nat) (l : LaneId) : Bool := m.speaks l && !bitOf late (laneIx l) && !bitOf bad (laneIx l)

/-- The nodes for which a lane taken has handed over a payload. -/
def Mach.offeredNodes (m : Mach) (taken : LaneId → Bool) : List Nat :=
  dedup (laneIds.flatMap (fun l => if taken l then (m.lane l).staged.map (fun (q : Payload) => q.node) else []))

theorem Mach.mem_offeredNodes {m : Mach} {taken : LaneId → Bool} {d : Nat} :
    d ∈ m.offeredNodes taken ↔ ∃ l, taken l = true ∧ ∃ q ∈ (m.lane l).staged, q.node = d := by
  simp only [Mach.offeredNodes, mem_dedup, List.mem_flatMap, mem_laneIds, true_and]
  refine exists_congr fun l => ?_
  split <;> simp [*]

theorem Mach.mem_offeredNodes_of_taken {m : Mach} {taken : LaneId → Bool} {l : LaneId} {d : Nat} {p : Payload}
    (h : takenPayload m taken l d = some p) : d ∈ m.offeredNodes taken := by
  obtain ⟨ht, hp, hd⟩ := takenPayload_eq_some h
  exact Mach.mem_offeredNodes.mpr ⟨l, ht, p, hp, hd⟩

/-- The frames of the nodes offered formed one after another for lane basic cycle `bc` of a cluster. -/
def Mach.formFrames (m : Mach) (taken : LaneId → Bool) (cluster bc : Nat) (start : Mach) : Mach :=
  (m.offeredNodes taken).foldl (fun a d => m.assembleNode taken cluster bc a d) start

section
variable {m : Mach} {taken : LaneId → Bool} {cluster bc : Nat} (start : Mach)

theorem Mach.HubKeeps.formFrames : start.HubKeeps (m.formFrames taken cluster bc start) :=
  List.foldlRecOn _ _ (Mach.HubKeeps.refl start) (fun n hn _ _ => hn.trans (.assembleNode n))

/-- The majority's payload for a node stands in the node's slot. -/
theorem Mach.hasFrame_formFrames (hnodes : ∀ l, ∀ q ∈ (m.lane l).staged, q.node < 2048) {d la how : Nat} {pa : List Byte}
    (hd : d ∈ m.offeredNodes taken) (h : majority (m.offers taken d) = some ((la, pa), how)) :
    (m.formFrames taken cluster bc start).HasFrame (m.frameKey bc d) pa la := by
  have hlt : ∀ e ∈ m.offeredNodes taken, e < 2048 := fun e he => by
    obtain ⟨l, -, q, hq, rfl⟩ := Mach.mem_offeredNodes.mp he
    exact hnodes l q hq
  refine foldl_of_mem (P := fun n : Mach => n.HasFrame (m.frameKey bc d) pa la) (Q := fun _ => True) hd trivial (fun _ _ _ _ => trivial)
    (fun n _ => Mach.hasFrame_assembleNode h n) ?_
  intro n hn e he
  by_cases hde : d = e
  · subst hde
    exact Mach.hasFrame_assembleNode h n
  · exact Mach.hasFrame_assembleNode_of_ne (Mach.frameKey_ne (hlt d hd) (hlt e he) hde) hn

theorem Mach.threeWay_formFrames {d : Nat} {f : Nat × List Byte} (hd : d ∈ m.offeredNodes taken)
    (h : majority (m.offers taken d) = some (f, 3)) : (m.formFrames taken cluster bc start).ThreeWay :=
  foldl_of_mem (P := Mach.ThreeWay) (Q := fun _ => True) hd trivial (fun _ _ _ _ => trivial) (fun n _ => Mach.threeWay_assembleNode h n)
    (fun _ hn _ _ => Mach.threeWay_assembleNode_of hn)

/-- Where two lanes alone serve and are taken, a node on which they differ makes SAFE_HALT with cause 3 due. -/
theorem Mach.pendingHalt_formFrames {d : Nat} {f : Nat × List Byte} {z : LaneId} (hd : d ∈ m.offeredNodes taken)
    (h : majority (m.offers taken d) = some (f, 2)) (hz : taken z = false) (hmode : mode155 m.sys.mode = true)
    (htwo : m.serving.length = 2) (hstart : start.sys.pendingHalt = none) :
    (m.formFrames taken cluster bc start).sys.pendingHalt = some 3 := by
  have hstep := fun (n : Mach) (e : Nat) =>
    Mach.pendingHalt_assembleNode_of_ne_three (m := m) (taken := taken) (cluster := cluster) (bc := bc) (d := e) n
      (fun f how => majority_offers_ne_three (f := f) (how := how) hz)
  refine foldl_of_mem (P := fun n : Mach => n.sys.pendingHalt = some 3)
    (Q := fun n : Mach => n.sys.pendingHalt = none ∨ n.sys.pendingHalt = some 3) hd (.inl hstart) ?_ ?_ ?_
  · intro n hn e _
    obtain hs | hs := hstep n e <;> rw [hs]
    · exact hn
    · obtain hn | hn := hn <;> simp [hn]
  · intro n hn
    rw [Mach.pendingHalt_assembleNode_of_two h hmode htwo]
    obtain hn | hn := hn <;> simp [hn]
  · intro n hn e _
    obtain hs | hs := hstep n e <;> rw [hs] <;> simp [hn]

end

/-! ### The registers of the lanes taken -/

theorem laneSet_lt (p : LaneId → Bool) : laneSet p < 8 := by
  unfold laneSet
  cases p .a <;> cases p .b <;> cases p .c <;> decide

section
variable (m : Mach) (v : Nat)

theorem Mach.HubKeeps.hubLanes : m.HubKeeps (m.hubLanes v) :=
  ((Mach.HubCounts.putPh m _ _).trans ((Mach.HubCounts.putPh _ _ _).trans (.putPh _ _ _))).1

@[simp] theorem Mach.hubLanes_sys : (m.hubLanes v).sys = m.sys := by simp -implicitDefEqProofs [Mach.hubLanes]

@[simp] theorem Mach.frames_hubLanes : (m.hubLanes v).ph.frames = m.ph.frames := by simp -implicitDefEqProofs [Mach.hubLanes]

theorem Mach.hasFrame_hubLanes {key : Nat} {pa : List Byte} {la : Nat} (h : m.HasFrame key pa la) : (m.hubLanes v).HasFrame key pa la := by
  unfold Mach.HasFrame
  rw [Mach.frames_hubLanes]
  exact h

theorem Mach.Payload3.hubLanes {m : Mach} (h : m.Payload3) : (m.hubLanes v).Payload3 := by
  simpa (disch := decide) [Mach.Payload3, Mach.hubLanes, Regs.get_put_ne] using h

theorem Mach.lanesTaken_hubLanes (hv : v < 8) : (m.hubLanes v).ph.regs.fld F.PHB_LANES_TAKEN = v := by
  simp (disch := decide) [Mach.hubLanes, Regs.fld_put_ne, Regs.fld_put_beside, Regs.fld_put_same]
  exact Nat.mod_eq_of_lt hv

theorem Mach.lanesFilled_hubLanes : (m.hubLanes v).ph.regs.fld F.PHB_LANES_FILLED = 7 - v := by
  simp (disch := decide) [Mach.hubLanes, Regs.fld_put_ne, Regs.fld_put_same]
  exact Nat.mod_eq_of_lt (show 7 - v < 2 ^ 3 by omega)

end

/-! ### PH_FRAME_ASSEMBLY -/

section
variable {m : Mach} {late bad : Nat} (horigin : m.sys.originAgreed = true) (hpre : m.sys.preOrigin = false)
  (hdue : m.readmitDue = false)
include horigin hpre hdue

/-- While no lane is due for re-admission, the Port Hub forms the frames of the next basic cycle from the lanes that speak. -/
theorem Mach.assemble_eq : ∃ start, m.HubCounts start ∧ m.assemble late bad =
    (m.formFrames (m.takes late bad) ((m.sys.cluster * 16 + m.sys.bc + 1) / 16) ((m.sys.cluster * 16 + m.sys.bc + 1) % 16)
      start).hubLanes (laneSet (m.takes late bad)) := by
  unfold Mach.assemble
  simp only [horigin, hpre, hdue, Bool.not_false, Bool.and_true, Bool.not_true, Bool.false_eq_true, if_false, Bool.false_and, Bool.or_false]
  refine ⟨_, ?_, rfl⟩
  exact (Mach.HubCounts.handOffs m _ _).trans (.withPh rfl rfl)

/-- The Port Hub shows the lanes taken, and no lane, node or port changes. -/
theorem Mach.assemble_spec :
    (m.assemble late bad).ph.regs.fld F.PHB_LANES_TAKEN = laneSet (m.takes late bad) ∧
    (m.assemble late bad).ph.regs.fld F.PHB_LANES_FILLED = 7 - laneSet (m.takes late bad) ∧ m.HubKeeps (m.assemble late bad) := by
  obtain ⟨start, hstart, h⟩ := Mach.assemble_eq (late := late) (bad := bad) horigin hpre hdue
  rw [h]
  exact ⟨Mach.lanesTaken_hubLanes _ _ (laneSet_lt _), Mach.lanesFilled_hubLanes _ _,
    hstart.1.trans ((Mach.HubKeeps.formFrames start).trans (.hubLanes _ _))⟩

section
variable {d : Nat} {f : Nat × List Byte}

/-- The frame of a node is that of the majority's payload. -/
theorem Mach.hasFrame_assemble (hnodes : ∀ l, ∀ q ∈ (m.lane l).staged, q.node < 2048) {how : Nat}
    (hd : d ∈ m.offeredNodes (m.takes late bad)) (h : majority (m.offers (m.takes late bad) d) = some (f, how)) :
    (m.assemble late bad).HasFrame (m.frameKey ((m.sys.cluster * 16 + m.sys.bc + 1) % 16) d) f.2 f.1 := by
  obtain ⟨start, -, he⟩ := Mach.assemble_eq (late := late) (bad := bad) horigin hpre hdue
  rw [he]
  exact Mach.hasFrame_hubLanes _ _ (Mach.hasFrame_formFrames start hnodes hd h)

theorem Mach.threeWay_assemble (hd : d ∈ m.offeredNodes (m.takes late bad))
    (h : majority (m.offers (m.takes late bad) d) = some (f, 3)) : (m.assemble late bad).ThreeWay := by
  obtain ⟨start, -, he⟩ := Mach.assemble_eq (late := late) (bad := bad) horigin hpre hdue
  obtain ⟨hhalt, hraised⟩ := Mach.threeWay_formFrames (cluster := (m.sys.cluster * 16 + m.sys.bc + 1) / 16)
    (bc := (m.sys.cluster * 16 + m.sys.bc + 1) % 16) start hd h
  rw [he]
  exact ⟨hhalt, hraised.hubLanes _⟩

theorem Mach.pendingHalt_assemble {z : LaneId} (hd : d ∈ m.offeredNodes (m.takes late bad))
    (h : majority (m.offers (m.takes late bad) d) = some (f, 2)) (hz : m.takes late bad z = false)
    (hmode : mode155 m.sys.mode = true) (htwo : m.serving.length = 2) (hnone : m.sys.pendingHalt = none) :
    (m.assemble late bad).sys.pendingHalt = some 3 := by
  obtain ⟨start, hstart, he⟩ := Mach.assemble_eq (late := late) (bad := bad) horigin hpre hdue
  rw [he, Mach.hubLanes_sys]
  exact Mach.pendingHalt_formFrames start hd h hz hmode htwo (hstart.2.trans hnone)

end

end

/-- Two lanes that alone serve are two. -/
theorem Mach.length_serving_of_two {m : Mach} {x y : LaneId} (hxy : x ≠ y) (h : ∀ l, l ∈ m.serving ↔ l = x ∨ l = y) :
    m.serving.length = 2 := by
  have hserve : ∀ l, (m.lane l).isServing = decide (l = x ∨ l = y) := fun l => by
    have hl := h l
    simp only [Mach.serving, List.mem_filter, mem_laneIds, true_and] at hl
    rw [Bool.eq_iff_iff, hl, decide_eq_true_iff]
  unfold Mach.serving
  simp only [hserve]
  revert hxy
  cases x <;> cases y <;> decide

/-- Beside two lanes there is a third. -/
theorem exists_lane_ne (x y : LaneId) : ∃ z, z ≠ x ∧ z ≠ y := by
  have h : ∃ z ∈ laneIds, z ≠ x ∧ z ≠ y := by cases x <;> cases y <;> decide
  obtain ⟨z, -, hz⟩ := h
  exact ⟨z, hz⟩

/-- Settles O25: the frames are formed node by node, and what one node's majority leaves, its frame, PAYLOAD_3 and the SAFE_HALT due, the
other nodes keep. -/
theorem framesAssembled : Obligations.FramesAssembled := by
  intro s late bad horigin hpre hdue taken
  have htaken : s.m.takes late.toNat bad.toNat = taken := rfl
  obtain ⟨hshown, hfilled, hl, hsc, hmode, hex, hnodes, hports⟩ :=
    Mach.assemble_spec (late := late.toNat) (bad := bad.toNat) horigin hpre hdue
  have hrun : ∀ {P : Mach → Prop}, P (s.m.assemble late.toNat bad.toNat) → Completes (.phFrameAssembly late bad) s P :=
    fun h => completes_of_run (·.assemble late.toNat bad.toNat) rfl hmode h
  refine ⟨hrun ⟨hshown, hfilled, hnodes, hports, hl, hsc, hmode, hex, ?_⟩, ?_, ?_⟩
  · intro d la pa hlt htwo hsame
    obtain ⟨l, -, -, ht, -⟩ := id htwo
    exact Mach.hasFrame_assemble horigin hpre hdue hlt (Mach.mem_offeredNodes_of_taken (hsame l ht)) (majority_offers_of_agree htwo hsame)
  · intro d la pa lb pb lc pc _ hlt ha hb hc hab hbc hac
    have hd := Mach.mem_offeredNodes_of_taken ha
    have hmaj := majority_offers_of_three ha hb hc hab hbc hac
    obtain ⟨hhalt, hraised⟩ := Mach.threeWay_assemble (late := late.toNat) (bad := bad.toNat) horigin hpre hdue hd hmaj
    exact hrun ⟨hhalt, hraised, Mach.hasFrame_assemble horigin hpre hdue hlt hd hmaj⟩
  · intro d x y p q hxy htk hserve hm hnone hx hy hpq
    obtain ⟨f, hmaj⟩ := majority_offers_of_two hxy htk hx hy hpq
    obtain ⟨z, hzx, hzy⟩ := exists_lane_ne x y
    have hz : taken z = false := by simpa [hzx, hzy] using htk z
    have h155 : mode155 s.m.sys.mode = true := by
      simp only [List.mem_cons, List.not_mem_nil, or_false] at hm
      obtain h | h | h | h := hm <;> rw [h] <;> rfl
    exact hrun (Mach.pendingHalt_assemble horigin hpre hdue (Mach.mem_offeredNodes_of_taken hx) hmaj hz h155
      (Mach.length_serving_of_two hxy hserve) hnone)

end Sys2Proof.Machine

/-! # Flash slots (R59 to R61) -/
namespace Sys2Proof.Machine

/-! ### Changes of one slot -/

/-- From `m` to `n` slot `k` has become `x`; the other slot, every lane, `sys` and the memory of the Service Controller are as
before. -/
def Mach.SlotBecomes (m n : Mach) (k : Bool) (x : FlashSlot) : Prop :=
  n.slotOf (b2n k) = x ∧ n.slotOf (b2n !k) = m.slotOf (b2n !k) ∧ (∀ l, n.lane l = m.lane l) ∧ n.sys = m.sys ∧ n.sc.dram = m.sc.dram

/-- The module with other registers of the Service Controller. -/
def Mach.withCtl (m : Mach) (r : Regs) : Mach := { m with sc := { m.sc with regs := r } }

namespace Mach.SlotBecomes

variable {m n o : Mach} {k : Bool} {x y : FlashSlot}

theorem trans (h : m.SlotBecomes n k y) (g : n.SlotBecomes o k x) : m.SlotBecomes o k x := by
  obtain ⟨-, hother, hl, hs, hd⟩ := h
  obtain ⟨gslot, gother, gl, gs, gd⟩ := g
  exact ⟨gslot, gother.trans hother, fun l => (gl l).trans (hl l), gs.trans hs, gd.trans hd⟩

theorem sys (h : m.SlotBecomes n k x) : n.sys = m.sys := h.2.2.2.1

theorem mode (h : m.SlotBecomes n k x) : n.sys.mode = m.sys.mode := by rw [h.sys]

theorem refl (m : Mach) (k : Bool) : m.SlotBecomes m k (m.slotOf (b2n k)) := ⟨rfl, rfl, fun _ => rfl, rfl, rfl⟩

/-- Registers of the Service Controller hold no slot. -/
theorem withCtl (h : m.SlotBecomes n k x) (r : Regs) : m.SlotBecomes (n.withCtl r) k x :=
  h.trans ⟨h.1, rfl, Mach.lane_withSc n _, rfl, rfl⟩

theorem setSlot (m : Mach) (k : Bool) (x : FlashSlot) : m.SlotBecomes (m.setSlot (b2n k) x) k x := by
  cases k <;> exact ⟨rfl, rfl, Mach.lane_withSc m _, rfl, rfl⟩

end Mach.SlotBecomes

/-! ### The registers that show the slots -/

/-- UPD shows the slots in registers of the Service Controller. -/
theorem Mach.slotRegs_eq (m : Mach) : ∃ r, m.slotRegs = m.withCtl r := ⟨_, rfl⟩

theorem Mach.SlotBecomes.slotRegs {m n : Mach} {k : Bool} {x : FlashSlot} (h : m.SlotBecomes n k x) : m.SlotBecomes n.slotRegs k x := by
  obtain ⟨r, hr⟩ := n.slotRegs_eq
  rw [hr]
  exact h.withCtl r

/-- A change of one slot, shown in the registers. -/
theorem Mach.SlotBecomes.setSlot_slotRegs (m : Mach) (k : Bool) (x : FlashSlot) :
    m.SlotBecomes (m.setSlot (b2n k) x).slotRegs k x := (Mach.SlotBecomes.setSlot m k x).slotRegs

/-- UPD.IMG_SLOT_STATUS shows the state of each slot. -/
theorem Mach.slotState_slotRegs (m : Mach) (k : Bool) :
    m.slotRegs.sc.regs.fld (if k then F.UPD_IMG_SLOT_STATUS_B_STATE else F.UPD_IMG_SLOT_STATUS_A_STATE) = (m.slotOf (b2n k)).state % 16 := by
  unfold Mach.slotRegs
  cases k <;> simp (disch := decide) [Regs.fld_put_ne, Regs.fld_put_beside, Regs.fld_put_same] <;> rfl

/-- It shows the selected slot. -/
theorem Mach.selected_slotRegs (m : Mach) :
    m.slotRegs.sc.regs.fld F.UPD_IMG_SLOT_STATUS_SELECTED = m.sc.regs.fld F.UPD_IMG_SELECT_SLOT % 2 := by
  unfold Mach.slotRegs
  simp (disch := decide) [Regs.fld_put_ne, Regs.fld_put_same]
  rfl

theorem Mach.select_slotRegs (m : Mach) : m.slotRegs.sc.regs.fld F.UPD_IMG_SELECT_SLOT = m.sc.regs.fld F.UPD_IMG_SELECT_SLOT := by
  unfold Mach.slotRegs
  simp (disch := decide) [Regs.fld_put_ne]

/-- UPD.ERR_COUNT of a module. -/
def Mach.updErrors (m : Mach) : W32 := m.sc.regs.get (blkBase .upd + 0x20)

theorem Mach.updErrors_slotRegs (m : Mach) : m.slotRegs.updErrors = m.updErrors := by
  unfold Mach.slotRegs Mach.updErrors
  simp (disch := decide) [Regs.get_put_ne]

/-! ### Refusals -/

theorem Mach.errAt_upd (m : Mach) (a : Nat) : m.errAt .upd a =
    m.withCtl ((m.sc.regs.incReg (blkBase .upd + 0x20)).set (blkBase .upd + 0x24) (BitVec.ofNat 32 a)) := rfl

/-- A refusal of UPD is counted. -/
theorem Mach.updErrors_errAt (m : Mach) (a : Nat) :
    (m.errAt .upd a).updErrors.toNat = min (m.updErrors.toNat + 1) (2 ^ 32 - 1) := by
  rw [Mach.errAt_upd]
  unfold Mach.updErrors Mach.withCtl
  rw [Regs.get_set_ne _ _ (by decide), Regs.incReg, Regs.get_set_self, BitVec.toNat_ofNat, satAt]
  omega

/-- A refusal of UPD leaves the slots. -/
theorem Mach.SlotBecomes.errAt (m : Mach) (k : Bool) (a : Nat) : m.SlotBecomes (m.errAt .upd a) k (m.slotOf (b2n k)) := by
  rw [Mach.errAt_upd]
  exact (Mach.SlotBecomes.refl m k).withCtl _

/-! ### Slot commands (R59, R60) -/

/-- A slot may be written: the lock of UPD is open and the other slot is selected. -/
def Mach.MayWrite (m : Mach) (k : Bool) : Prop := m.sc.regs.lockOpen .upd = true ∧ m.sc.regs.fld F.UPD_IMG_SELECT_SLOT ≠ b2n k

section
variable {m : Mach} {k : Bool} {f : FlashSlot → Option FlashSlot}

theorem Mach.slotCommand_of_refused (h : ¬ m.MayWrite k) : m.slotCommand k f = m.errAt .upd 0x308 := by
  unfold Mach.slotCommand
  refine if_pos ?_
  by_cases hlock : m.sc.regs.lockOpen .upd = true
  · simpa [Mach.MayWrite, hlock] using h
  · simp [hlock]

theorem Mach.slotCommand_of_taken (h : m.MayWrite k) {x : FlashSlot} (hx : f (m.slotOf (b2n k)) = some x) :
    m.slotCommand k f = ((m.putSc F.UPD_IMG_WRITE_CTRL_SLOT (b2n k)).setSlot (b2n k) x).slotRegs := by
  obtain ⟨hlock, hsel⟩ := h
  have hx' : f ((m.putSc F.UPD_IMG_WRITE_CTRL_SLOT (b2n k)).slotOf (b2n k)) = some x := hx
  unfold Mach.slotCommand
  dsimp only
  rw [if_neg (by simp [hlock, hsel]), hx']

/-- A command that a slot takes changes that slot alone, and is not counted as an error. -/
theorem Mach.slotCommand_taken_spec (h : m.MayWrite k) {x : FlashSlot} (hx : f (m.slotOf (b2n k)) = some x) :
    m.SlotBecomes (m.slotCommand k f) k x ∧ (m.slotCommand k f).updErrors = m.updErrors := by
  rw [Mach.slotCommand_of_taken h hx]
  refine ⟨((Mach.SlotBecomes.refl m k).withCtl _).trans (.setSlot_slotRegs _ k x), ?_⟩
  rw [Mach.updErrors_slotRegs]
  cases k <;> simp (disch := decide) [Mach.updErrors, Mach.setSlot, b2n, Regs.get_put_ne]

end

/-- What IMG_OPEN makes of a slot with the length of UPD.IMG_WRITE_LEN, where it takes it. -/
def FlashSlot.opened (n : Nat) (x : FlashSlot) : Option FlashSlot :=
  if x.state = 0 ∧ 8 ≤ n ∧ n ≤ 0x80000000 ∧ n % 8 = 0 then some { x with state := 1, len := n, written := [], closing := false } else none

theorem Mach.imgOpen_eq (m : Mach) (k : Bool) :
    m.imgOpen k = m.slotCommand k (FlashSlot.opened (m.sc.regs.fld F.UPD_IMG_WRITE_LEN_LENGTH)) := rfl

/-- What IMG_CLOSE makes of a slot, where it takes it. -/
def FlashSlot.closed (n : Nat) (x : FlashSlot) : Option FlashSlot := if x.state = 1 then some { x with len := n, closing := true } else none

theorem Mach.imgClose_eq (m : Mach) (k : Bool) :
    m.imgClose k = m.slotCommand k (FlashSlot.closed (m.sc.regs.fld F.UPD_IMG_WRITE_LEN_LENGTH)) := rfl

section
variable {s : State} {k : Bool}

/-- IMG_ERASE of a slot that may be written. -/
theorem completes_imgErase (h : s.m.MayWrite k) : Completes (.imgErase k) s (fun m =>
    s.m.SlotBecomes m k { s.m.slotOf (b2n k) with state := 4, closing := false } ∧ m.updErrors = s.m.updErrors) := by
  have hs := Mach.slotCommand_taken_spec (f := fun x => some { x with state := 4, closing := false }) h rfl
  exact completes_of_run (·.imgErase k) rfl hs.1.mode hs

/-- IMG_OPEN of an EMPTY slot that may be written, with a length of R60. -/
theorem completes_imgOpen (h : s.m.MayWrite k) (hempty : (s.m.slotOf (b2n k)).state = 0)
    (h8 : 8 ≤ s.m.sc.regs.fld F.UPD_IMG_WRITE_LEN_LENGTH) (hmax : s.m.sc.regs.fld F.UPD_IMG_WRITE_LEN_LENGTH ≤ 0x80000000)
    (hmod : s.m.sc.regs.fld F.UPD_IMG_WRITE_LEN_LENGTH % 8 = 0) : Completes (.imgOpen k) s (fun m =>
    s.m.SlotBecomes m k { s.m.slotOf (b2n k) with
      state := 1, len := s.m.sc.regs.fld F.UPD_IMG_WRITE_LEN_LENGTH, written := [], closing := false } ∧
    m.updErrors = s.m.updErrors) := by
  have hs := Mach.slotCommand_taken_spec (f := FlashSlot.opened _) h (if_pos ⟨hempty, h8, hmax, hmod⟩)
  rw [← Mach.imgOpen_eq] at hs
  exact completes_of_run (·.imgOpen k) rfl hs.1.mode hs

/-- IMG_CLOSE of a slot in WRITING that may be written. -/
theorem completes_imgClose (h : s.m.MayWrite k) (hwriting : (s.m.slotOf (b2n k)).state = 1) : Completes (.imgClose k) s
    (s.m.SlotBecomes · k { s.m.slotOf (b2n k) with closing := true, len := s.m.sc.regs.fld F.UPD_IMG_WRITE_LEN_LENGTH }) := by
  have hs := Mach.slotCommand_taken_spec (f := FlashSlot.closed (s.m.sc.regs.fld F.UPD_IMG_WRITE_LEN_LENGTH)) h (if_pos hwriting)
  rw [← Mach.imgClose_eq] at hs
  exact completes_of_run (·.imgClose k) rfl hs.1.mode hs.1

/-- A slot that may not be written: its erase, open and close are refused alike. -/
theorem completes_of_not_mayWrite {c : Instr} {P : Mach → Prop} (hc : c ∈ [Instr.imgErase k, .imgOpen k, .imgClose k])
    (h : ¬ s.m.MayWrite k) (hP : P (s.m.errAt .upd 0x308)) : Completes c s P := by
  simp only [List.mem_cons, List.not_mem_nil, or_false] at hc
  have key : ∀ (g : Mach → Mach) f, exec c s = s.run g → g s.m = s.m.slotCommand k f → Completes c s P := fun g f hg he => by
    rw [Mach.slotCommand_of_refused h] at he
    exact completes_of_run g hg (by rw [he]; rfl) (by rw [he]; exact hP)
  obtain rfl | rfl | rfl := hc
  · exact key (·.imgErase k) _ rfl rfl
  · exact key (·.imgOpen k) _ rfl (Mach.imgOpen_eq _ k)
  · exact key (·.imgClose k) _ rfl (Mach.imgClose_eq _ k)

/-- IMG_ERASE_DONE of a slot that is being erased. -/
theorem completes_imgEraseDone (h : (s.m.slotOf (b2n k)).state = 4) :
    Completes (.imgEraseDone k) s (s.m.SlotBecomes · k FlashSlot.empty) := by
  have he : s.m.imgErased k = (s.m.setSlot (b2n k) FlashSlot.empty).slotRegs := if_pos h
  have hs := Mach.SlotBecomes.setSlot_slotRegs s.m k FlashSlot.empty
  rw [← he] at hs
  exact completes_of_run (·.imgErased k) rfl hs.mode hs

/-- IMG_CHECK_DONE of a slot whose check runs: VALID or FAILED, in the slot and in its register. -/
theorem completes_imgCheckDone (h : (s.m.slotOf (b2n k)).state = 1) (hclosing : (s.m.slotOf (b2n k)).closing = true) :
    Completes (.imgCheckDone k) s (fun m =>
      s.m.SlotBecomes m k { s.m.slotOf (b2n k) with state := if (s.m.slotOf (b2n k)).sound then 2 else 3, closing := false } ∧
      m.sc.regs.fld (if k then F.UPD_IMG_SLOT_STATUS_B_STATE else F.UPD_IMG_SLOT_STATUS_A_STATE) =
        (if (s.m.slotOf (b2n k)).sound then 2 else 3)) := by
  have he : s.m.imgChecked k = (s.m.setSlot (b2n k)
      { s.m.slotOf (b2n k) with state := if (s.m.slotOf (b2n k)).sound then 2 else 3, closing := false }).slotRegs := if_pos ⟨h, hclosing⟩
  have hs := Mach.SlotBecomes.setSlot_slotRegs s.m k
    { s.m.slotOf (b2n k) with state := if (s.m.slotOf (b2n k)).sound then 2 else 3, closing := false }
  have hstate := Mach.slotState_slotRegs (s.m.setSlot (b2n k)
    { s.m.slotOf (b2n k) with state := if (s.m.slotOf (b2n k)).sound then 2 else 3, closing := false }) k
  rw [(Mach.SlotBecomes.setSlot s.m k _).1, ← he] at hstate
  rw [← he] at hs
  refine completes_of_run (·.imgChecked k) rfl hs.mode ⟨hs, hstate.trans ?_⟩
  split <;> rfl

/-! ### IMG_SELECT (R60) -/

theorem Mach.SlotBecomes.storeSetting (m : Mach) (k : Bool) (a : Nat) (v : W32) :
    m.SlotBecomes (m.storeSetting a v) k (m.slotOf (b2n k)) := by
  rw [Mach.storeSetting_eq]
  exact ⟨rfl, rfl, Mach.lane_withSc m _, rfl, rfl⟩

theorem Mach.storeSetting_scRegs (m : Mach) (a : Nat) (v : W32) : (m.storeSetting a v).sc.regs = m.sc.regs := by
  rw [Mach.storeSetting_eq]

theorem Mach.select_errAt (m : Mach) (a : Nat) :
    (m.errAt .upd a).sc.regs.fld F.UPD_IMG_SELECT_SLOT = m.sc.regs.fld F.UPD_IMG_SELECT_SLOT := by
  rw [Mach.errAt_upd]
  unfold Mach.withCtl
  rw [Regs.fld_set_ne _ _ (by decide), Regs.fld_incReg_ne _ (by decide)]

theorem b2n_mod_two (k : Bool) : (BitVec.ofNat 32 (b2n k)).toNat % 2 = b2n k := by cases k <;> rfl

/-- A VALID slot is selected in MAINTENANCE. -/
theorem completes_imgSelect (hlock : s.m.sc.regs.lockOpen .upd = true) (hmode : s.m.sys.mode = 12)
    (hvalid : (s.m.slotOf (b2n k)).state = 2) : Completes (.imgSelect (BitVec.ofNat 32 (b2n k))) s (fun m =>
      s.m.SlotBecomes m k (s.m.slotOf (b2n k)) ∧ m.sc.regs.fld F.UPD_IMG_SELECT_SLOT = b2n k ∧
      m.sc.regs.fld F.UPD_IMG_SLOT_STATUS_SELECTED = b2n k) := by
  obtain ⟨n, hn⟩ : ∃ n, n = s.m.putSc F.UPD_IMG_SELECT_SLOT (b2n k) := ⟨_, rfl⟩
  have he : s.m.imgSelect (BitVec.ofNat 32 (b2n k)).toNat =
      (n.storeSetting F.UPD_IMG_SELECT_SLOT.addr (n.sc.regs.get F.UPD_IMG_SELECT_SLOT.addr)).slotRegs := by
    unfold Mach.imgSelect
    rw [b2n_mod_two, hn]
    exact if_pos (by simp [hlock, hmode, hvalid])
  have hsel : n.sc.regs.fld F.UPD_IMG_SELECT_SLOT = b2n k := by
    rw [hn, Mach.putSc_sc, Regs.fld_put_same _ _ _ (by decide) (by decide)]
    cases k <;> rfl
  have hput : s.m.SlotBecomes n k (s.m.slotOf (b2n k)) := by
    rw [hn]
    exact (Mach.SlotBecomes.refl s.m k).withCtl _
  have hs := (hput.trans (.storeSetting n k F.UPD_IMG_SELECT_SLOT.addr (n.sc.regs.get F.UPD_IMG_SELECT_SLOT.addr))).slotRegs
  rw [hput.1, ← he] at hs
  refine completes_of_run (·.imgSelect (BitVec.ofNat 32 (b2n k)).toNat) rfl hs.mode ⟨hs, ?_, ?_⟩
  · rw [he, Mach.select_slotRegs, Mach.storeSetting_scRegs, hsel]
  · rw [he, Mach.selected_slotRegs, Mach.storeSetting_scRegs, hsel]
    cases k <;> rfl

/-- Outside MAINTENANCE the selection stays. -/
theorem completes_imgSelect_refused (hmode : s.m.sys.mode ≠ 12) (v : W32) : Completes (.imgSelect v) s (fun m =>
    s.m.SlotBecomes m k (s.m.slotOf (b2n k)) ∧ m.sc.regs.fld F.UPD_IMG_SELECT_SLOT = s.m.sc.regs.fld F.UPD_IMG_SELECT_SLOT) := by
  have he : s.m.imgSelect v.toNat = s.m.errAt .upd 0x304 := if_neg (by simp [hmode])
  have hs := Mach.SlotBecomes.errAt s.m k 0x304
  have hsel := Mach.select_errAt s.m 0x304
  rw [← he] at hs hsel
  exact completes_of_run (·.imgSelect v.toNat) rfl hs.mode ⟨hs, hsel⟩

end

/-- Settles O38: each command either refuses, which leaves both slots, or changes the slot it names. -/
theorem flashSlotsKept : Obligations.FlashSlotsKept := by
  intro s k
  refine ⟨fun h => ?_, completes_imgEraseDone, fun h h0 h8 hmax hmod => ?_, fun h => completes_imgClose h, completes_imgCheckDone,
    fun h => ?_, completes_imgSelect, fun h => completes_imgSelect_refused h _⟩
  · obtain ⟨m, he, hm, -⟩ := completes_imgErase h
    exact ⟨m, he, hm⟩
  · obtain ⟨m, he, hm, -⟩ := completes_imgOpen h h0 h8 hmax hmod
    exact ⟨m, he, hm⟩
  · have hs := Mach.SlotBecomes.errAt s.m k 0x308
    exact ⟨completes_of_not_mayWrite (by simp) h hs, completes_of_not_mayWrite (by simp) h hs, completes_of_not_mayWrite (by simp) h hs⟩

/-- Settles O58: the selected slot may not be written, and a refusal touches nothing but UPD's error registers. -/
theorem selectedSlotRefused : Obligations.SelectedSlotRefused := by
  intro s k c hc
  refine ⟨fun hsel => ?_, fun hsel hlock => ⟨?_, fun h0 h8 hmax hmod => ?_⟩⟩
  · have hs := Mach.SlotBecomes.errAt s.m k 0x308
    exact completes_of_not_mayWrite hc (fun h => h.2 hsel) ⟨rfl, rfl, Mach.updErrors_errAt s.m _, Mach.lane_withSc s.m _, hs.sys, rfl⟩
  · obtain ⟨m, he, ⟨hslot, -⟩, hcount⟩ := completes_imgErase (k := k) ⟨hlock, hsel⟩
    exact ⟨m, he, by rw [hslot], congrArg BitVec.toNat hcount⟩
  · obtain ⟨m, he, ⟨hslot, -⟩, hcount⟩ := completes_imgOpen (k := k) ⟨hlock, hsel⟩ h0 h8 hmax hmod
    exact ⟨m, he, by rw [hslot], by rw [hslot], congrArg BitVec.toNat hcount⟩

end Sys2Proof.Machine


/-! # Rescan and integrity scan (R67, R141) -/
namespace Sys2Proof.Machine

/-! ### WORKING_TABLE_RESCAN (R141) -/

/-- The registers of a lane whose rescan has come to a position. -/
def Regs.scannedTo (r : Regs) (next : Nat) : Regs :=
  if next = 0 then (r.put F.VOT_WT_SCAN_POSITION next).addWrap F.VOT_WT_SCAN_PASSES 1 else r.put F.VOT_WT_SCAN_POSITION next

theorem Regs.position_scannedTo (r : Regs) (next : Nat) : (r.scannedTo next).fld F.VOT_WT_SCAN_POSITION = next % 262144 := by
  unfold Regs.scannedTo Regs.addWrap
  split <;> simp (disch := decide) only [Regs.fld_put_beside, Regs.fld_put_same] <;> rfl

/-- The module after the rescan of the next 1,024 blocks of a lane, before what it found is judged. -/
def Mach.scannedOn (m : Mach) (l : LaneId) : Mach :=
  m.updLane l (fun x => { x with regs := x.regs.scannedTo (((m.lane l).regs.fld F.VOT_WT_SCAN_POSITION + 1024) % 262144) })

theorem Mach.position_scannedOn (m : Mach) (l : LaneId) :
    ((m.scannedOn l).lane l).regs.fld F.VOT_WT_SCAN_POSITION = ((m.lane l).regs.fld F.VOT_WT_SCAN_POSITION + 1024) % 262144 := by
  rw [Mach.scannedOn, Mach.lane_updLane_self, Regs.position_scannedTo, Nat.mod_mod]

/-- A block that failed its seal: the lane names itself and shows the fault with the block. -/
def Lane.tableFault (last : W32) (x : Lane) : Lane :=
  { x.selfFault 8 with regs := (x.regs.put F.VOT_WT_SCAN_FAULT 1).set (blkBase .vot + 0x24) last }

theorem Lane.position_tableFault (x : Lane) (last : W32) :
    (x.tableFault last).regs.fld F.VOT_WT_SCAN_POSITION = x.regs.fld F.VOT_WT_SCAN_POSITION := by
  unfold Lane.tableFault
  simp (disch := decide) only [Regs.fld_set_ne, Regs.fld_put_beside]

theorem Lane.fault_tableFault (x : Lane) (last : W32) : (x.tableFault last).regs.fld F.VOT_WT_SCAN_FAULT = 1 := by
  unfold Lane.tableFault
  rw [Regs.fld_set_ne _ _ (by decide), Regs.fld_put_same _ _ _ (by decide) (by decide)]
  rfl

section
variable {m : Mach} {l : LaneId} {bs : List Nat} (h : (m.lane l).loaded = true)
include h

/-- With no failing block among those of the rescan, it only goes on. -/
theorem Mach.rescan_of_sound (hbs : ∀ b ∈ bs, b < (m.lane l).regs.fld F.VOT_WT_SCAN_POSITION ∨
    (m.lane l).regs.fld F.VOT_WT_SCAN_POSITION + 1024 ≤ b) : m.rescan l bs = m.scannedOn l := by
  have hnone : bs.filter (fun b => decide ((m.lane l).regs.fld F.VOT_WT_SCAN_POSITION ≤ b) &&
      decide (b < (m.lane l).regs.fld F.VOT_WT_SCAN_POSITION + 1024)) = [] := by
    rw [List.filter_eq_nil_iff]
    intro b hb
    have := hbs b hb
    simp only [Bool.and_eq_true, decide_eq_true_eq]
    omega
  unfold Mach.rescan
  simp only [h, hnone, Bool.not_true, Bool.false_eq_true, if_false, List.isEmpty_nil, if_true]
  rfl

/-- With one, the lane names itself and raises WT_FAULT. -/
theorem Mach.rescan_of_failing {b : Nat} (hb : b ∈ bs) (hlo : (m.lane l).regs.fld F.VOT_WT_SCAN_POSITION ≤ b)
    (hhi : b < (m.lane l).regs.fld F.VOT_WT_SCAN_POSITION + 1024) :
    ∃ last, m.rescan l bs = ((m.scannedOn l).updLane l (Lane.tableFault last)).raiseLane l .vot I.VOT_WT_FAULT := by
  have hsome : (bs.filter (fun b => decide ((m.lane l).regs.fld F.VOT_WT_SCAN_POSITION ≤ b) &&
      decide (b < (m.lane l).regs.fld F.VOT_WT_SCAN_POSITION + 1024))).isEmpty = false := by
    rw [List.isEmpty_eq_false_iff_exists_mem]
    exact ⟨b, by simp [hb, hlo, hhi]⟩
  unfold Mach.rescan
  simp only [h, hsome, Bool.not_true, Bool.false_eq_true, if_false]
  exact ⟨_, rfl⟩

end

theorem Mach.OnlyLane.scannedOn (m : Mach) (l : LaneId) : m.OnlyLane (m.scannedOn l) l := .updLane rfl rfl

theorem Mach.OnlyLane.tableFault (m : Mach) (l : LaneId) (last : W32) :
    m.OnlyLane ((m.updLane l (Lane.tableFault last)).raiseLane l .vot I.VOT_WT_FAULT) l :=
  .trans (.updLane (Lane.si_selfFault _ 8) (Lane.role_selfFault _ 8)) (.raiseLane _ l _ _)

/-- WORKING_TABLE_RESCAN (R141): the scan goes on by 1,024 blocks, and the lane names itself with cause 8 for a failing block among them,
and only for one. -/
theorem Mach.rescan_spec {m : Mach} {l : LaneId} (bs : List Nat) (h : (m.lane l).loaded = true) :
    let pos := (m.lane l).regs.fld F.VOT_WT_SCAN_POSITION
    m.OnlyLane (m.rescan l bs) l ∧ ((m.rescan l bs).lane l).regs.fld F.VOT_WT_SCAN_POSITION = (pos + 1024) % 262144 ∧
    ((∃ b ∈ bs, pos ≤ b ∧ b < pos + 1024) → 8 ∈ ((m.rescan l bs).lane l).selfFaults ∧
      ((m.rescan l bs).lane l).regs.fld F.VOT_WT_SCAN_FAULT = 1) ∧
    ((∀ b ∈ bs, b < pos ∨ pos + 1024 ≤ b) → ((m.rescan l bs).lane l).selfFaults = (m.lane l).selfFaults ∧ (m.rescan l bs).out = m.out) := by
  intro pos
  by_cases hbs : ∃ b ∈ bs, pos ≤ b ∧ b < pos + 1024
  · obtain ⟨b, hb, hlo, hhi⟩ := id hbs
    obtain ⟨last, he⟩ := Mach.rescan_of_failing h hb hlo hhi
    rw [he]
    refine ⟨(Mach.OnlyLane.scannedOn m l).trans (.tableFault _ l last), ?_, fun _ => ⟨?_, ?_⟩, fun hno => ?_⟩
    · simp (disch := decide) [Regs.fld_setBit_ne, Lane.position_tableFault, Mach.position_scannedOn, pos]
    · simpa [Lane.tableFault] using Lane.mem_selfFault _ 8
    · simp (disch := decide) [Regs.fld_setBit_ne, Lane.fault_tableFault]
    · have := hno b hb
      omega
  · have hno : ∀ b ∈ bs, b < pos ∨ pos + 1024 ≤ b := fun b hb => by
      by_contra hc
      exact hbs ⟨b, hb, by omega⟩
    rw [Mach.rescan_of_sound h hno]
    exact ⟨.scannedOn m l, m.position_scannedOn l, fun hyes => absurd hyes hbs,
      fun _ => ⟨by simp [Mach.scannedOn], by simp [Mach.scannedOn]⟩⟩

/-! ### IMAGE_INTEGRITY_SCAN (R67) -/

/-- An image fault names the lane with cause 8, takes a free value for its record and changes nothing else but the lane's registers and
staging. -/
theorem Mach.imageFault_spec (m : Mach) (l : LaneId) (kind : Nat) :
    8 ∈ ((m.imageFault l kind).lane l).selfFaults ∧ (∀ k, k ≠ l → (m.imageFault l kind).lane k = m.lane k) ∧
    (m.imageFault l kind).sys.mode = m.sys.mode ∧ (m.imageFault l kind).ph = m.ph ∧ (m.imageFault l kind).sc = m.sc := by
  unfold Mach.imageFault Mach.recordLane
  refine ⟨?_, fun k hk => ?_, by simp [Mach.fresh], by simp [Mach.fresh], by simp [Mach.fresh]⟩
  · rw [Mach.lane_updLane_self, (Lane.keeps_addEvent _ _).1, Mach.lane_updLane_self]
    exact Lane.mem_selfFault _ 8
  · rw [Mach.lane_updLane_ne _ _ hk, Mach.lane_updLane_ne _ _ hk]
    simp [Mach.fresh]

section
variable {m : Mach} {l : LaneId} (h : (m.lane l).loaded = true) (hactive : modeActive m.sys.mode = true)
include h hactive

/-- A section that fails its CRC, or on-die copies that differ, are an image fault. -/
theorem Mach.integrityScan_of_fault
    (hf : (∃ x ∈ (m.lane l).img.secs, (m.lane l).img.secCrcOk x = false) ∨ (m.lane l).onDieOk = false) :
    ∃ kind, m.integrityScan l = m.imageFault l kind := by
  unfold Mach.integrityScan
  simp only [h, hactive, Bool.and_self, Bool.not_true, Bool.false_eq_true, if_false]
  split
  next x _ => exact ⟨_, rfl⟩
  next hnone =>
    have hok : (m.lane l).onDieOk = false := by
      obtain ⟨x, hx, hbad⟩ | hok := hf
      · have := List.find?_eq_none.mp hnone x hx
        simp [hbad] at this
      · exact hok
    exact ⟨0, by rw [hok]; rfl⟩

/-- Without a fault the scan changes nothing. -/
theorem Mach.integrityScan_of_sound (hsecs : ∀ x ∈ (m.lane l).img.secs, (m.lane l).img.secCrcOk x = true)
    (hdie : (m.lane l).onDieOk = true) : m.integrityScan l = m := by
  have hnone : (m.lane l).img.secs.find? (fun s => !(m.lane l).img.secCrcOk s) = none :=
    List.find?_eq_none.mpr (fun x hx => by simp [hsecs x hx])
  unfold Mach.integrityScan
  simp only [h, hactive, hnone, hdie, Bool.and_self, Bool.not_true, Bool.false_eq_true, if_false, if_true]

end

/-- Settles O26: the rescan names its lane for a failing block among those it passes over, the scan of the image for a fault it finds. -/
theorem scansNameTheLane : Obligations.ScansNameTheLane := by
  intro s l bs h pos
  obtain ⟨hframe, hpos, hyes, hno⟩ := Mach.rescan_spec bs h
  refine ⟨completes_of_run (·.rescan l bs) rfl hframe.mode ⟨hpos, hframe.lane_ne, hframe.sys, hframe.ph, hframe.si, hyes, hno⟩,
    fun hactive => ⟨fun hf => ?_, fun hsecs hdie => ?_⟩⟩
  · obtain ⟨kind, he⟩ := Mach.integrityScan_of_fault h hactive hf
    have hs := Mach.imageFault_spec s.m l kind
    rw [← he] at hs
    exact completes_of_run (·.integrityScan l) rfl hs.2.2.1 hs
  · have he := Mach.integrityScan_of_sound h hactive hsecs hdie
    exact completes_of_run (·.integrityScan l) rfl (by rw [he]) he

end Sys2Proof.Machine


/-! # Overrun, timer expiry and request expiry (R22, R51, R80, R89) -/
namespace Sys2Proof.Machine

/-! ### What a record leaves of a lane -/

theorem Lane.Keeps.si {x y : Lane} {as : List Nat} (h : x.Keeps y as) : y.si = x.si := by rw [h.1]

theorem Lane.Keeps.rte {x y : Lane} {as : List Nat} (h : x.Keeps y as) : y.rte = x.rte := by rw [h.1]

theorem Mach.raised_raiseAll (m : Mach) (b : Blk) {i : Nat} (hi : i < 32) : (m.raiseAll b i).Raised b i := fun l => by
  rw [Mach.lane_raiseAll]
  exact Regs.bit_setBit_self _ _ _ hi

/-- An interrupt stays raised while its register is kept. -/
theorem Mach.Raised.keeps {m n : Mach} {b : Blk} {i : Nat} {as : List Nat} (h : m.Raised b i)
    (hk : ∀ l, (m.lane l).regs.Keeps (n.lane l).regs as) (ha : blkBase b + 0x10 ∉ as) : n.Raised b i := fun l => by
  rw [hk l _ ha]
  exact h l

theorem Mach.lane_mapFollow (m : Mach) (f : Lane → Lane) (l : LaneId) :
    (m.mapFollow f).lane l = if (m.lane l).follows && (m.lane l).loaded then f (m.lane l) else m.lane l := by cases l <;> rfl

section
variable {m : Mach} {l : LaneId} (f : Lane → Lane)

theorem Mach.lane_mapFollow_of_follows (hf : (m.lane l).follows = true) (hl : (m.lane l).loaded = true) :
    (m.mapFollow f).lane l = f (m.lane l) := by
  rw [Mach.lane_mapFollow, hf, hl]
  rfl

/-- What `f` keeps of a lane, the change of the lanes that follow keeps. -/
theorem Mach.mapFollow_keeps {α : Type} (g : Lane → α) (h : ∀ x, g (f x) = g x) : g ((m.mapFollow f).lane l) = g (m.lane l) := by
  rw [Mach.lane_mapFollow]
  split
  · exact h _
  · rfl

end

/-- A result that joins a staged Press. -/
theorem PressOut.mem_results_addEnd (p : PressOut) (cluster : Nat) (q : Req) (outcome reason : Nat) :
    endResult cluster (q, outcome, reason) ∈ (p.addEnd cluster q outcome reason).results := by
  unfold PressOut.addEnd
  simp

/-- The staged Press after a result has joined it: the same State Image, and the queue without the request. -/
def PressOut.Ends (p p' : PressOut) (cluster : Nat) (q : Req) (outcome reason : Nat) : Prop :=
  endResult cluster (q, outcome, reason) ∈ p'.results ∧ p'.si = p.si ∧ p'.queue = p.queue.filter (fun e => decide (e.seq ≠ q.seq))

theorem PressOut.ends_addEnd (p : PressOut) (cluster : Nat) (q : Req) (outcome reason : Nat) :
    p.Ends (p.addEnd cluster q outcome reason) cluster q outcome reason := ⟨p.mem_results_addEnd _ _ _ _, rfl, rfl⟩

/-! ### OVERRUN (R89) -/

/-- The first request of a queue that has this REQ_SEQ and has been dropped three times. -/
def droppedOut (seq : Nat) (queue : List Req) : Option Req := queue.find? (fun q => decide (q.seq = seq) && decide (3 ≤ q.drops))

theorem seq_of_droppedOut {seq : Nat} {queue : List Req} {q : Req} (h : droppedOut seq queue = some q) : q.seq = seq := by
  have := List.find?_some h
  simp only [Bool.and_eq_true, decide_eq_true_eq] at this
  exact this.1

theorem Lane.si_overrun (seq cluster : Nat) (x : Lane) : (x.overrun seq cluster).si = x.si := by
  unfold Lane.overrun
  split <;> rfl

/-- The staged Press of a lane rejects the request with OVERRUN. -/
theorem Lane.press_overrun {seq : Nat} (cluster : Nat) {x : Lane} {q : Req} {p : PressOut} (hq : droppedOut seq x.rte.queue = some q)
    (hp : x.rte.press = some p) : (x.overrun seq cluster).rte.press = some (p.addEnd cluster q 6 14) := by
  unfold droppedOut at hq
  unfold Lane.overrun
  rw [hq, hp]
  rfl

/-- OVERRUN (R89) of a request that the lead lane has dropped three times. -/
theorem Mach.overrun_of_dropped {m : Mach} {seq : Nat} {q : Req} (h : droppedOut seq m.leadLane.rte.queue = some q) :
    m.overrun seq = ((m.mapFollow (Lane.overrun seq m.sys.cluster)).raiseAll .rte I.RTE_OVERRUN).record 0x2003 q.mbx seq (rqTag q.word) 0 := by
  unfold droppedOut at h
  unfold Mach.overrun
  rw [h]

theorem Mach.overrun_spec {m : Mach} {seq : Nat} {q : Req} (h : droppedOut seq m.leadLane.rte.queue = some q) :
    (m.overrun seq).Raised .rte I.RTE_OVERRUN ∧ (m.overrun seq).Recorded 0x2003 q.mbx seq (rqTag q.word) ∧
    (m.overrun seq).sys = m.sys ∧ (m.overrun seq).ph = m.ph ∧ (m.overrun seq).sc = m.sc ∧
    ∀ l, ((m.overrun seq).lane l).si = (m.lane l).si ∧
      ((m.overrun seq).lane l).rte = ((m.mapFollow (Lane.overrun seq m.sys.cluster)).lane l).rte := by
  rw [Mach.overrun_of_dropped h]
  have hkeep := Mach.keeps_record ((m.mapFollow (Lane.overrun seq m.sys.cluster)).raiseAll .rte I.RTE_OVERRUN) 0x2003 q.mbx seq
    (rqTag q.word) 0
  refine ⟨(Mach.raised_raiseAll _ .rte (by decide)).keeps (fun l => (hkeep l).2) (by decide), Mach.recorded_record _ _ _ _ _ _,
    by simp [Mach.mapFollow], by simp [Mach.mapFollow], by simp [Mach.mapFollow], fun l => ⟨?_, ?_⟩⟩
  · rw [(hkeep l).si, Mach.lane_raiseAll]
    exact Mach.mapFollow_keeps _ Lane.si (Lane.si_overrun seq _)
  · rw [(hkeep l).rte, Mach.lane_raiseAll]

/-! ### TIMER_EXPIRY (R51) -/

/-- The staged Press with a timer expired: queue, results and the records of the other objects are as they were. -/
theorem PressOut.expire_spec (i : Img) (o slot : Nat) (p : PressOut) :
    (p.expire i o slot).queue = p.queue ∧ (p.expire i o slot).results = p.results ∧
    SI.at (p.expire i o slot).si o = (SI.at p.si o).expire slot ∧ ∀ k, k ≠ o → SI.at (p.expire i o slot).si k = SI.at p.si k :=
  ⟨rfl, rfl, Store.get_set_self _ _ _ _, fun _ hk => Store.get_set_ne _ _ _ hk⟩

theorem Lane.timerExpiry_of_none {o slot : Nat} {x : Lane} (h : x.rte.press = none) : x.timerExpiry o slot = x := by
  unfold Lane.timerExpiry
  rw [h, Option.map_none, ← h]

theorem Lane.press_timerExpiry {o slot : Nat} {x : Lane} {p : PressOut} (h : x.rte.press = some p) :
    (x.timerExpiry o slot).rte.press = some (p.expire x.img o slot) := by
  unfold Lane.timerExpiry
  rw [h]
  rfl

/-- TIMER_EXPIRY completes with the staged Press of every lane that follows changed. -/
theorem completes_timerExpiry {s : State} {o slot : Nat} {P : Mach → Prop} (h : P (s.m.mapFollow (Lane.timerExpiry o slot))) :
    Completes (.timerExpiry o slot) s P :=
  completes_of_run (fun m => m.mapFollow (Lane.timerExpiry o slot)) rfl (by simp [Mach.mapFollow]) h

/-- The record of the object of a timer that expires stands in the staged Press of a lane that follows. -/
theorem Mach.press_timerExpiry {m : Mach} {l : LaneId} {p : PressOut} (o slot : Nat) (hf : (m.lane l).follows = true)
    (hl : (m.lane l).loaded = true) (hp : (m.lane l).rte.press = some p) :
    ((m.mapFollow (Lane.timerExpiry o slot)).lane l).rte.press = some (p.expire (m.lane l).img o slot) := by
  rw [Mach.lane_mapFollow_of_follows _ hf hl, Lane.press_timerExpiry hp]

theorem Timer.expire_state {t : Timer} (h1 : t.state = 1) (h0 : t.remaining = 0) : t.expire.state = 2 := by
  rw [Timer.expire, if_pos ⟨h1, h0⟩]

/-! ### REQUEST_EXPIRY (R80) -/

/-- The first stored SET_ROUTE of a lane's queue that has this REQ_SEQ and whose lifetime has passed. -/
def Lane.outlived (x : Lane) (seq : Nat) : Option Req :=
  x.rte.queue.find? (fun r => decide (r.seq = seq) && decide (rqType r.word = 1) && rqStore r.word && !r.follower &&
    decide (x.regs.fld F.RTE_REQ_LIFETIME_CLUSTERS ≤ r.clusters))

section
variable {x : Lane} {seq : Nat} {q : Req} (cluster : Nat) (hq : x.outlived seq = some q)
include hq

/-- With no Press staged the request leaves the queue, and its outcome is reported. -/
theorem Lane.requestExpiry_of_unstaged (hp : x.rte.press = none) :
    (x.requestExpiry seq cluster).rte.queue = x.rte.queue.filter (fun e => decide (e.seq ≠ seq)) ∧
    (x.requestExpiry seq cluster).rte.report = x.rte.report ++ [endResult cluster (q, 7, q.reason)] := by
  unfold Lane.outlived at hq
  unfold Lane.requestExpiry
  rw [hq, hp]
  exact ⟨rfl, rfl⟩

/-- With a Press staged, its outcome joins that. -/
theorem Lane.requestExpiry_of_staged {p : PressOut} {e : Req} (hp : x.rte.press = some p)
    (he : p.queue.find? (fun r => decide (r.seq = seq) && !r.follower) = some e) :
    x.requestExpiry seq cluster = { x with rte := { x.rte with press := some (p.addEnd cluster e 7 e.reason) } } := by
  unfold Lane.outlived at hq
  unfold Lane.requestExpiry
  rw [hq, hp]
  dsimp only
  rw [he]

end

theorem Lane.si_queueRegs (x : Lane) : x.queueRegs.si = x.si := rfl

theorem Lane.si_requestExpiry (seq cluster : Nat) (x : Lane) : (x.requestExpiry seq cluster).si = x.si := by
  unfold Lane.requestExpiry
  split
  · rfl
  · split
    · split <;> rfl
    · rw [Lane.si_queueRegs]

/-- REQUEST_EXPIRY completes with every lane that follows changed. -/
theorem completes_requestExpiry {s : State} {n : W32} {P : Mach → Prop}
    (h : P (s.m.mapFollow (Lane.requestExpiry n.toNat s.m.sys.cluster))) : Completes (.requestExpiry n) s P :=
  completes_of_run (fun m => m.mapFollow (Lane.requestExpiry n.toNat m.sys.cluster)) rfl (by simp [Mach.mapFollow]) h

/-- Settles O19: each command changes of a lane that follows the staged Press, or with none staged the queue and the report. -/
theorem expiriesAtPress : Obligations.ExpiriesAtPress := by
  intro s
  refine ⟨fun n q hq => ?_, fun o slot => ?_, fun o l p hf hl hp => ⟨fun h1 h0 => ?_, fun h1 h0 => ?_⟩, fun n l q hf hl hp hq => ?_,
    fun n l q e p hf hl hp hq he => ?_⟩
  · obtain ⟨hraised, hrec, hsys, hph, hsc, hlane⟩ := Mach.overrun_spec hq
    refine completes_of_run (·.overrun n.toNat) rfl (by rw [hsys]) ⟨hraised, hrec, hsys, hph, hsc, fun l => ⟨(hlane l).1, ?_⟩⟩
    intro r p hf hl hp hr
    have hseq := seq_of_droppedOut hr
    obtain ⟨hres, hsi, hqueue⟩ := p.ends_addEnd s.m.sys.cluster r 6 14
    refine ⟨_, ?_, hres, hsi, hseq ▸ hqueue⟩
    rw [(hlane l).2, Mach.lane_mapFollow_of_follows _ hf hl, Lane.press_overrun _ hr hp]
  · refine completes_timerExpiry ⟨rfl, rfl, rfl, rfl, fun l => ⟨?_, ?_, fun p hf hl hp => ?_⟩⟩
    · rw [Mach.lane_mapFollow]
      split <;> rfl
    · rintro (hno | hnone)
      · rw [Mach.lane_mapFollow, hno]
        rfl
      · rw [Mach.lane_mapFollow, Lane.timerExpiry_of_none hnone, ite_self]
    · obtain ⟨hqueue, hres, hat, hothers⟩ := p.expire_spec (s.m.lane l).img o slot
      exact ⟨_, Mach.press_timerExpiry o slot hf hl hp, hqueue, hres, hat, hothers⟩
  · obtain ⟨-, -, hat, -⟩ := p.expire_spec (s.m.lane l).img o 0
    refine completes_timerExpiry ⟨_, Mach.press_timerExpiry o 0 hf hl hp, ?_⟩
    rw [hat]
    exact Timer.expire_state h1 h0
  · obtain ⟨-, -, hat, -⟩ := p.expire_spec (s.m.lane l).img o 1
    refine completes_timerExpiry ⟨_, Mach.press_timerExpiry o 1 hf hl hp, ?_⟩
    rw [hat]
    exact Timer.expire_state h1 h0
  · obtain ⟨hqueue, hreport⟩ := Lane.requestExpiry_of_unstaged s.m.sys.cluster hq hp
    refine completes_requestExpiry ?_
    rw [Mach.lane_mapFollow_of_follows _ hf hl]
    exact ⟨hqueue, hreport, Lane.si_requestExpiry _ _ _, rfl, rfl⟩
  · have hx := Lane.requestExpiry_of_staged s.m.sys.cluster hq hp he
    have hseq : e.seq = n.toNat := by
      have := List.find?_some he
      simp only [Bool.and_eq_true, decide_eq_true_eq] at this
      exact this.1
    obtain ⟨hres, hsi, hqueue⟩ := p.ends_addEnd s.m.sys.cluster e 7 e.reason
    refine completes_requestExpiry ?_
    rw [Mach.lane_mapFollow_of_follows _ hf hl, hx]
    exact ⟨⟨_, rfl, hres, hsi, hseq ▸ hqueue⟩, rfl, rfl, rfl, rfl⟩

end Sys2Proof.Machine

/-! # The end of TAKEOVER with lanes that differ in DEGRADED (R287) -/
namespace Sys2Proof.Machine

/-- A module at the Press of basic cycle 13 in TAKEOVER, with no node of the Seedbank to wait for and lane C out of service; the lead lane
A counts its degraded limit already, lane B does not. -/
def State.takeoverEnding : State :=
  let m := { Mach.reset with sys := { Mach.reset.sys with mode := 9, bc := 13, originAgreed := true } }
  let m := m.updLane .a (fun x => { x with regs := x.regs.put F.RED_STATUS_DEGRADED 1 })
  ⟨m.updLane .c (fun x => { x with role := .excluded }), []⟩

/-- What lane B's RED.STATUS.DEGRADED reads after the Press of `s`. -/
def State.degradedAfterPress (s : State) : Option Nat :=
  match exec (.press 0 0 0) s with
  | .next t => some ((t.m.lane .b).regs.fld F.RED_STATUS_DEGRADED)
  | _ => none

theorem takeoverEnding_runs : State.takeoverEnding.m.cycling = true ∧ State.takeoverEnding.m.sys.bc = 13 ∧
    State.takeoverEnding.m.sys.mode = 9 ∧ State.takeoverEnding.m.serving.length < 3 ∧ State.takeoverEnding.m.fed.takeComm = [] := by
  decide +kernel

/-- The lead lane's bit stands for the module, so `Mach.toService` does not start the degraded limit of lane B. -/
theorem degradedAfterPress_takeoverEnding : State.takeoverEnding.degradedAfterPress = some 0 := by decide +kernel

theorem State.degradedAfterPress_of_completes {s : State} {P : Mach → Prop} (h : Completes (.press 0 0 0) s P)
    (hr : ∀ m, P m → m.Reads F.RED_STATUS_DEGRADED 1) : s.degradedAfterPress = some 1 := by
  obtain ⟨m, he, hp⟩ := h
  unfold State.degradedAfterPress
  rw [he]
  exact congrArg some (hr m hp .b)

/-- Refutes O20: TAKEOVER ends in SERVICE_2 with lane A's RED.STATUS.DEGRADED at 1 and lane B's at 0. Only the lead lane's bit decides
whether the degraded limit starts, so lane B's bit stays 0, where the statement has it 1 in every lane. -/
theorem not_pressStages : ¬ Obligations.PressStages := by
  unfold Obligations.PressStages
  intro h
  obtain ⟨-, -, -, hpress⟩ := h
  obtain ⟨hrun, hbc, hmode, hfew, hcomm⟩ := takeoverEnding_runs
  have hdone := (hpress State.takeoverEnding 0 0 0).1 hrun hbc
  have hone : State.takeoverEnding.degradedAfterPress = some 1 := State.degradedAfterPress_of_completes hdone fun m hm => by
      obtain ⟨-, -, htakeover, -⟩ := hm
      obtain ⟨-, -, htwo⟩ := htakeover hmode
      obtain ⟨-, hreads, -⟩ := htwo (.inl fun a ha => by rw [hcomm] at ha; exact absurd ha List.not_mem_nil) hfew
      exact hreads
  rw [degradedAfterPress_takeoverEnding] at hone
  exact absurd hone (by decide)

end Sys2Proof.Machine

/-! # Transitions of mode (R292, R294, R420) -/
namespace Sys2Proof.Machine

/-! ### Changes of lane registers alone -/

theorem Lane.RegsOnly.refl (x : Lane) : x.RegsOnly x := rfl

theorem Lane.regsOnly_regs (x : Lane) (r : Regs) : x.RegsOnly { x with regs := r } := rfl

theorem Lane.RegsOnly.trans {x y z : Lane} (h : x.RegsOnly y) (g : y.RegsOnly z) : x.RegsOnly z := by
  unfold Lane.RegsOnly at *
  rw [g, h]

theorem Lane.Keeps.regsOnly {x y : Lane} {as : List Nat} (h : x.Keeps y as) : x.RegsOnly y := by
  unfold Lane.RegsOnly
  rw [h.1]

/-- From `m` to `n` the lanes differ in the listed registers and in their event staging, and `sys`, the Service Controller and the next
REQ_SEQ are as before. -/
def Mach.Shifts (as : List Nat) (m n : Mach) : Prop :=
  (∀ l, (m.lane l).RegsOnly (n.lane l) ∧ (m.lane l).regs.Keeps (n.lane l).regs as) ∧ n.sys = m.sys ∧ n.sc = m.sc ∧ n.nextSeq = m.nextSeq

namespace Mach.Shifts

variable {m n o : Mach} {as : List Nat}

theorem trans (h : m.Shifts as n) (g : n.Shifts as o) : m.Shifts as o := by
  obtain ⟨hl, hs, hc, hn⟩ := h
  obtain ⟨gl, gs, gc, gn⟩ := g
  exact ⟨fun l => ⟨(hl l).1.trans (gl l).1, (hl l).2.trans (gl l).2⟩, gs.trans hs, gc.trans hc, gn.trans hn⟩

theorem mono {bs : List Nat} (h : m.Shifts as n) (hs : as ⊆ bs) : m.Shifts bs n :=
  ⟨fun l => ⟨(h.1 l).1, (h.1 l).2.mono hs⟩, h.2⟩

theorem lane (h : m.Shifts as n) (l : LaneId) : (m.lane l).RegsOnly (n.lane l) := (h.1 l).1

theorem keeps (h : m.Shifts as n) (l : LaneId) : (m.lane l).regs.Keeps (n.lane l).regs as := (h.1 l).2

theorem sys (h : m.Shifts as n) : n.sys = m.sys := h.2.1

theorem sc (h : m.Shifts as n) : n.sc = m.sc := h.2.2.1

theorem nextSeq (h : m.Shifts as n) : n.nextSeq = m.nextSeq := h.2.2.2

/-- Nothing that the relation names has changed. -/
theorem of_eq (hl : ∀ l, n.lane l = m.lane l) (hs : n.sys = m.sys) (hc : n.sc = m.sc) (hn : n.nextSeq = m.nextSeq) : m.Shifts as n :=
  ⟨fun l => by rw [hl]; exact ⟨.refl _, .refl _ _⟩, hs, hc, hn⟩

theorem refl (m : Mach) : m.Shifts as m := of_eq (fun _ => rfl) rfl rfl rfl

theorem mapLanes {f : Lane → Lane} (m : Mach) (h : ∀ x : Lane, x.RegsOnly (f x) ∧ x.regs.Keeps (f x).regs as) : m.Shifts as (m.mapLanes f) :=
  ⟨fun l => by rw [Mach.lane_mapLanes]; exact h _, rfl, rfl, rfl⟩

theorem putAll (m : Mach) {f : Field} (v : Nat) (hf : f.addr ∈ as) : m.Shifts as (m.putAll f v) :=
  mapLanes m (fun _ => ⟨rfl, Regs.keeps_put (.refl _ _) _ hf⟩)

theorem raiseAll (m : Mach) (b : Blk) (i : Nat) (hb : blkBase b + 0x10 ∈ as) : m.Shifts as (m.raiseAll b i) := by
  refine ⟨fun l => ?_, by simp, by simp, by simp⟩
  rw [Mach.lane_raiseAll]
  exact ⟨rfl, Regs.keeps_setBit (.refl _ _) hb⟩

theorem record (m : Mach) (code p0 p1 p2 p3 : Nat) (he : eventRegs ⊆ as) : m.Shifts as (m.record code p0 p1 p2 p3) :=
  ⟨fun l => ⟨(Mach.keeps_record m code p0 p1 p2 p3 l).regsOnly, (Mach.keeps_record m code p0 p1 p2 p3 l).2.mono he⟩, by simp, by simp, by simp⟩

/-- A step taken under a condition. -/
theorem stepIf {c : Prop} [Decidable c] (g : n.Shifts as o) (h : m.Shifts as n) : m.Shifts as (if c then o else n) := by
  split
  · exact h.trans g
  · exact h

/-- A step taken but for a condition. -/
theorem stepUnless {c : Prop} [Decidable c] (g : n.Shifts as o) (h : m.Shifts as n) : m.Shifts as (if c then n else o) := by
  split
  · exact h
  · exact h.trans g

theorem foldl {α : Type} {f : Mach → α → Mach} (h : ∀ (m : Mach) a, m.Shifts as (f m a)) (l : List α) (m : Mach) : m.Shifts as (l.foldl f m) :=
  List.foldlRecOn l f (refl m) (fun n hn a _ => hn.trans (h n a))

/-- The clock domains hold none of it. -/
theorem withClk (m : Mach) (c : Clks) : m.Shifts as { m with clk := c } := of_eq (Mach.lane_congr rfl rfl rfl) rfl rfl rfl

theorem withFed (m : Mach) (f : Fed) : m.Shifts as { m with fed := f } := of_eq (Mach.lane_congr rfl rfl rfl) rfl rfl rfl

theorem closeSpan (m : Mach) (us : Nat) : m.Shifts as (m.closeSpan us) := by
  unfold Mach.closeSpan
  split
  · exact refl m
  · refine trans (withClk m _) (foldl (fun n l => ?_) _ _)
    split
    · exact refl n
    · exact withClk n _

theorem closeLocks (m : Mach) (h : laneBlks.map (fun b => blkBase b + 0x28) ⊆ as) : m.Shifts as m.closeLocks := by
  have hk : ∀ l, (m.lane l).Keeps (m.closeLocks.lane l) as := fun l => by
    have hr := (Regs.keeps_closeLocks (m.lane l).regs laneBlks).mono h
    rw [Mach.lane_closeLocks]
    exact Lane.keeps_regs hr
  exact ⟨fun l => ⟨(hk l).regsOnly, (hk l).2⟩, m.closeLocks_sys, m.closeLocks_sc, m.closeLocks_nextSeq⟩

end Mach.Shifts

/-! ### The stages of a transition -/

/-- What waits in the mode left is overtaken (R294). -/
def Sys.overtaken (s : Sys) : Sys := { s with pendingReq := none, returning := false, holdupWait := !s.returning && s.holdupWait }

/-- What waits in the mode left is overtaken, and its Rinse-to-Press span ends. -/
def Mach.modeLeft (m : Mach) (k : Nat) : Mach :=
  if modeActive k then m.supersede.overtaken else m.supersede.overtaken.closeSpan (m.supersede.overtaken.sys.bc * 250)

/-- The mode is entered, and SYS.STATUS and SYS.MODE_HIST show it. -/
def Mach.modeShown (m : Mach) (old k : Nat) : Mach :=
  (m.mapLanes (fun x => { x with regs :=
    (((((x.regs.put F.SYS_STATUS_PREV_MODE old).put F.SYS_STATUS_MODE k).put F.SYS_MODE_HIST_FROM old).put
      F.SYS_MODE_HIST_TO k).inc F.SYS_MODE_HIST_COUNT) })).updSys
    (fun s => { s with mode := k, session := if old = 12 then false else s.session })

/-- What a transition shows and closes beside that, in the order of `Mach.setMode`, up to its interrupt. -/
def Mach.modeSettled (m : Mach) (old k : Nat) : Mach :=
  let m := if old = 12 then m.putAll F.BST_STATUS_SESSION 0 else m
  let m := if modeActive k || k == 8 then m else m.putAll F.SDB_ROLE_ROLE 0
  let m := if k == 8 then m else (m.putAll F.SDB_STATUS_CURRENT 0).putAll F.SDB_STATUS_STALE 0
  let m := if modeActive k then m else m.putAll F.SDB_STATUS_GATING 0
  let m := if old = 8 then ({ m with fed := { m.fed with pairOffset := 0 } }).putAll F.TSU_PAIR_OFFSET_OFFSET_NS 0 else m
  let m := if modeLocks k then m.closeLocks else m
  let m := if old = 10 then m.dropJoiner else m
  let m := if modePasses k then m else m.putAll F.ZVL_STATUS_ACTIVE 0
  let m := (m.putAll F.TSU_STATUS_STEP_ALLOWED (b2n (modeSteps k))).putAll F.CRC_STATUS_CHANNELS (b2n (modeSteps k))
  let m := (m.putAll F.RED_PAIR_STATUS_ACTIVE (b2n (modeActive k))).mapLanes
    (fun x => { x with regs := x.regs.put F.RTE_STATUS_RUNNING (b2n (modeActive k && x.follows)) })
  m.raiseAll .sys I.SYS_MODE_CHANGE

/-- The event record of a transition, and the flush of R395. -/
def Mach.modeRecorded (m : Mach) (old k p2 : Nat) : Mach :=
  let m := m.record 0x0001 old k p2 (m.sys.cluster % 2 ^ 32)
  if k = 14 ∨ k = 12 ∨ k = 13 ∨ k = 1 then m.startFlush else m

theorem Mach.setMode_eq (m : Mach) (k p2 : Nat) :
    m.setMode k p2 = (((m.modeLeft k).modeShown m.sys.mode k).modeSettled m.sys.mode k).modeRecorded m.sys.mode k p2 := rfl

/-- The registers that a transition changes beside MODE_RESULT and those that show it. -/
def settleRegs : List Nat :=
  eventRegs ++ laneBlks.map (fun b => blkBase b + 0x28) ++
  [0x40000010, 0x4000900C, 0x4000B040, 0x4000B00C, 0x400020A4, 0x4000400C, 0x4000200C, 0x4000600C, 0x4000A108, 0x4000300C]

/-- All registers of a lane that a transition changes. -/
def transitionRegs : List Nat := 0x40000044 :: entryRegs ++ settleRegs

theorem Mach.shifts_supersede (m : Mach) : (m.updSys (fun s => { s with pendingReq := none })).Shifts [0x40000044] m.supersede := by
  unfold Mach.supersede
  split
  next hnone => exact .of_eq (by simp) (by rw [Mach.updSys_sys, ← hnone]) rfl rfl
  next => exact .putAll (m.updSys _) 6 (by decide)

theorem Mach.shifts_overtaken (m : Mach) :
    (m.updSys (fun s => { s with returning := false, holdupWait := !s.returning && s.holdupWait })).Shifts [0x40000044] m.overtaken := by
  unfold Mach.overtaken
  split
  next h =>
    have he : m.updSys (fun s => { s with returning := false, holdupWait := !s.returning && s.holdupWait }) =
        m.updSys (fun s => { s with returning := false, holdupWait := false }) := by simp [Mach.updSys, h]
    rw [he]
    exact .putAll (m.updSys _) 6 (by decide)
  next h =>
    rw [Bool.not_eq_true] at h
    have he : ({ m.sys with returning := false, holdupWait := !m.sys.returning && m.sys.holdupWait } : Sys) = m.sys := by
      rw [h, Bool.not_false, Bool.true_and, ← h]
    exact .of_eq (by simp) he.symm rfl rfl

theorem Mach.shifts_modeLeft (m : Mach) (k : Nat) : (m.updSys Sys.overtaken).Shifts [0x40000044] (m.modeLeft k) := by
  have hsup := m.shifts_supersede
  have hover := m.supersede.shifts_overtaken
  have hsys : (m.updSys Sys.overtaken).Shifts [0x40000044] m.supersede.overtaken := by
    refine ⟨fun l => ⟨?_, ?_⟩, ?_, ?_, ?_⟩
    · exact (hsup.lane l).trans (hover.lane l)
    · exact (hsup.keeps l).trans (hover.keeps l)
    · rw [hover.sys, Mach.updSys_sys, hsup.sys]
      rfl
    · rw [hover.sc, Mach.updSys_sc, hsup.sc]
      rfl
    · rw [hover.nextSeq, Mach.updSys_nextSeq, hsup.nextSeq]
      rfl
  unfold Mach.modeLeft
  split
  · exact hsys
  · exact hsys.trans (.closeSpan _ _)

theorem Mach.shifts_modeSettled (m : Mach) {old : Nat} (k : Nat) (h : old ≠ 10) : m.Shifts settleRegs (m.modeSettled old k) := by
  unfold Mach.modeSettled
  dsimp only
  refine .trans ?_ (.raiseAll _ _ _ (by decide))
  refine .trans ?_ (.mapLanes _ (fun _ => ⟨rfl, Regs.keeps_put (.refl _ _) _ (by decide)⟩))
  refine .trans ?_ (.putAll _ _ (by decide))
  refine .trans ?_ (.trans (.putAll _ _ (by decide)) (.putAll _ _ (by decide)))
  refine .stepUnless (.putAll _ _ (by decide)) ?_
  rw [if_neg h]
  refine .stepIf (.closeLocks _ (by decide)) ?_
  refine .stepIf (.trans (.withFed _ _) (.putAll _ _ (by decide))) ?_
  refine .stepUnless (.putAll _ _ (by decide)) ?_
  refine .stepUnless (.trans (.putAll _ _ (by decide)) (.putAll _ _ (by decide))) ?_
  refine .stepUnless (.putAll _ _ (by decide)) ?_
  exact .stepIf (.putAll _ _ (by decide)) (.refl m)

/-- The registers that a transition shows itself in. -/
def Regs.showMode (r : Regs) (old k : Nat) : Regs :=
  ((((r.put F.SYS_STATUS_PREV_MODE old).put F.SYS_STATUS_MODE k).put F.SYS_MODE_HIST_FROM old).put F.SYS_MODE_HIST_TO k).inc F.SYS_MODE_HIST_COUNT

theorem Regs.keeps_showMode (r : Regs) (old k : Nat) : r.Keeps (r.showMode old k) entryRegs := by
  refine Regs.keeps_inc ?_ (by decide)
  exact Regs.keeps_put (Regs.keeps_put (Regs.keeps_put (Regs.keeps_put (.refl _ _) _ (by decide)) _ (by decide)) _ (by decide)) _ (by decide)

theorem Mach.lane_modeShown (m : Mach) (old k : Nat) (l : LaneId) :
    (m.modeShown old k).lane l = { m.lane l with regs := (m.lane l).regs.showMode old k } := by
  rw [Mach.modeShown, Mach.lane_updSys, Mach.lane_mapLanes, Regs.showMode]

theorem Mach.regs_modeShown (m : Mach) (old k : Nat) (l : LaneId) :
    ((m.modeShown old k).lane l).regs = (m.lane l).regs.showMode old k := by rw [Mach.lane_modeShown]

theorem Mach.sys_modeShown (m : Mach) (old k : Nat) :
    (m.modeShown old k).sys = { m.sys with mode := k, session := if old = 12 then false else m.sys.session } := by
  rw [Mach.modeShown, Mach.updSys_sys, Mach.mapLanes_sys]

theorem Mach.sc_modeShown (m : Mach) (old k : Nat) : (m.modeShown old k).sc = m.sc := by
  rw [Mach.modeShown, Mach.updSys_sc, Mach.mapLanes_sc]

theorem Mach.nextSeq_modeShown (m : Mach) (old k : Nat) : (m.modeShown old k).nextSeq = m.nextSeq := by
  rw [Mach.modeShown, Mach.updSys_nextSeq, Mach.mapLanes_nextSeq]

theorem Mach.lane_modeRecorded (m : Mach) (old k p2 : Nat) (l : LaneId) :
    (m.modeRecorded old k p2).lane l = (m.record 0x0001 old k p2 (m.sys.cluster % 2 ^ 32)).lane l := by
  unfold Mach.modeRecorded
  dsimp only
  split
  · exact Mach.lane_startFlush _ l
  · rfl

theorem Mach.sys_modeRecorded (m : Mach) (old k p2 : Nat) : (m.modeRecorded old k p2).sys = m.sys := by
  unfold Mach.modeRecorded
  dsimp only
  split
  · rw [Mach.startFlush_sys, Mach.record_sys]
  · rw [Mach.record_sys]

theorem Mach.nextSeq_modeRecorded (m : Mach) (old k p2 : Nat) : (m.modeRecorded old k p2).nextSeq = m.nextSeq := by
  unfold Mach.modeRecorded
  dsimp only
  split
  · rw [Mach.startFlush_nextSeq, Mach.record_nextSeq]
  · rw [Mach.record_nextSeq]

/-- Of the Service Controller's registers a flush shows in EVR.STATUS alone. -/
theorem Mach.ctl_modeRecorded (m : Mach) (old k p2 : Nat) : m.sc.regs.Keeps (m.modeRecorded old k p2).sc.regs [0x5000100C] := by
  unfold Mach.modeRecorded
  dsimp only
  split
  · rw [Mach.startFlush_sc, Mach.record_sc]
    exact Regs.keeps_put (.refl _ _) _ (by decide)
  · rw [Mach.record_sc]
    exact .refl _ _

/-! ### What a transition does (R292) -/

/-- The last stages leave what the transition has shown. -/
theorem Mach.shifts_modeEnd (m : Mach) {old : Nat} (k p2 : Nat) (h : old ≠ 10) (l : LaneId) :
    (m.lane l).RegsOnly (((m.modeSettled old k).modeRecorded old k p2).lane l) ∧
    (m.lane l).regs.Keeps (((m.modeSettled old k).modeRecorded old k p2).lane l).regs settleRegs := by
  have hs := m.shifts_modeSettled k h
  generalize m.modeSettled old k = n at hs
  have hr := (Mach.Shifts.record n 0x0001 old k p2 (n.sys.cluster % 2 ^ 32) (as := settleRegs) (by decide))
  rw [Mach.lane_modeRecorded]
  exact ⟨(hs.lane l).trans (hr.lane l), (hs.keeps l).trans (hr.keeps l)⟩

theorem Mach.raised_modeEnd (m : Mach) (old k p2 : Nat) : ((m.modeSettled old k).modeRecorded old k p2).Raised .sys I.SYS_MODE_CHANGE := by
  have hr : (m.modeSettled old k).Raised .sys I.SYS_MODE_CHANGE := Mach.raised_raiseAll _ .sys (by decide)
  generalize m.modeSettled old k = n at hr
  refine hr.keeps (as := eventRegs) (fun l => ?_) (by decide)
  rw [Mach.lane_modeRecorded]
  exact (Mach.keeps_record _ _ _ _ _ _ l).2

theorem Mach.recorded_modeRecorded (m : Mach) (old k p2 : Nat) : (m.modeRecorded old k p2).Recorded 0x0001 old k p2 := by
  unfold Mach.Recorded
  simp only [Mach.lane_modeRecorded]
  exact Mach.recorded_record _ _ _ _ _ _

/-- A transition shows itself from a machine in which what waited has been overtaken. -/
theorem Mach.setMode_shown (m : Mach) (k p2 : Nat) : ∃ n : Mach, (m.updSys Sys.overtaken).Shifts [0x40000044] n ∧
    m.setMode k p2 = ((n.modeShown m.sys.mode k).modeSettled m.sys.mode k).modeRecorded m.sys.mode k p2 :=
  ⟨m.modeLeft k, m.shifts_modeLeft k, m.setMode_eq k p2⟩

section
variable {m : Mach} (k p2 : Nat) (h : m.sys.mode ≠ 10)
include h

theorem Mach.sys_setMode : (m.setMode k p2).sys =
    { m.sys.overtaken with mode := k, session := if m.sys.mode = 12 then false else m.sys.session } := by
  obtain ⟨n, hn, he⟩ := m.setMode_shown k p2
  rw [he, Mach.sys_modeRecorded, (Mach.shifts_modeSettled _ k h).sys, Mach.sys_modeShown, hn.sys, Mach.updSys_sys]
  rfl

theorem Mach.nextSeq_setMode : (m.setMode k p2).nextSeq = m.nextSeq := by
  obtain ⟨n, hn, he⟩ := m.setMode_shown k p2
  rw [he, Mach.nextSeq_modeRecorded, (Mach.shifts_modeSettled _ k h).nextSeq, Mach.nextSeq_modeShown, hn.nextSeq, Mach.updSys_nextSeq]

theorem Mach.ctl_setMode : m.sc.regs.Keeps (m.setMode k p2).sc.regs [0x5000100C] := by
  obtain ⟨n, hn, he⟩ := m.setMode_shown k p2
  have hc : ((n.modeShown m.sys.mode k).modeSettled m.sys.mode k).sc = m.sc := by
    rw [(Mach.shifts_modeSettled _ k h).sc, Mach.sc_modeShown, hn.sc, Mach.updSys_sc]
  rw [he, ← hc]
  exact Mach.ctl_modeRecorded _ _ _ _

/-- A transition leaves of every lane all but registers and event staging. -/
theorem Mach.lane_setMode (l : LaneId) : (m.lane l).RegsOnly ((m.setMode k p2).lane l) := by
  obtain ⟨n, hn, he⟩ := m.setMode_shown k p2
  have hleft := hn.lane l
  have hend := (Mach.shifts_modeEnd (n.modeShown m.sys.mode k) k p2 h l).1
  rw [Mach.lane_updSys] at hleft
  rw [Mach.lane_modeShown] at hend
  have hshown := Lane.regsOnly_regs (n.lane l) ((n.lane l).regs.showMode m.sys.mode k)
  rw [he]
  exact (hleft.trans hshown).trans hend

/-- It leaves every register that is not listed. -/
theorem Mach.keeps_setMode (l : LaneId) : (m.lane l).regs.Keeps ((m.setMode k p2).lane l).regs transitionRegs := by
  obtain ⟨n, hn, he⟩ := m.setMode_shown k p2
  have hleft := (hn.keeps l).mono (bs := transitionRegs) (by decide)
  have hshown := ((n.lane l).regs.keeps_showMode m.sys.mode k).mono (bs := transitionRegs) (by decide)
  have hend := (Mach.shifts_modeEnd (n.modeShown m.sys.mode k) k p2 h l).2.mono (bs := transitionRegs) (by decide)
  rw [Mach.lane_updSys] at hleft
  rw [Mach.regs_modeShown] at hend
  rw [he]
  exact (hleft.trans hshown).trans hend

theorem Mach.shows_setMode (l : LaneId) : ((m.setMode k p2).lane l).regs.Shows m.sys.mode k := by
  obtain ⟨n, -, he⟩ := m.setMode_shown k p2
  have hshows : ((n.lane l).regs.showMode m.sys.mode k).Shows m.sys.mode k := Regs.shows_put _ _ _
  have hend := (Mach.shifts_modeEnd (n.modeShown m.sys.mode k) k p2 h l).2
  rw [Mach.regs_modeShown] at hend
  rw [he]
  exact hshows.keeps hend (by decide) (by decide)

/-- The module has gone from its mode to mode `k`. -/
theorem Mach.entered_setMode : (m.setMode k p2).Entered m.sys.mode k p2 := by
  have hshows := fun l => Mach.shows_setMode k p2 h l
  have hsys := Mach.sys_setMode k p2 h
  have hmode : (m.setMode k p2).sys.mode = k := by rw [hsys]
  have hreq : (m.setMode k p2).sys.pendingReq = none := by rw [hsys]; rfl
  obtain ⟨n, -, he⟩ := m.setMode_shown k p2
  have hraised : (m.setMode k p2).Raised .sys I.SYS_MODE_CHANGE := he ▸ Mach.raised_modeEnd _ _ _ _
  have hrec : (m.setMode k p2).Recorded 0x0001 m.sys.mode k p2 := he ▸ Mach.recorded_modeRecorded _ _ _ _
  exact ⟨hmode, hreq, fun l => (hshows l).1, fun l => (hshows l).2.1, fun l => (hshows l).2.2.1, fun l => (hshows l).2.2.2, hraised, hrec⟩

/-- A register that a transition does not change reads as before. -/
theorem Mach.reads_setMode {f : Field} {v : Nat} (hr : m.Reads f v) (hf : f.addr ∉ transitionRegs) : (m.setMode k p2).Reads f v := fun l => by
  rw [(Mach.keeps_setMode k p2 h l).fld f hf]
  exact hr l

end

end Sys2Proof.Machine

/-! # LOAD: the image streamed and judged (R62, R63) -/
namespace Sys2Proof.Machine

/-! ### Reading a spliced memory -/

theorem Store.get_of_forall_ne {α : Type} {d : Nat → α} {t : Store α} {k : Nat} (h : ∀ e ∈ t, e.1 ≠ k) : Store.get d t k = d k := by
  induction t with
  | nil => rfl
  | cons e t ih =>
    rw [Store.get, if_neg (Ne.symm (h e List.mem_cons_self))]
    exact ih fun e he => h e (List.mem_cons_of_mem _ he)

theorem Store.get_append_left {α : Type} {d : Nat → α} {t u : Store α} {k : Nat} (h : ∀ e ∈ u, e.1 ≠ k) :
    Store.get d (t ++ u) k = Store.get d t k := by
  induction t with
  | nil => exact Store.get_of_forall_ne h
  | cons e t ih => rw [List.cons_append, Store.get, Store.get, ih]

theorem Store.get_append_right {α : Type} {d : Nat → α} {t u : Store α} {k : Nat} (h : ∀ e ∈ t, e.1 ≠ k) :
    Store.get d (t ++ u) k = Store.get d u k := by
  induction t with
  | nil => rfl
  | cons e t ih =>
    rw [List.cons_append, Store.get, if_neg (Ne.symm (h e List.mem_cons_self))]
    exact ih fun e he => h e (List.mem_cons_of_mem _ he)

theorem Store.get_filter {α : Type} {d : Nat → α} (t : Store α) {p : Nat → Bool} {k : Nat} (h : p k = true) :
    Store.get d (t.filter (fun e => p e.1)) k = Store.get d t k := by
  induction t with
  | nil => rfl
  | cons e t ih =>
    rw [List.filter_cons, Store.get]
    by_cases hk : k = e.1
    · rw [if_pos (hk ▸ h), Store.get, if_pos hk, if_pos hk]
    · rw [if_neg hk, ← ih]
      split
      · rw [Store.get, if_neg hk]
      · rfl

theorem Mem.byte_shift (t : Mem) (n k : Nat) : Mem.byte (t.map (fun e => (e.1 + n, e.2))) (n + k) = t.byte k := by
  unfold Mem.byte
  induction t with
  | nil => rfl
  | cons e t ih =>
    rw [List.map_cons, Store.get, Store.get, ih]
    exact ite_cond_congr (by rw [eq_iff_iff]; omega)

/-- The bytes below the replaced ones stay. -/
theorem Mem.byte_splice_below (m src : Mem) {base len a : Nat} (h : a < base) : (m.splice base len src).byte a = m.byte a := by
  unfold Mem.byte Mem.splice
  rw [Store.get_append_left, Store.get_filter m (p := fun k => decide (k < base)) (decide_eq_true h)]
  intro e he
  rcases List.mem_append.1 he with he | he
  · obtain ⟨b, -, rfl⟩ := List.mem_map.1 he
    dsimp only
    omega
  · have := of_decide_eq_true (List.mem_filter.1 he).2
    omega

/-- The bytes above the replaced ones stay. -/
theorem Mem.byte_splice_above (m src : Mem) {base len a : Nat} (h : base + len ≤ a) : (m.splice base len src).byte a = m.byte a := by
  unfold Mem.byte Mem.splice
  rw [Store.get_append_right, Store.get_append_right, Store.get_filter m (p := fun k => decide (base + len ≤ k)) (decide_eq_true h)]
  · intro e he
    obtain ⟨b, hb, rfl⟩ := List.mem_map.1 he
    have := of_decide_eq_true (List.mem_filter.1 hb).2
    dsimp only
    omega
  · intro e he
    have := of_decide_eq_true (List.mem_filter.1 he).2
    omega

/-- The replaced bytes are those of the source. -/
theorem Mem.byte_splice_within (m src : Mem) (base : Nat) {len k : Nat} (h : k < len) :
    (m.splice base len src).byte (base + k) = src.byte k := by
  unfold Mem.byte Mem.splice
  rw [Store.get_append_right, Store.get_append_left]
  · exact (Mem.byte_shift _ base k).trans (Store.get_filter src (p := fun j => decide (j < len)) (decide_eq_true h))
  · intro e he
    have := of_decide_eq_true (List.mem_filter.1 he).2
    omega
  · intro e he
    have := of_decide_eq_true (List.mem_filter.1 he).2
    omega

/-- Bytes put below a limit leave an address that none of them names. -/
theorem Mem.byte_putsBelow (base lim : Nat) {a : Nat} (ds : List (Nat × Byte)) (h : ∀ e ∈ ds, e.1 < lim → base + e.1 ≠ a) (d : Mem) :
    Mem.byte (ds.foldl (fun d e => if e.1 < lim then d.put (base + e.1) e.2 else d) d) a = d.byte a := by
  induction ds generalizing d with
  | nil => rfl
  | cons e ds ih =>
    rw [List.foldl_cons, ih fun e he => h e (List.mem_cons_of_mem _ he)]
    split
    next hlt => exact Store.get_set_ne _ _ _ (Ne.symm (h e List.mem_cons_self hlt))
    next => rfl

/-! ### IMAGE_STREAM_DONE -/

/-- The staging region holds the slot's byte, where no other byte has come to its place. -/
theorem Lane.byte_stream (x : Lane) (s : FlashSlot) {ds : List (Nat × Byte)} {k : Nat} (hk : k < s.len) (hr : k < 0x80000000)
    (hd : ∀ d ∈ ds, d.1 ≠ k) : (x.stream s ds).dram.byte (x.stagingBase + k) = s.bytes.byte k := by
  unfold Lane.stream
  dsimp only
  rw [Mem.byte_putsBelow _ _ _ fun d h _ => by have := hd d h; omega, Mem.byte_splice_within _ _ _ hr]
  exact Store.get_filter s.bytes (p := fun j => decide (j < s.len)) (decide_eq_true hk)

/-- Outside its staging region the stream changes nothing. -/
theorem Lane.byte_stream_outside (x : Lane) (s : FlashSlot) (ds : List (Nat × Byte)) {a : Nat}
    (h : a < x.stagingBase ∨ x.stagingBase + 0x80000000 ≤ a) : (x.stream s ds).dram.byte a = x.dram.byte a := by
  unfold Lane.stream
  dsimp only
  rw [Mem.byte_putsBelow _ _ _ fun d _ hlt => by have := lt_min_iff.1 hlt; omega]
  rcases h with h | h
  · exact Mem.byte_splice_below _ _ h
  · exact Mem.byte_splice_above _ _ h

/-- What the stream makes of a lane: one with an outcome, or whose host link is down, is as it was. -/
def Lane.streamed (x : Lane) (s : FlashSlot) (ds : List (Nat × Byte)) : Lane :=
  if x.outcome.isNone && x.hostLink then x.stream s ds else x

theorem Lane.streamed_of_open {x : Lane} (s : FlashSlot) (ds : List (Nat × Byte)) (ho : x.outcome = none) (hl : x.hostLink = true) :
    x.streamed s ds = x.stream s ds := by
  unfold Lane.streamed
  rw [ho, hl]
  rfl

theorem Lane.streamed_of_closed {x : Lane} (s : FlashSlot) (ds : List (Nat × Byte)) (h : x.outcome ≠ none ∨ x.hostLink = false) :
    x.streamed s ds = x := by
  unfold Lane.streamed
  rcases h with h | h
  · rw [Option.isNone_eq_false_iff.2 (Option.isSome_iff_ne_none.2 h)]
    rfl
  · rw [h, Bool.and_false]
    rfl

theorem Lane.streamed_eq (x : Lane) (s : FlashSlot) (ds : List (Nat × Byte)) : x.streamed s ds = { x with dram := (x.streamed s ds).dram } := by
  unfold Lane.streamed Lane.stream
  split <;> rfl

theorem Lane.byte_streamed_outside (x : Lane) (s : FlashSlot) (ds : List (Nat × Byte)) {a : Nat}
    (h : a < x.stagingBase ∨ x.stagingBase + 0x80000000 ≤ a) : (x.streamed s ds).dram.byte a = x.dram.byte a := by
  unfold Lane.streamed
  split
  · exact x.byte_stream_outside s ds h
  · rfl

/-- The bytes that came to a lane otherwise. -/
def differingAt (l : LaneId) (ds : List (LaneId × Nat × Byte)) : List (Nat × Byte) :=
  (ds.filter (fun e => decide (e.1 = l))).map (fun e => e.2)

theorem differingAt_ne {l : LaneId} {ds : List (LaneId × Nat × Byte)} {k : Nat} (h : ∀ d ∈ ds, d.1 = l → d.2.1 ≠ k) :
    ∀ d ∈ differingAt l ds, d.1 ≠ k := by
  intro d hd
  obtain ⟨e, he, rfl⟩ := List.mem_map.1 hd
  obtain ⟨hm, hl⟩ := List.mem_filter.1 he
  exact h e hm (of_decide_eq_true hl)

/-- The module with the image streamed into its lanes. -/
def Mach.streamed (m : Mach) (s : FlashSlot) (ds : List (LaneId × Nat × Byte)) : Mach :=
  laneIds.foldl (fun (m : Mach) l => m.updLane l (fun x => x.streamed s (differingAt l ds))) m

theorem Mach.lane_streamed (m : Mach) (s : FlashSlot) (ds : List (LaneId × Nat × Byte)) (l : LaneId) :
    (m.streamed s ds).lane l = (m.lane l).streamed s (differingAt l ds) := by cases l <;> rfl

theorem Mach.imageStreamDone_of_step {m : Mach} (ds : List (LaneId × Nat × Byte)) (hmode : m.sys.mode = 4)
    (hstep : m.fld F.SYS_IMG_LOAD_STEP = 2) :
    m.imageStreamDone ds = (m.streamed (m.slotOf m.sys.slot) ds).putAll F.SYS_IMG_LOAD_STEP 3 := by
  unfold Mach.imageStreamDone
  rw [if_neg (by rw [hmode, hstep]; decide)]
  rfl

theorem Mach.imageStreamDone_idle {m : Mach} (ds : List (LaneId × Nat × Byte)) (h : m.sys.mode ≠ 4 ∨ m.fld F.SYS_IMG_LOAD_STEP ≠ 2) :
    m.imageStreamDone ds = m := if_pos h

theorem Mach.reads_putAll (m : Mach) (f : Field) (v : Nat) (h : f.hi < 32) (hl : f.lo ≤ f.hi) :
    (m.putAll f v).Reads f (v % 2 ^ (f.hi + 1 - f.lo)) := fun l => by
  rw [Mach.lane_putAll]
  exact Regs.fld_put_same _ _ _ h hl

end Sys2Proof.Machine

/-! # LOAD: a fault, the judgement of three outcomes, and the scan's end (R62, R63) -/
namespace Sys2Proof.Machine

/-- A command in a mode in which the cycle does not run is not followed by a restart of R407. -/
theorem completes_of_idle {c : Instr} {s : State} {P : Mach → Prop} (f : Mach → Mach) (hc : exec c s = s.run f)
    (hmode : modeActive s.m.sys.mode = false) (h : P (f s.m)) : Completes c s P := by
  refine ⟨f s.m, ?_, h⟩
  rw [hc]
  unfold State.run Mach.settle
  rw [hmode, Bool.and_false, Bool.false_and, Bool.false_and, if_neg Bool.false_ne_true]

/-! ### A failed step (R62) -/

/-- What a failed step writes before MAINTENANCE is entered. -/
def Mach.faultNoted (m : Mach) (code lanes : Nat) : Mach :=
  (((m.putAll F.SYS_IMG_LOAD_FAULT code).putSc F.UPD_IMG_SLOT_STATUS_LOADING 0).record 0x0010 code (m.fld F.SYS_IMG_LOAD_STEP)
    m.sys.slot lanes).updSys (fun s => { s with step6 := 0, retried := false })

theorem Mach.loadFault_eq (m : Mach) (code lanes : Nat) : m.loadFault code lanes = (m.faultNoted code lanes).setMode 12 0 := rfl

theorem Mach.mode_faultNoted (m : Mach) (code lanes : Nat) : (m.faultNoted code lanes).sys.mode = m.sys.mode := by
  rw [Mach.faultNoted, Mach.updSys_sys, Mach.record_sys, Mach.putSc_sys, Mach.putAll_sys]

theorem Mach.reads_faultNoted (m : Mach) (code lanes : Nat) : (m.faultNoted code lanes).Reads F.SYS_IMG_LOAD_FAULT (code % 16) := fun l => by
  rw [Mach.faultNoted, Mach.lane_updSys, (Mach.keeps_record _ _ _ _ _ _ l).2.fld _ (by decide), Mach.lane_putSc]
  exact m.reads_putAll F.SYS_IMG_LOAD_FAULT code (by decide) (by decide) l

theorem Mach.loading_faultNoted (m : Mach) (code lanes : Nat) :
    (m.faultNoted code lanes).sc.regs.fld F.UPD_IMG_SLOT_STATUS_LOADING = 0 := by
  rw [Mach.faultNoted, Mach.updSys_sc, Mach.record_sc, Mach.putSc_sc]
  exact Regs.fld_put_same _ _ _ (by decide) (by decide)

/-- A failed step leads to MAINTENANCE with its code. -/
theorem Mach.loadFault_spec {m : Mach} (code lanes : Nat) (h : m.sys.mode = 4) :
    (m.loadFault code lanes).Entered 4 12 0 ∧ (m.loadFault code lanes).Reads F.SYS_IMG_LOAD_FAULT (code % 16) ∧
    (m.loadFault code lanes).sc.regs.fld F.UPD_IMG_SLOT_STATUS_LOADING = 0 := by
  have hmode : (m.faultNoted code lanes).sys.mode = 4 := (m.mode_faultNoted code lanes).trans h
  have hne : (m.faultNoted code lanes).sys.mode ≠ 10 := by rw [hmode]; decide
  have hentered := Mach.entered_setMode 12 0 hne
  rw [hmode] at hentered
  rw [Mach.loadFault_eq]
  refine ⟨hentered, Mach.reads_setMode 12 0 hne (m.reads_faultNoted code lanes) (by decide), ?_⟩
  rw [(Mach.ctl_setMode 12 0 hne).fld _ (by decide)]
  exact m.loading_faultNoted code lanes

/-! ### Outcomes that are alike -/

theorem sameOutcome_iff {x y : Lane} {u v : Nat × W64} (hx : x.outcome = some u) (hy : y.outcome = some v) :
    sameOutcome x y = true ↔ u.1 = v.1 ∧ (u.1 ≠ 0 ∨ (u.2 = v.2 ∧ x.stagingImg.imageId = y.stagingImg.imageId)) := by
  simp only [sameOutcome, hx, hy, Bool.and_eq_true, Bool.or_eq_true, decide_eq_true_eq]

theorem sameOutcome_eq_false_iff {x y : Lane} {u v : Nat × W64} (hx : x.outcome = some u) (hy : y.outcome = some v) :
    sameOutcome x y = false ↔ u.1 ≠ v.1 ∨ (u.1 = 0 ∧ (u.2 ≠ v.2 ∨ x.stagingImg.imageId ≠ y.stagingImg.imageId)) := by
  rw [← Bool.not_eq_true, sameOutcome_iff hx hy]
  tauto

theorem Lane.outcomeFault_of_fault {x : Lane} {f : Nat} {v : W64} (h : x.outcome = some (f, v)) (hf : f ≠ 0) : x.outcomeFault = f := by
  unfold Lane.outcomeFault
  rw [h]
  cases f with
  | zero => exact absurd rfl hf
  | succ f => rfl

theorem Lane.outcomeFault_of_seal {x : Lane} {v : W64} (h : x.outcome = some (0, v)) :
    x.outcomeFault = if v.toNat = x.stagingImg.storedSeal then 0 else 3 := by
  simp only [Lane.outcomeFault, h]

/-! ### The judgement (R63) -/

/-- Three outcomes alike: their fault, or none. -/
theorem Mach.judgeLoad_alike {m : Mach} (h : ∀ j k, sameOutcome (m.lane j) (m.lane k) = true) :
    m.judgeLoad.1 = if m.a.outcomeFault = 0 then .pass else .fault m.a.outcomeFault := by
  have hab : sameOutcome m.a m.b = true := h .a .b
  have hbc : sameOutcome m.b m.c = true := h .b .c
  simp only [Mach.judgeLoad, hab, hbc, Bool.and_self, if_true]

/-- Two outcomes alike against that of lane `k`: their fault, or lane `k` once more. -/
theorem Mach.judgeLoad_odd {m : Mach} {k : LaneId} {f : Nat} (hf : ∀ j, j ≠ k → (m.lane j).outcomeFault = f)
    (hsame : ∀ i j, i ≠ k → j ≠ k → sameOutcome (m.lane i) (m.lane j) = true)
    (hodd : ∀ j, j ≠ k → sameOutcome (m.lane j) (m.lane k) = false ∧ sameOutcome (m.lane k) (m.lane j) = false) :
    m.judgeLoad.1 = if f ≠ 0 then .fault f else if m.sys.retried then .fault 9 else .retry k := by
  cases k with
  | a =>
    have hfault : m.b.outcomeFault = f := hf .b (by decide)
    have hbc : sameOutcome m.b m.c = true := hsame .b .c (by decide) (by decide)
    have hab : sameOutcome m.a m.b = false := (hodd .b (by decide)).2
    have hac : sameOutcome m.a m.c = false := (hodd .c (by decide)).2
    simp only [Mach.judgeLoad, hab, hac, hbc, hfault, Bool.false_and, Bool.false_eq_true, if_false, if_true]
  | b =>
    have hfault : m.a.outcomeFault = f := hf .a (by decide)
    have hac : sameOutcome m.a m.c = true := hsame .a .c (by decide) (by decide)
    have hab : sameOutcome m.a m.b = false := (hodd .a (by decide)).1
    simp only [Mach.judgeLoad, hab, hac, hfault, Bool.false_and, Bool.false_eq_true, if_false, if_true]
  | c =>
    have hfault : m.a.outcomeFault = f := hf .a (by decide)
    have hab : sameOutcome m.a m.b = true := hsame .a .b (by decide) (by decide)
    have hbc : sameOutcome m.b m.c = false := (hodd .b (by decide)).1
    simp only [Mach.judgeLoad, hab, hbc, hfault, Bool.and_false, Bool.false_eq_true, if_false, if_true]

/-- No two outcomes alike: fault 9. -/
theorem Mach.judgeLoad_none {m : Mach} (hab : sameOutcome m.a m.b = false) (hbc : sameOutcome m.b m.c = false)
    (hac : sameOutcome m.a m.c = false) : m.judgeLoad.1 = .fault 9 := by
  simp only [Mach.judgeLoad, hab, hbc, hac, Bool.and_self, Bool.false_eq_true, if_false]

/-- The same fault code in every lane. -/
theorem Mach.judgeLoad_fault {m : Mach} {f : Nat} (hf : f ≠ 0) (h : ∀ k, ∃ v, (m.lane k).outcome = some (f, v)) :
    m.judgeLoad.1 = .fault f := by
  have hsame : ∀ j k, sameOutcome (m.lane j) (m.lane k) = true := fun j k => by
    obtain ⟨v, hv⟩ := h j
    obtain ⟨w, hw⟩ := h k
    exact (sameOutcome_iff hv hw).2 ⟨rfl, .inl hf⟩
  obtain ⟨v, hv⟩ := h .a
  have hfault : m.a.outcomeFault = f := Lane.outcomeFault_of_fault hv hf
  rw [Mach.judgeLoad_alike hsame, hfault, if_neg hf]

/-- No fault and one pair of IMAGE_ID and seal in every lane. -/
theorem Mach.judgeLoad_seal {m : Mach} {v : W64} {t : Nat} (h : ∀ k, (m.lane k).outcome = some (0, v) ∧
    (m.lane k).stagingImg.storedSeal = t ∧ (m.lane k).stagingImg.imageId = m.a.stagingImg.imageId) :
    m.judgeLoad.1 = if v.toNat = t then .pass else .fault 3 := by
  have hsame : ∀ j k, sameOutcome (m.lane j) (m.lane k) = true := fun j k =>
    (sameOutcome_iff (h j).1 (h k).1).2 ⟨rfl, .inr ⟨rfl, (h j).2.2.trans (h k).2.2.symm⟩⟩
  obtain ⟨ho, hs, -⟩ := h .a
  have hfault : m.a.outcomeFault = if v.toNat = t then 0 else 3 := hs ▸ Lane.outcomeFault_of_seal ho
  rw [Mach.judgeLoad_alike hsame, hfault]
  split <;> rfl

/-- Two lanes with one fault code against the third. -/
theorem Mach.judgeLoad_fault_odd {m : Mach} {k : LaneId} {f g : Nat} (hf : f ≠ 0) (hg : g ≠ f) (hk : ∃ v, (m.lane k).outcome = some (g, v))
    (h : ∀ j, j ≠ k → ∃ v, (m.lane j).outcome = some (f, v)) : m.judgeLoad.1 = .fault f := by
  obtain ⟨w, hw⟩ := hk
  refine (Mach.judgeLoad_odd (k := k) (f := f) (fun j hj => ?_) (fun i j hi hj => ?_) (fun j hj => ?_)).trans (if_pos hf)
  · obtain ⟨v, hv⟩ := h j hj
    exact Lane.outcomeFault_of_fault hv hf
  · obtain ⟨u, hu⟩ := h i hi
    obtain ⟨v, hv⟩ := h j hj
    exact (sameOutcome_iff hu hv).2 ⟨rfl, .inl hf⟩
  · obtain ⟨v, hv⟩ := h j hj
    exact ⟨(sameOutcome_eq_false_iff hv hw).2 (.inl hg.symm), (sameOutcome_eq_false_iff hw hv).2 (.inl hg)⟩

/-- Two lanes with no fault and one pair of IMAGE_ID and seal against the third. -/
theorem Mach.judgeLoad_seal_odd {m : Mach} {k : LaneId} {g t i : Nat} {w v : W64} (hk : (m.lane k).outcome = some (g, w))
    (hd : g ≠ 0 ∨ w ≠ v ∨ (m.lane k).stagingImg.imageId ≠ i)
    (h : ∀ j, j ≠ k → (m.lane j).outcome = some (0, v) ∧ (m.lane j).stagingImg.storedSeal = t ∧ (m.lane j).stagingImg.imageId = i) :
    m.judgeLoad.1 = if v.toNat ≠ t then .fault 3 else if m.sys.retried then .fault 9 else .retry k := by
  refine (Mach.judgeLoad_odd (k := k) (f := if v.toNat = t then 0 else 3) (fun j hj => ?_) (fun p q hp hq => ?_) (fun j hj => ?_)).trans ?_
  · obtain ⟨ho, hs, -⟩ := h j hj
    exact hs ▸ Lane.outcomeFault_of_seal ho
  · obtain ⟨hop, -, hip⟩ := h p hp
    obtain ⟨hoq, -, hiq⟩ := h q hq
    exact (sameOutcome_iff hop hoq).2 ⟨rfl, .inr ⟨rfl, hip.trans hiq.symm⟩⟩
  · obtain ⟨ho, -, rfl⟩ := h j hj
    rw [sameOutcome_eq_false_iff ho hk, sameOutcome_eq_false_iff hk ho]
    dsimp only
    by_cases hg : g = 0
    · have hpair := hd.resolve_left (not_not.2 hg)
      exact ⟨.inr ⟨rfl, hpair.imp Ne.symm Ne.symm⟩, .inr ⟨hg, hpair⟩⟩
    · exact ⟨.inl (Ne.symm hg), .inl hg⟩
  · by_cases hv : v.toNat = t
    · rw [if_pos hv, if_neg (not_not.2 rfl), if_neg (not_not.2 hv)]
    · rw [if_neg hv, if_pos (by decide), if_pos hv]

/-! ### IMAGE_SCAN_DONE -/

/-- The module after lane `l` has come to its outcome. -/
def Mach.scanned (m : Mach) (l : LaneId) : Mach := m.updLane l (fun x => { x with outcome := some x.scanOutcome })

/-- LOAD goes on as the judgement says. -/
def Mach.ruled (m : Mach) (v : LoadVerdict × Nat) : Mach :=
  match v with
  | (.pass, _) => m.putAll F.SYS_IMG_LOAD_STEP 6
  | (.fault f, ls) => (m.putAll F.SYS_IMG_LOAD_STEP (m.judgedStep f)).loadFault f ls
  | (.retry k, _) =>
    ((m.updLane k (fun x => { x with outcome := none })).updSys (fun s => { s with retried := true })).putAll F.SYS_IMG_LOAD_STEP 2

theorem Mach.imageScanDone_idle {m : Mach} {l : LaneId}
    (h : m.sys.mode ≠ 4 ∨ m.fld F.SYS_IMG_LOAD_STEP ≠ 3 ∨ (m.lane l).outcome ≠ none) : m.imageScanDone l = m :=
  if_pos (h.imp_right (.imp_right Option.isSome_iff_ne_none.2))

section
variable {m : Mach} {l : LaneId} (hmode : m.sys.mode = 4) (hstep : m.fld F.SYS_IMG_LOAD_STEP = 3) (ho : (m.lane l).outcome = none)
include hmode hstep ho

theorem Mach.imageScanDone_open : m.imageScanDone l =
    if laneIds.any (fun k => ((m.scanned l).lane k).outcome.isNone) then m.scanned l
    else ((m.scanned l).putAll F.SYS_IMG_LOAD_STEP 5).ruled (m.scanned l).judgeLoad := by
  unfold Mach.imageScanDone
  rw [if_neg (by rw [hmode, hstep, ho]; decide)]
  rfl

theorem Mach.imageScanDone_waits (h : ∃ k, ((m.scanned l).lane k).outcome = none) : m.imageScanDone l = m.scanned l := by
  obtain ⟨k, hk⟩ := h
  rw [Mach.imageScanDone_open hmode hstep ho]
  exact if_pos (List.any_eq_true.2 ⟨k, by cases k <;> decide, by rw [hk]; rfl⟩)

theorem Mach.imageScanDone_judges (h : ∀ k, ((m.scanned l).lane k).outcome ≠ none) :
    m.imageScanDone l = ((m.scanned l).putAll F.SYS_IMG_LOAD_STEP 5).ruled (m.scanned l).judgeLoad := by
  rw [Mach.imageScanDone_open hmode hstep ho]
  refine if_neg fun hany => ?_
  obtain ⟨k, -, hk⟩ := List.any_eq_true.1 hany
  exact h k (Option.isNone_iff_eq_none.1 hk)

end

section
variable {m : Mach} {v : LoadVerdict × Nat}

theorem Mach.ruled_pass (h : v.1 = .pass) : m.ruled v = m.putAll F.SYS_IMG_LOAD_STEP 6 := by
  obtain ⟨w, ls⟩ := v
  obtain rfl : w = .pass := h
  rfl

theorem Mach.ruled_fault {f : Nat} (h : v.1 = .fault f) : m.ruled v = (m.putAll F.SYS_IMG_LOAD_STEP (m.judgedStep f)).loadFault f v.2 := by
  obtain ⟨w, ls⟩ := v
  obtain rfl : w = .fault f := h
  rfl

theorem Mach.ruled_retry {k : LaneId} (h : v.1 = .retry k) : m.ruled v =
    ((m.updLane k (fun x => { x with outcome := none })).updSys (fun s => { s with retried := true })).putAll F.SYS_IMG_LOAD_STEP 2 := by
  obtain ⟨w, ls⟩ := v
  obtain rfl : w = .retry k := h
  rfl

end

/-! ### The statement -/

theorem completes_imageStreamDone {s : State} (ds : List (LaneId × Nat × Byte)) {P : Mach → Prop} (hmode : s.m.sys.mode = 4)
    (h : P (s.m.imageStreamDone ds)) : Completes (.imageStreamDone ds) s P :=
  completes_of_idle (fun m => m.imageStreamDone ds) rfl (by rw [hmode]; rfl) h

theorem completes_imageScanDone {s : State} {l : LaneId} {n : Mach} {P : Mach → Prop} (hmode : s.m.sys.mode = 4)
    (he : s.m.imageScanDone l = n) (h : P n) : Completes (.imageScanDone l) s P :=
  completes_of_idle (fun m => m.imageScanDone l) rfl (by rw [hmode]; rfl) (he ▸ h)

/-- R62 step 2: what the stream leaves in the lanes, and what it leaves alone. -/
theorem completes_stream (s : State) (ds : List (LaneId × Nat × Byte)) (hmode : s.m.sys.mode = 4) (hstep : s.m.fld F.SYS_IMG_LOAD_STEP = 2) :
    Completes (.imageStreamDone ds) s (fun m => m.Reads F.SYS_IMG_LOAD_STEP 3 ∧ m.sys = s.m.sys ∧ m.ph = s.m.ph ∧ m.sc = s.m.sc ∧
      m.out = s.m.out ∧
      (∀ l k, (s.m.lane l).outcome = none → (s.m.lane l).hostLink = true → k < (s.m.slotOf s.m.sys.slot).len → k < 0x80000000 →
        (∀ d ∈ ds, d.1 = l → d.2.1 ≠ k) →
        (m.lane l).dram.byte ((s.m.lane l).stagingBase + k) = (s.m.slotOf s.m.sys.slot).bytes.byte k) ∧
      (∀ l a, a < (s.m.lane l).stagingBase ∨ (s.m.lane l).stagingBase + 0x80000000 ≤ a →
        (m.lane l).dram.byte a = (s.m.lane l).dram.byte a) ∧
      ∀ l, m.lane l = { s.m.lane l with dram := (m.lane l).dram, regs := (m.lane l).regs } ∧
        ((s.m.lane l).outcome ≠ none ∨ (s.m.lane l).hostLink = false → (m.lane l).dram = (s.m.lane l).dram)) := by
  refine completes_imageStreamDone ds hmode ?_
  rw [Mach.imageStreamDone_of_step ds hmode hstep]
  have hlane : ∀ l, (((s.m.streamed (s.m.slotOf s.m.sys.slot) ds).putAll F.SYS_IMG_LOAD_STEP 3).lane l) =
      { (s.m.lane l).streamed (s.m.slotOf s.m.sys.slot) (differingAt l ds) with
        regs := ((s.m.lane l).streamed (s.m.slotOf s.m.sys.slot) (differingAt l ds)).regs.put F.SYS_IMG_LOAD_STEP 3 } := fun l => by
    rw [Mach.lane_putAll, Mach.lane_streamed]
  refine ⟨Mach.reads_putAll _ _ 3 (by decide) (by decide), rfl, rfl, rfl, rfl, fun l k ho hl hk hr hd => ?_, fun l a ha => ?_, fun l => ?_⟩
  · rw [hlane, Lane.streamed_of_open _ _ ho hl]
    exact Lane.byte_stream _ _ hk hr (differingAt_ne hd)
  · rw [hlane]
    exact Lane.byte_streamed_outside _ _ _ ha
  · rw [hlane]
    refine ⟨?_, fun hc => by rw [Lane.streamed_of_closed _ _ hc]⟩
    rw [Lane.streamed_eq]

/-- R63: what becomes of LOAD when lane `l` has come to its outcome. -/
theorem completes_scan (s : State) (l : LaneId) (hmode : s.m.sys.mode = 4) (hstep : s.m.fld F.SYS_IMG_LOAD_STEP = 3)
    (ho : (s.m.lane l).outcome = none) :
    ((∃ k, ((s.m.scanned l).lane k).outcome = none) → Completes (.imageScanDone l) s (fun m => m = s.m.scanned l)) ∧
    ((∀ k, ((s.m.scanned l).lane k).outcome ≠ none) →
      ((s.m.scanned l).judgeLoad.1 = .pass → Completes (.imageScanDone l) s (fun m => m.Reads F.SYS_IMG_LOAD_STEP 6 ∧ m.sys = s.m.sys ∧
        m.sc = s.m.sc ∧ m.ph = s.m.ph)) ∧
      (∀ f, (s.m.scanned l).judgeLoad.1 = .fault f → Completes (.imageScanDone l) s (fun m =>
        m.Entered 4 12 0 ∧ m.Reads F.SYS_IMG_LOAD_FAULT (f % 16) ∧ m.sc.regs.fld F.UPD_IMG_SLOT_STATUS_LOADING = 0)) ∧
      (∀ k, (s.m.scanned l).judgeLoad.1 = .retry k → Completes (.imageScanDone l) s (fun m =>
        m.Reads F.SYS_IMG_LOAD_STEP 2 ∧ (m.lane k).outcome = none ∧ m.sys = { s.m.sys with retried := true } ∧ m.sc = s.m.sc))) := by
  have hsys : (s.m.scanned l).sys = s.m.sys := Mach.updLane_sys _ _ _
  have hsc : (s.m.scanned l).sc = s.m.sc := Mach.updLane_sc _ _ _
  have hph : (s.m.scanned l).ph = s.m.ph := Mach.updLane_ph _ _ _
  have hwaits := Mach.imageScanDone_waits hmode hstep ho
  have hjudges := Mach.imageScanDone_judges hmode hstep ho
  generalize s.m.scanned l = n at hsys hsc hph hwaits hjudges
  refine ⟨fun hw => completes_imageScanDone hmode (hwaits hw) rfl, fun hall => ⟨fun hv => ?_, fun f hv => ?_, fun k hv => ?_⟩⟩
  · refine completes_imageScanDone hmode ((hjudges hall).trans (Mach.ruled_pass hv)) ?_
    exact ⟨Mach.reads_putAll _ _ 6 (by decide) (by decide), hsys, hsc, hph⟩
  · refine completes_imageScanDone hmode ((hjudges hall).trans (Mach.ruled_fault hv)) ?_
    exact Mach.loadFault_spec f _ (by rw [Mach.putAll_sys, Mach.putAll_sys, hsys, hmode])
  · refine completes_imageScanDone hmode ((hjudges hall).trans (Mach.ruled_retry hv)) ?_
    refine ⟨Mach.reads_putAll _ _ 2 (by decide) (by decide), ?_, ?_, ?_⟩
    · rw [Mach.lane_putAll, Mach.lane_updSys, Mach.lane_updLane_self]
    · rw [Mach.putAll_sys, Mach.updSys_sys, Mach.updLane_sys, Mach.putAll_sys, hsys]
    · rw [Mach.putAll_sc, Mach.updSys_sc, Mach.updLane_sc, Mach.putAll_sc, hsc]

/-- Settles O14: the stream splices the slot's bytes into each staging region, and the judgement is read off which outcomes are alike. -/
theorem loadStreamsAndJudges : Obligations.LoadStreamsAndJudges := by
  unfold Obligations.LoadStreamsAndJudges
  refine ⟨fun s ds => ⟨completes_stream s ds, fun h => ?_⟩, completes_scan, fun m => ?_, fun s l h => ?_⟩
  · have he := Mach.imageStreamDone_idle ds h
    exact completes_of_run (fun m => m.imageStreamDone ds) rfl (congrArg (fun n => n.sys.mode) he) he
  · refine ⟨fun f hf h => Mach.judgeLoad_fault hf h, fun v t h => ?_, fun k f g hf hg hk h => Mach.judgeLoad_fault_odd hf hg hk h,
      fun k g w v t i hk hd h => ?_, fun f g h ha hb hc hab hbc hac => ?_⟩
    · have hj := Mach.judgeLoad_seal h
      exact ⟨fun ht => hj.trans (if_pos ht), fun ht => hj.trans (if_neg ht)⟩
    · have hj := Mach.judgeLoad_seal_odd hk hd h
      refine ⟨fun ht => hj.trans (if_pos ht), fun ht hr => ?_, fun ht hr => ?_⟩
      · rw [hj, if_neg (not_not.2 ht), hr, if_neg Bool.false_ne_true]
      · rw [hj, if_neg (not_not.2 ht), hr, if_pos rfl]
    · exact Mach.judgeLoad_none ((sameOutcome_eq_false_iff ha hb).2 (hab.imp_right (And.imp_right .inl)))
        ((sameOutcome_eq_false_iff hb hc).2 (hbc.imp_right (And.imp_right .inl)))
        ((sameOutcome_eq_false_iff ha hc).2 (hac.imp_right (And.imp_right .inl)))
  · have he := Mach.imageScanDone_idle h
    exact completes_of_run (fun m => m.imageScanDone l) rfl (congrArg (fun n => n.sys.mode) he) he

end Sys2Proof.Machine

/-! # LOAD step 6: working tables, the on-die comparison and PROVING (R62, R68, R141, R242) -/
namespace Sys2Proof.Machine

/-! ### Steps that change lane registers and leave `sys` -/

/-- From `m` to `n` no lane changes but in registers and event staging, and `sys` is as before. -/
def Mach.LanesShown (m n : Mach) : Prop := (∀ l, (m.lane l).RegsOnly (n.lane l)) ∧ n.sys = m.sys

theorem Mach.Shifts.lanesShown {m n : Mach} {as : List Nat} (h : m.Shifts as n) : m.LanesShown n := ⟨h.lane, h.sys⟩

namespace Mach.LanesShown

variable {m n o : Mach}

theorem refl (m : Mach) : m.LanesShown m := ⟨fun _ => .refl _, rfl⟩

theorem trans (h : m.LanesShown n) (g : n.LanesShown o) : m.LanesShown o := ⟨fun l => (h.1 l).trans (g.1 l), g.2.trans h.2⟩

theorem of_eq (hl : ∀ l, n.lane l = m.lane l) (hs : n.sys = m.sys) : m.LanesShown n := ⟨fun l => by rw [hl]; exact .refl _, hs⟩

theorem putAll (m : Mach) (f : Field) (v : Nat) : m.LanesShown (m.putAll f v) :=
  (Mach.Shifts.putAll (as := [f.addr]) m v List.mem_cons_self).lanesShown

theorem raiseAll (m : Mach) (b : Blk) (i : Nat) : m.LanesShown (m.raiseAll b i) :=
  (Mach.Shifts.raiseAll (as := [blkBase b + 0x10]) m b i List.mem_cons_self).lanesShown

theorem record (m : Mach) (code p0 p1 p2 p3 : Nat) : m.LanesShown (m.record code p0 p1 p2 p3) :=
  (Mach.Shifts.record (as := eventRegs) m code p0 p1 p2 p3 (List.Subset.refl _)).lanesShown

theorem withFed (m : Mach) (f : Fed) : m.LanesShown { m with fed := f } := of_eq (Mach.lane_congr rfl rfl rfl) rfl

theorem withPh (m : Mach) (p : Ph) : m.LanesShown { m with ph := p } := of_eq (Mach.lane_congr rfl rfl rfl) rfl

theorem ite {c : Prop} [Decidable c] (g : m.LanesShown n) (h : m.LanesShown o) : m.LanesShown (if c then n else o) := by
  split
  · exact g
  · exact h

theorem foldl {α : Type} {f : Mach → α → Mach} (h : ∀ (m : Mach) a, m.LanesShown (f m a)) (l : List α) (m : Mach) :
    m.LanesShown (l.foldl f m) :=
  List.foldlRecOn l f (refl m) (fun n hn a _ => hn.trans (h n a))

theorem startTo (m : Mach) (k : Nat) : m.LanesShown (m.startTo k) := .trans (.withFed _ _) (.putAll _ _ _)

theorem fedJoin (m : Mach) (k : Nat) : m.LanesShown (m.fedJoin k) := .trans (.startTo _ _) (.raiseAll _ _ _)

theorem setPtp (m : Mach) (n : Net) (p : Ptp) : m.LanesShown (m.setPtp n p) := by
  cases n with
  | netA => exact withFed _ _
  | netB => exact withFed _ _
  | pair => exact refl m

theorem dropMaster (m : Mach) : m.LanesShown m.dropMaster := .ite (.refl m) (.trans (.setPtp _ _ _) (.setPtp _ _ _))

theorem fedTime (m : Mach) : m.LanesShown m.fedTime := by
  unfold Mach.fedTime
  exact .ite (.trans (.trans (.withFed _ _) (.putAll _ _ _)) (.raiseAll _ _ _)) (.trans (.withFed _ _) (.putAll _ _ _))

theorem holdRegs (m : Mach) : m.LanesShown m.holdRegs := .trans (.putAll _ _ _) (.putAll _ _ _)

theorem ptpTo (m : Mach) (s : Nat) : m.LanesShown (m.ptpTo s) := by
  unfold Mach.ptpTo
  refine .ite (.refl m) ?_
  refine .trans ?_ (.ite (.fedJoin _ _) (.refl _))
  refine .trans ?_ (.fedTime _)
  refine .trans ?_ (.record _ _ _ _ _ _)
  refine .trans ?_ (.holdRegs _)
  refine .trans ?_ (.ite (.raiseAll _ _ _) (.refl _))
  have hs := putAll m F.TSU_PTP_STATE s
  exact .ite (.trans (hs.trans (.putAll _ _ _)) (.raiseAll _ _ _)) (.ite (hs.trans (.putAll _ _ _)) (hs.trans (.putAll _ _ _)))

theorem stepAsk (m : Mach) (k : Int) : m.LanesShown (m.stepAsk k) := .withFed _ _

theorem freeStep (m : Mach) (n : Net) : m.LanesShown (m.freeStep n) := by
  unfold Mach.freeStep
  split
  · exact refl m
  · exact withFed _ _
  · exact .trans (.setPtp _ _ _) (.stepAsk _ _)

theorem ptpSelect (m : Mach) (heard : Option Net) : m.LanesShown (m.ptpSelect heard) := by
  unfold Mach.ptpSelect
  extract_lets old oldId k id another changed marked named n o s news p
  have hmarked : m.LanesShown marked := .trans (.putAll _ _ _) (.putAll _ _ _)
  have hnamed : m.LanesShown named := hmarked.trans (.trans (.trans (.putAll _ _ _) (.putAll _ _ _)) (.putAll _ _ _))
  have hn : m.LanesShown n := hnamed.trans (.putAll _ _ _)
  have ho : m.LanesShown o := hn.trans (.ite (.raiseAll _ _ _) (.refl _))
  have hp : m.LanesShown p := ho.trans (.ptpTo _ _)
  refine .ite ho (.ite (ho.trans (.ptpTo _ _)) ?_)
  refine .ite (.ite (ho.trans (.ptpTo _ _)) (ho.trans (.ptpTo _ _))) ?_
  refine .ite (.ite ho (.ite (ho.trans (.ptpTo _ _)) (ho.trans (.trans (.ptpTo _ _) (.ptpTo _ _))))) ?_
  refine .ite (.ite (ho.trans (.putAll _ _ _)) ho) (.ite ho ?_)
  exact .ite (hp.trans (.freeStep _ _)) hp

theorem startListen (m : Mach) : m.LanesShown m.startListen := by
  unfold Mach.startListen
  have h : m.LanesShown ((m.startTo 1).dropMaster.ptpSelect none) := .trans (.startTo _ _) (.trans (.dropMaster _) (.ptpSelect _ _))
  exact .ite (h.trans (.fedJoin _ _)) h

theorem portConfig (m : Mach) (p : Nat) : m.LanesShown (m.portConfig p) := .withPh _ _

theorem portRegs (m : Mach) (p : Nat) : m.LanesShown (m.portRegs p) := .withPh _ _

theorem portsConfig (m : Mach) : m.LanesShown m.portsConfig := foldl (fun _ _ => .trans (.portConfig _ _) (.portRegs _ _)) _ m

end Mach.LanesShown

end Sys2Proof.Machine

/-! # LOAD step 6 in the machine (R41, R62, R68, R141, R242) -/
namespace Sys2Proof.Machine

/-! ### WORKING_TABLES_BUILT -/

/-- The module with other lanes. -/
def Mach.withLanes (m : Mach) (x y z : Lane) : Mach := { m with a := x, b := y, c := z }

theorem Mach.sys_withLanes (m : Mach) (x y z : Lane) : (m.withLanes x y z).sys = m.sys := rfl

/-- The tables are built in every lane. -/
def Mach.withTables (m : Mach) (u v w : W64) : Mach := m.withLanes (m.a.buildTables u) (m.b.buildTables v) (m.c.buildTables w)

/-- Equal seals: the on-die copies are made, and the ports and the start into the federation prepared. -/
def Mach.tablesAgreed (m : Mach) : Mach :=
  let m := (m.mapLanes Lane.copyOnDie).updSys (fun s => { s with step6 := 1 })
  let m := (m.putAll F.FED_STATE_MODULE m.leadLane.img.moduleNumber).portsConfig
  if m.leadLane.img.federates && decide (m.fed.startState = 0) then m.startListen else m

theorem oddOf_alike (u : W64) : oddOf u u u = some none := if_pos ⟨rfl, rfl⟩

theorem oddOf_different {u v w : W64} (huv : u ≠ v) (hvw : v ≠ w) (huw : u ≠ w) : oddOf u v w = none := by
  unfold oddOf
  rw [if_neg (fun h => huv h.1), if_neg huv, if_neg huw, if_neg hvw]

theorem Mach.tablesAgreed_shown (m : Mach) :
    ((m.mapLanes Lane.copyOnDie).updSys (fun s => { s with step6 := 1 })).LanesShown m.tablesAgreed := by
  unfold Mach.tablesAgreed
  extract_lets copied ready
  have hready : copied.LanesShown ready := .trans (.putAll _ _ _) (.portsConfig _)
  exact .ite (hready.trans (.startListen _)) hready

section
variable {m : Mach} (hmode : m.sys.mode = 4) (hstep : m.fld F.SYS_IMG_LOAD_STEP = 6) (h6 : m.sys.step6 = 0)
include hmode hstep h6

theorem Mach.tablesBuilt_first (u v w : W64) : m.tablesBuilt u v w =
    match oddOf u v w with
    | none => (m.withTables u v w).loadFault 9 7
    | some (some _) => (m.withTables u v w).updSys (fun s => { s with step6 := 2 })
    | some none => (m.withTables u v w).tablesAgreed := by
  unfold Mach.tablesBuilt
  rw [if_neg (by rw [hmode, hstep, h6]; decide), h6]
  rfl

theorem Mach.tablesBuilt_alike (u : W64) : m.tablesBuilt u u u = (m.withTables u u u).tablesAgreed := by
  rw [Mach.tablesBuilt_first hmode hstep h6, oddOf_alike]

theorem Mach.tablesBuilt_different {u v w : W64} (huv : u ≠ v) (hvw : v ≠ w) (huw : u ≠ w) :
    m.tablesBuilt u v w = (m.withTables u v w).loadFault 9 7 := by
  rw [Mach.tablesBuilt_first hmode hstep h6, oddOf_different huv hvw huw]

end

theorem Mach.lane_withTables (m : Mach) (u : W64) (l : LaneId) : (m.withTables u u u).lane l = (m.lane l).buildTables u := by cases l <;> rfl

theorem Mach.sys_withTables (m : Mach) (u v w : W64) : (m.withTables u v w).sys = m.sys := Mach.sys_withLanes _ _ _ _

/-- What a lane holds once its tables are built. -/
structure Lane.Built (x y : Lane) (u : W64) : Prop where
  activeHi : y.activeHi = !x.activeHi
  wtSeal : y.wtSeal = u
  si : y.si = y.img.firstSi
  dram : y.dram = x.dram
  queue : y.rte.queue = []

theorem Lane.imageRegs_regsOnly (x : Lane) : x.RegsOnly x.imageRegs := rfl

theorem Lane.zvlRegs_eq (x : Lane) : ∃ r, x.zvlRegs = { x with regs := r } := ⟨_, rfl⟩

theorem Lane.zvlRegs_regsOnly (x : Lane) : x.RegsOnly x.zvlRegs := by
  obtain ⟨r, he⟩ := x.zvlRegs_eq
  rw [he]
  exact Lane.regsOnly_regs x r

/-- A lane with the roles of its regions swapped and its first State Image; `r` are its registers. -/
def Lane.swapped (x : Lane) (ws : W64) (r : Regs) : Lane :=
  let y := { x with activeHi := !x.activeHi, wtSeal := ws }
  { y with regs := r, si := y.img.firstSi, rte := Rte.reset, zvl := Zvl.reset, live := InputSet.empty, latched := InputSet.empty,
           payloads := [], staged := [], fedOut := [], dioNext := 0, zeroDie := false, zeroDram := false }

theorem Lane.built_swapped (x : Lane) (ws : W64) (r : Regs) : x.Built (x.swapped ws r) ws := ⟨rfl, rfl, rfl, rfl, rfl⟩

theorem Lane.buildTables_eq (x : Lane) (ws : W64) : ∃ r, x.buildTables ws = (x.swapped ws r).imageRegs.zvlRegs := ⟨_, rfl⟩

theorem Lane.Built.copyOnDie {x y : Lane} {u : W64} (h : x.Built y u) : x.Built y.copyOnDie u := by
  obtain ⟨ha, hw, hs, hd, hq⟩ := h
  exact ⟨ha, hw, hs, hd, hq⟩

theorem Lane.Built.regsOnly {x y z : Lane} {u : W64} (h : x.Built y u) (g : y.RegsOnly z) : x.Built z u := by
  obtain ⟨ha, hw, hs, hd, hq⟩ := h
  have hactive : z.activeHi = y.activeHi := by rw [g]
  have hdram : z.dram = y.dram := by rw [g]
  have himg : z.img = y.img := by rw [Lane.img, Lane.img, hactive, hdram]
  exact ⟨hactive.trans ha, by rw [g]; exact hw, by rw [himg, ← hs, g], hdram.trans hd, by rw [g]; exact hq⟩

theorem Lane.built_buildTables (x : Lane) (u : W64) : x.Built (x.buildTables u) u := by
  obtain ⟨r, he⟩ := x.buildTables_eq u
  rw [he]
  exact ((x.built_swapped u r).regsOnly (Lane.imageRegs_regsOnly _)).regsOnly (Lane.zvlRegs_regsOnly _)

theorem Mach.sys_tablesAgreed (m : Mach) : m.tablesAgreed.sys = { m.sys with step6 := 1 } := by
  rw [m.tablesAgreed_shown.2, Mach.updSys_sys, Mach.mapLanes_sys]

theorem Mach.built_tablesAgreed (m : Mach) (u : W64) (l : LaneId) : (m.lane l).Built ((m.withTables u u u).tablesAgreed.lane l) u := by
  have hshown := (m.withTables u u u).tablesAgreed_shown.1 l
  rw [Mach.lane_updSys, Mach.lane_mapLanes, Mach.lane_withTables] at hshown
  exact ((m.lane l).built_buildTables u).copyOnDie.regsOnly hshown

/-! ### The origin, and step 7 (R242, R68) -/

/-- A lane's proposal for the cluster origin. -/
def Lane.proposal (x : Lane) : Nat := x.time.at x.time.count + 1000000

/-- The registers of a lane that show its origin. -/
def Regs.showOrigin (r : Regs) (o : Nat) : Regs := (r.put F.TSU_ORIGIN_LO_ORIGIN o).put F.TSU_ORIGIN_HI_ORIGIN (o / 2 ^ 32)

/-- The registers of a lane that show cluster `c`. -/
def Regs.showCluster (r : Regs) (c : Nat) : Regs := (r.put F.RTE_CLUSTER_LO_CLUSTER_LO c).put F.RTE_CLUSTER_HI_CLUSTER_HI (c / 2 ^ 32)

/-- The registers of a lane that show basic cycle `bc`. -/
def Regs.showCycle (r : Regs) (bc : Nat) : Regs :=
  (r.put F.RTE_CYCLE_BASIC bc).put F.RTE_CYCLE_PHASE (if bc = 0 then 0 else if bc ≤ 12 then 2 else if bc = 13 then 3 else 4)

/-- The registers of a lane after the agreement. -/
def Regs.agreed (r : Regs) (o : Nat) : Regs := (((r.showOrigin o).showCluster 0).showCycle 0).put F.TSU_STATUS_STEP_ALLOWED 0

theorem Mach.lane_setCluster (m : Mach) (c : Nat) (l : LaneId) :
    (m.setCluster c).lane l = { m.lane l with regs := (m.lane l).regs.showCluster c } := by
  rw [Mach.setCluster, Mach.lane_putPh, Mach.lane_putAll, Mach.lane_putAll, Mach.lane_updSys, Regs.showCluster]

theorem Mach.sys_setCluster (m : Mach) (c : Nat) : (m.setCluster c).sys = { m.sys with cluster := c } := by
  rw [Mach.setCluster, Mach.putPh_sys, Mach.putAll_sys, Mach.putAll_sys, Mach.updSys_sys]

theorem Mach.fed_setCluster (m : Mach) (c : Nat) : (m.setCluster c).fed = m.fed := by
  rw [Mach.setCluster, Mach.putPh_fed, Mach.putAll_fed, Mach.putAll_fed, Mach.updSys_fed]

theorem Mach.lane_cycleRegs (m : Mach) (bc : Nat) (l : LaneId) :
    (m.cycleRegs bc).lane l = { m.lane l with regs := (m.lane l).regs.showCycle bc } := by
  rw [Mach.cycleRegs, Mach.lane_mapLanes, Regs.showCycle]

/-- The lanes have agreed on an origin. -/
def Mach.withOrigin (m : Mach) (o : Nat) : Mach :=
  let m := m.mapLanes (fun x => { x with time := { x.time with origin := o }, regs := x.regs.showOrigin o })
  let m := ((m.setCluster 0).updSys (fun s => { s with originAgreed := true, preOrigin := true, bc := 0 })).cycleRegs 0
  m.putAll F.TSU_STATUS_STEP_ALLOWED 0

theorem Mach.lane_withOrigin (m : Mach) (o : Nat) (l : LaneId) :
    (m.withOrigin o).lane l = { m.lane l with time := { (m.lane l).time with origin := o }, regs := (m.lane l).regs.agreed o } := by
  rw [Mach.withOrigin, Mach.lane_putAll, Mach.lane_cycleRegs, Mach.lane_updSys, Mach.lane_setCluster, Mach.lane_mapLanes, Regs.agreed]

theorem Mach.img_withOrigin (m : Mach) (o : Nat) (l : LaneId) : ((m.withOrigin o).lane l).img = (m.lane l).img := by
  rw [Mach.lane_withOrigin, Lane.img, Lane.img]

theorem Mach.si_withOrigin (m : Mach) (o : Nat) (l : LaneId) : ((m.withOrigin o).lane l).si = (m.lane l).si := by
  rw [Mach.lane_withOrigin]

theorem Mach.sys_withOrigin (m : Mach) (o : Nat) :
    (m.withOrigin o).sys = { m.sys with cluster := 0, originAgreed := true, preOrigin := true, bc := 0 } := by
  rw [Mach.withOrigin, Mach.putAll_sys, Mach.cycleRegs, Mach.mapLanes_sys, Mach.updSys_sys, Mach.sys_setCluster, Mach.mapLanes_sys]

theorem Mach.fed_withOrigin (m : Mach) (o : Nat) : (m.withOrigin o).fed = m.fed := by
  rw [Mach.withOrigin, Mach.putAll_fed, Mach.cycleRegs, Mach.mapLanes_fed, Mach.updSys_fed, Mach.fed_setCluster, Mach.mapLanes_fed]

/-- The end of step 6 without federation time: the median of the proposals is the origin. -/
theorem Mach.endStep6_eq (m : Mach) : m.endStep6 false =
    let n := m.withOrigin (median3 m.a.proposal m.b.proposal m.c.proposal)
    if n.paired then { (n.updSys (fun s => { s with step6 := 4 })) with fed := { n.fed with listenPartner := true } } else n.step7 := by
  unfold Mach.endStep6 Mach.withOrigin Lane.proposal Regs.showOrigin
  dsimp only
  rw [if_neg Bool.false_ne_true]

theorem Mach.endStep6_alone {m : Mach} (h : (m.withOrigin (median3 m.a.proposal m.b.proposal m.c.proposal)).paired = false) :
    m.endStep6 false = (m.withOrigin (median3 m.a.proposal m.b.proposal m.c.proposal)).step7 := by
  rw [Mach.endStep6_eq]
  dsimp only
  rw [h, if_neg Bool.false_ne_true]

/-- The lead lane is chosen by the lanes' roles, by the tests that run and by the lanes that have their image. -/
theorem Mach.lead_congr {m n : Mach} (hrole : ∀ l, (n.lane l).role = (m.lane l).role) (hloaded : ∀ l, (n.lane l).loaded = (m.lane l).loaded)
    (hbist : n.sys.bistRun = m.sys.bistRun) (htest : n.fed.testLane = m.fed.testLane) : n.lead = m.lead := by
  unfold Mach.lead Mach.voters Mach.serving Mach.laneTested Lane.isServing
  simp only [hrole, hloaded, hbist, htest]

theorem Regs.paired_agreed (r : Regs) (o : Nat) : (r.agreed o).fld F.RED_PAIR_CFG_PAIRED = r.fld F.RED_PAIR_CFG_PAIRED := by
  unfold Regs.agreed Regs.showCycle Regs.showCluster Regs.showOrigin
  simp (disch := decide) only [Regs.fld_put_ne]

theorem Mach.paired_withOrigin (m : Mach) (o : Nat) : (m.withOrigin o).paired = m.paired := by
  have hlead : (m.withOrigin o).lead = m.lead :=
    Mach.lead_congr (fun l => by rw [Mach.lane_withOrigin]) (fun l => by rw [Mach.lane_withOrigin]) (by rw [Mach.sys_withOrigin])
      (by rw [Mach.fed_withOrigin])
  unfold Mach.paired Mach.fld Mach.leadLane
  rw [hlead, Mach.lane_withOrigin, Regs.paired_agreed]

/-- The module that has its demands and goes into PROVING. -/
def Mach.readyToProve (m : Mach) : Mach :=
  let m := ((m.putAll F.SYS_IMG_LOAD_STEP 7).mapLanes Lane.setDemands).loadDone
  { m with fed := { m.fed with listenPartner := false, sentQueue := [] } }

theorem Mach.step7_eq (m : Mach) : m.step7 = m.readyToProve.setMode 5 0 := rfl

theorem Mach.lane_withSeq (m : Mach) (next last : Nat) (l : LaneId) :
    ({ m with nextSeq := next, lastSeq := last } : Mach).lane l = m.lane l := Mach.lane_congr rfl rfl rfl l

theorem Mach.lane_loadDone (m : Mach) (l : LaneId) :
    m.loadDone.lane l = { m.lane l with loaded := true, regs := (m.lane l).regs.put F.SYS_IMG_LOAD_STEP 8 } := by
  rw [Mach.loadDone, Mach.lane_withSeq, Mach.lane_updSys, Mach.lane_putSc, Mach.lane_putAll, Mach.lane_mapLanes]

theorem Mach.sys_loadDone (m : Mach) : m.loadDone.sys = { m.sys with step6 := 0 } := by
  rw [Mach.loadDone]
  dsimp only
  rw [Mach.updSys_sys, Mach.putSc_sys, Mach.putAll_sys, Mach.mapLanes_sys]

theorem Mach.lane_withFed (m : Mach) (f : Fed) (l : LaneId) : ({ m with fed := f } : Mach).lane l = m.lane l := Mach.lane_congr rfl rfl rfl l

theorem Mach.lane_readyToProve (m : Mach) (l : LaneId) : m.readyToProve.lane l =
    (((m.putAll F.SYS_IMG_LOAD_STEP 7).mapLanes Lane.setDemands).loadDone).lane l := Mach.lane_withFed _ _ l

theorem Mach.sys_readyToProve (m : Mach) : m.readyToProve.sys = { m.sys with step6 := 0 } := by
  rw [Mach.readyToProve]
  dsimp only
  rw [Mach.sys_loadDone, Mach.mapLanes_sys, Mach.putAll_sys]

theorem Mach.nextSeq_readyToProve (m : Mach) : m.readyToProve.nextSeq = 1 := by
  rw [Mach.readyToProve]
  dsimp only
  rw [Mach.loadDone]

theorem Mach.loaded_readyToProve (m : Mach) (l : LaneId) : (m.readyToProve.lane l).loaded = true := by
  rw [Mach.lane_readyToProve, Mach.lane_loadDone]

theorem Lane.time_setDemands (x : Lane) : x.setDemands.time = x.time := by rw [Lane.setDemands]

theorem Mach.time_readyToProve (m : Mach) (l : LaneId) : (m.readyToProve.lane l).time = (m.lane l).time := by
  rw [Mach.lane_readyToProve, Mach.lane_loadDone]
  dsimp only
  rw [Mach.lane_mapLanes, Lane.time_setDemands, Mach.lane_putAll]

theorem Lane.si_setDemands_congr {x y : Lane} (hi : y.img = x.img) (hs : y.si = x.si) : y.setDemands.si = x.setDemands.si := by
  unfold Lane.setDemands
  dsimp only
  rw [hi, hs]

theorem Mach.si_readyToProve (m : Mach) (l : LaneId) : (m.readyToProve.lane l).si = (m.lane l).setDemands.si := by
  rw [Mach.lane_readyToProve, Mach.lane_loadDone]
  dsimp only
  rw [Mach.lane_mapLanes, Mach.lane_putAll]
  refine Lane.si_setDemands_congr ?_ ?_
  · rw [Lane.img, Lane.img]
  · rfl

theorem Sys.originAgreed_overtaken (s : Sys) : s.overtaken.originAgreed = s.originAgreed := rfl

theorem Sys.cluster_overtaken (s : Sys) : s.overtaken.cluster = s.cluster := rfl

section
variable {x y : Lane} (h : x.RegsOnly y)
include h

theorem Lane.RegsOnly.loaded : y.loaded = x.loaded := by rw [h]

theorem Lane.RegsOnly.si : y.si = x.si := by rw [h]

theorem Lane.RegsOnly.time : y.time = x.time := by rw [h]

end

/-- Step 7 leads to PROVING, with the demands of every lane set. -/
theorem Mach.step7_spec {m : Mach} (h : m.sys.mode = 4) :
    m.step7.Entered 4 5 0 ∧ m.step7.sys.originAgreed = m.sys.originAgreed ∧ m.step7.sys.cluster = m.sys.cluster ∧ m.step7.nextSeq = 1 ∧
    ∀ l, (m.step7.lane l).loaded = true ∧ (m.step7.lane l).si = (m.lane l).setDemands.si ∧ (m.step7.lane l).time = (m.lane l).time := by
  have hmode : m.readyToProve.sys.mode = 4 := by rw [Mach.sys_readyToProve, h]
  have hne : m.readyToProve.sys.mode ≠ 10 := by rw [hmode]; decide
  have hentered := Mach.entered_setMode 5 0 hne
  have hsys := Mach.sys_setMode 5 0 hne
  have hseq := Mach.nextSeq_setMode 5 0 hne
  have hlane := fun l => Mach.lane_setMode 5 0 hne l
  rw [hmode] at hentered
  rw [Mach.nextSeq_readyToProve] at hseq
  rw [Mach.step7_eq]
  refine ⟨hentered, ?_, ?_, hseq, fun l => ⟨?_, ?_, ?_⟩⟩
  · rw [hsys]
    dsimp only
    rw [Sys.originAgreed_overtaken, Mach.sys_readyToProve]
  · rw [hsys]
    dsimp only
    rw [Sys.cluster_overtaken, Mach.sys_readyToProve]
  · exact (hlane l).loaded.trans (m.loaded_readyToProve l)
  · exact (hlane l).si.trans (m.si_readyToProve l)
  · exact (hlane l).time.trans (m.time_readyToProve l)

/-! ### ON_DIE_COMPARE_DONE -/

theorem laneSet_eq_zero_iff (p : LaneId → Bool) : laneSet p = 0 ↔ ∀ l, p l = false := by
  unfold laneSet
  constructor
  · intro h l
    cases l
    · cases hp : p .a <;> simp [hp, b2n] at h ⊢
    · cases hp : p .b <;> simp [hp, b2n] at h ⊢
    · cases hp : p .c <;> simp [hp, b2n] at h ⊢
  · intro h
    rw [h, h, h]
    rfl

/-- The lanes whose on-die copies differ from DRAM. -/
def Mach.copiesDiffer (m : Mach) : Nat := laneSet (fun l => !(m.lane l).onDieOk)

section
variable {m : Mach} (hmode : m.sys.mode = 4) (hstep : m.fld F.SYS_IMG_LOAD_STEP = 6) (h6 : m.sys.step6 = 1)
include hmode hstep h6

theorem Mach.onDieDone_compares : m.onDieDone = if m.copiesDiffer ≠ 0 then m.loadFault 13 m.copiesDiffer
    else if m.leadLane.img.federates then m.updSys (fun s => { s with step6 := 3 }) else m.endStep6 false := by
  unfold Mach.onDieDone
  exact if_neg (by rw [hmode, hstep, h6]; decide)

theorem Mach.onDieDone_differ (h : ∃ l, (m.lane l).onDieOk = false) : m.onDieDone = m.loadFault 13 m.copiesDiffer := by
  obtain ⟨l, hl⟩ := h
  rw [Mach.onDieDone_compares hmode hstep h6]
  refine if_pos fun hz => ?_
  have hok := (laneSet_eq_zero_iff _).1 hz l
  rw [hl] at hok
  exact absurd hok (by decide)

theorem Mach.onDieDone_alone (h : ∀ l, (m.lane l).onDieOk = true) (hp : m.paired = false)
    (hfed : m.leadLane.img.exportCount + m.leadLane.img.importCount = 0) :
    m.onDieDone = (m.withOrigin (median3 m.a.proposal m.b.proposal m.c.proposal)).step7 := by
  have hz : m.copiesDiffer = 0 := (laneSet_eq_zero_iff _).2 fun l => by rw [h l]; rfl
  have hf : m.leadLane.img.federates = false := by
    unfold Img.federates
    rw [hfed]
    rfl
  rw [Mach.onDieDone_compares hmode hstep h6, if_neg (not_not.2 hz), hf, if_neg Bool.false_ne_true]
  exact Mach.endStep6_alone (by rw [Mach.paired_withOrigin, hp])

end

/-! ### The statement -/

theorem completes_workingTablesBuilt {s : State} {u v w : W64} {n : Mach} {P : Mach → Prop} (hmode : s.m.sys.mode = 4)
    (he : s.m.tablesBuilt u v w = n) (h : P n) : Completes (.workingTablesBuilt u v w) s P :=
  completes_of_idle (fun m => m.tablesBuilt u v w) rfl (by rw [hmode]; rfl) (he ▸ h)

theorem completes_onDieCompareDone {s : State} {n : Mach} {P : Mach → Prop} (hmode : s.m.sys.mode = 4) (he : s.m.onDieDone = n) (h : P n) :
    Completes .onDieCompareDone s P :=
  completes_of_idle Mach.onDieDone rfl (by rw [hmode]; rfl) (he ▸ h)

/-- Equal seals: every lane's active image is the staged one, and its State Image the first of it. -/
theorem completes_tables_alike {s : State} (u : W64) (hmode : s.m.sys.mode = 4) (hstep : s.m.fld F.SYS_IMG_LOAD_STEP = 6)
    (h6 : s.m.sys.step6 = 0) : Completes (.workingTablesBuilt u u u) s (fun m => m.sys.mode = 4 ∧ m.sys.step6 = 1 ∧
      ∀ l, (s.m.lane l).Built (m.lane l) u) := by
  refine completes_workingTablesBuilt hmode (Mach.tablesBuilt_alike hmode hstep h6 u) ?_
  have hsys := (s.m.withTables u u u).sys_tablesAgreed
  rw [Mach.sys_withTables] at hsys
  exact ⟨by rw [hsys, hmode], by rw [hsys], s.m.built_tablesAgreed u⟩

/-- Three different seals are fault 9. -/
theorem completes_tables_different {s : State} {u v w : W64} (hmode : s.m.sys.mode = 4) (hstep : s.m.fld F.SYS_IMG_LOAD_STEP = 6)
    (h6 : s.m.sys.step6 = 0) (huv : u ≠ v) (hvw : v ≠ w) (huw : u ≠ w) :
    Completes (.workingTablesBuilt u v w) s (fun m => m.Entered 4 12 0 ∧ m.Reads F.SYS_IMG_LOAD_FAULT 9) := by
  refine completes_workingTablesBuilt hmode (Mach.tablesBuilt_different hmode hstep h6 huv hvw huw) ?_
  obtain ⟨hentered, hfault, -⟩ := Mach.loadFault_spec (m := s.m.withTables u v w) 9 7 (by rw [Mach.sys_withTables, hmode])
  exact ⟨hentered, hfault⟩

/-- Copies that differ from DRAM are fault 13. -/
theorem completes_copies_differ {s : State} (hmode : s.m.sys.mode = 4) (hstep : s.m.fld F.SYS_IMG_LOAD_STEP = 6) (h6 : s.m.sys.step6 = 1)
    (h : ∃ l, (s.m.lane l).onDieOk = false) :
    Completes .onDieCompareDone s (fun m => m.Entered 4 12 0 ∧ m.Reads F.SYS_IMG_LOAD_FAULT 13) := by
  refine completes_onDieCompareDone hmode (Mach.onDieDone_differ hmode hstep h6 h) ?_
  obtain ⟨hentered, hfault, -⟩ := Mach.loadFault_spec 13 s.m.copiesDiffer hmode
  exact ⟨hentered, hfault⟩

/-- A module without a partner and with no boundary object enters PROVING. -/
theorem completes_alone {s : State} (hmode : s.m.sys.mode = 4) (hstep : s.m.fld F.SYS_IMG_LOAD_STEP = 6) (h6 : s.m.sys.step6 = 1)
    (hok : ∀ l, (s.m.lane l).onDieOk = true) (hp : s.m.paired = false)
    (hfed : s.m.leadLane.img.exportCount + s.m.leadLane.img.importCount = 0) :
    Completes .onDieCompareDone s (fun m => m.Entered 4 5 0 ∧ m.sys.originAgreed = true ∧ m.sys.cluster = 0 ∧ m.nextSeq = 1 ∧
      ∀ l, (m.lane l).loaded = true ∧ (m.lane l).si = (s.m.lane l).setDemands.si ∧
        (m.lane l).time.origin = median3 s.m.a.proposal s.m.b.proposal s.m.c.proposal) := by
  refine completes_onDieCompareDone hmode (Mach.onDieDone_alone hmode hstep h6 hok hp hfed) ?_
  generalize median3 s.m.a.proposal s.m.b.proposal s.m.c.proposal = o
  obtain ⟨hentered, horigin, hcluster, hseq, hlanes⟩ := Mach.step7_spec (m := s.m.withOrigin o) (by rw [Mach.sys_withOrigin, hmode])
  rw [Mach.sys_withOrigin] at horigin hcluster
  refine ⟨hentered, horigin, hcluster, hseq, fun l => ?_⟩
  obtain ⟨hloaded, hsi, htime⟩ := hlanes l
  exact ⟨hloaded, hsi.trans (Lane.si_setDemands_congr (s.m.img_withOrigin o l) (s.m.si_withOrigin o l)), by rw [htime, Mach.lane_withOrigin]⟩

/-- Settles O15: each outcome of step 6 is one branch of the model, and what follows it writes registers alone. -/
theorem tablesThenProving : Obligations.TablesThenProving := by
  unfold Obligations.TablesThenProving
  intro s u v w hmode hstep
  refine ⟨fun h6 huv hvw => ?_, fun h6 => completes_tables_different hmode hstep h6, fun h6 => completes_copies_differ hmode hstep h6,
    fun h6 => completes_alone hmode hstep h6⟩
  subst huv hvw
  obtain ⟨m, he, hm, h1, hbuilt⟩ := completes_tables_alike u hmode hstep h6
  refine ⟨m, he, hm, h1, fun l => ?_⟩
  obtain ⟨hactive, hseal, hsi, hdram, hqueue⟩ := hbuilt l
  exact ⟨hactive, hseal, hsi, hdram, hqueue⟩

end Sys2Proof.Machine

/-! # A shadow outside the shadowed blocks at a cluster boundary (R242, R422) -/
namespace Sys2Proof.Machine

/-- A module at a cluster boundary whose lane A holds a shadow at the address of RTE.CLUSTER_LO, in a block that has none. -/
def State.strayShadow : State :=
  let m := { Mach.reset with sys := { Mach.reset.sys with originAgreed := true } }
  ⟨m.updLane .a (fun x => { x with shadow := [(F.RTE_CLUSTER_LO_CLUSTER_LO.addr, some 7)] }), []⟩

/-- The cluster that begins with a CLUSTER_BOUNDARY in `s`, and what lane A's RTE.CLUSTER_LO then reads. -/
def State.clusterShown (s : State) : Option (Nat × Nat) :=
  match exec .clusterBoundary s with
  | .next t => some (t.m.sys.cluster, (t.m.lane .a).regs.fld F.RTE_CLUSTER_LO_CLUSTER_LO)
  | _ => none

/-- An express pass with nothing to report, for the statement's own quantifier: a boundary takes none. -/
def PassInput.idle : PassInput := ⟨0, 0, ⟨0, 0, 0, 0, 0⟩, ⟨0, 0, 0, 0, 0⟩, ⟨0, 0, 0, 0, 0⟩, 0, 0, 0, [], 0, []⟩

theorem originAgreed_strayShadow : State.strayShadow.m.sys.originAgreed = true := by decide

/-- The copy of the shadows follows the count of the cluster and writes each shadow at its own address (`copyShadows`). -/
theorem clusterShown_strayShadow : State.strayShadow.clusterShown = some (1, 7) := by decide +kernel

theorem State.clusterShown_of_completes {s : State} {P : Mach → Prop} (h : Completes .clusterBoundary s P)
    (hr : ∀ m, P m → m.Reads F.RTE_CLUSTER_LO_CLUSTER_LO (m.sys.cluster % 2 ^ 32)) :
    ∃ c, s.clusterShown = some (c, c % 2 ^ 32) := by
  obtain ⟨m, he, hp⟩ := h
  unfold State.clusterShown
  rw [he]
  exact ⟨m.sys.cluster, congrArg (fun v => some (m.sys.cluster, v)) (hr m hp .a)⟩

/-- Refutes O17: cluster 1 begins, and lane A's RTE.CLUSTER_LO reads 7. The copy of the shadows writes every entry of a lane's shadow store,
whatever its address, after the number of the cluster is shown; the statement puts no bound on the shadow stores of its states. -/
theorem not_boundaryPassAndSweep : ¬ Obligations.BoundaryPassAndSweep := by
  unfold Obligations.BoundaryPassAndSweep
  intro h
  have hboundary := (h.1 State.strayShadow PassInput.idle).1 originAgreed_strayShadow
  have hshown := State.clusterShown_of_completes hboundary fun m hm => by
    obtain ⟨-, -, -, -, -, -, hreads, -⟩ := hm
    exact hreads
  obtain ⟨c, hc⟩ := hshown
  rw [clusterShown_strayShadow] at hc
  obtain ⟨rfl, h7⟩ := Prod.mk.inj (Option.some.inj hc)
  exact absurd h7 (by decide)

end Sys2Proof.Machine

/-! # Gather and Evaluate (R85, R87, R89) -/
namespace Sys2Proof.Machine

/-! ### What is sent (R356) -/

theorem Mach.mem_out_vectorIf {m n : Mach} {b : Blk} {o : Output} (h : o ∈ (m.vectorIf n b).out) :
    o ∈ n.out ∨ some o = (blkVector b).map Output.msix := by
  unfold Mach.vectorIf at h
  split at h
  next v hv =>
    rw [hv]
    split at h
    · unfold Mach.sendVector at h
      split at h
      · exact .inl h
      · obtain rfl | h := List.mem_cons.mp h
        · exact .inr rfl
        · exact .inl h
    · exact .inl h
  next => exact .inl h

/-- Vectors of the listed blocks are all that follows a change. -/
theorem Mach.sentOnly_vectored (m n : Mach) (bs : List Blk) : n.SentOnly (m.vectored bs n) bs := by
  have key : ∀ (cs : List Blk) (k : Mach), (∀ b ∈ cs, b ∈ bs) → n.SentOnly k bs → n.SentOnly (m.vectored cs k) bs := by
    intro cs
    induction cs with
    | nil => exact fun _ _ h => h
    | cons b cs ih =>
      intro k hmem hk
      refine ih (m.vectorIf k b) (fun c hc => hmem c (List.mem_cons_of_mem b hc)) fun o ho => ?_
      obtain ho | ho := Mach.mem_out_vectorIf ho
      · exact hk o ho
      · exact .inr (List.mem_filterMap.mpr ⟨b, hmem b List.mem_cons_self, ho.symm⟩)
  exact key bs n (fun _ hb => hb) fun _ ho => .inl ho

/-- A command that changes nothing. -/
theorem completes_unchanged {c : Instr} {s : State} (f : Mach → Mach) (hc : exec c s = s.run f) (h : f s.m = s.m) :
    Completes c s (fun m => m = s.m) := completes_of_run f hc (by rw [h]) h

/-! ### The dispatcher (R87) -/

/-- A lane in which only the dispatcher's order and contexts differ. -/
def Lane.Dispatched (x y : Lane) : Prop := ∃ order contexts, y = { x with rte := { x.rte with order := order, contexts := contexts } }

theorem Lane.Dispatched.refl (x : Lane) : x.Dispatched x := ⟨_, _, rfl⟩

theorem Lane.Dispatched.trans {x y z : Lane} (h : x.Dispatched y) (g : y.Dispatched z) : x.Dispatched z := by
  obtain ⟨_, _, rfl⟩ := h
  obtain ⟨o, c, rfl⟩ := g
  exact ⟨o, c, rfl⟩

theorem Lane.dispatched_startOn (x : Lane) (ctx atUs : Nat) : x.Dispatched (x.startOn ctx atUs) := ⟨_, _, rfl⟩

theorem Lane.dispatched_fillContexts (x : Lane) : x.Dispatched x.fillContexts := by
  have key : ∀ (ks : List Nat) (y : Lane), y.Dispatched (ks.foldl (fun y k => y.startOn k 250) y) := by
    intro ks
    induction ks with
    | nil => exact Lane.Dispatched.refl
    | cons k ks ih => exact fun y => (y.dispatched_startOn k 250).trans (ih _)
  exact key _ x

/-! ### GATHER (R85) -/

/-- What Gather leaves in a lane that runs the cycle, with the cut `cut`: the live inputs frozen, and the entries up to the cut its own. -/
structure Lane.Gathered (x y : Lane) (cut : Nat) : Prop where
  si : y.si = x.si
  live : y.live = x.live
  gathered : y.rte.gathered = true
  frozen : y.rte.frozen = x.live
  shown : y.regs.fld F.RTE_QUEUE_CUT_CUT = cut % 2 ^ 32
  taken : y.rte.cut = cut
  own : ∀ q ∈ x.rte.queue, q.gathered = false → upTo cut q.seq = true → { q with gathered := true } ∈ y.rte.queue

theorem Lane.cut_gather (x : Lane) (cut cluster : Nat) (takeover : Bool) :
    (x.gather cut cluster takeover).regs.fld F.RTE_QUEUE_CUT_CUT = cut % 2 ^ 32 := by
  unfold Lane.gather
  simp (disch := decide) only [Regs.fld_put_ne, Regs.fld_put_same]
  rfl

theorem Lane.mem_queue_gather (x : Lane) {cut : Nat} (cluster : Nat) (takeover : Bool) {q : Req} (hq : q ∈ x.rte.queue)
    (hnew : q.gathered = false) (hupTo : upTo cut q.seq = true) :
    { q with gathered := true } ∈ (x.gather cut cluster takeover).rte.queue := by
  unfold Lane.gather
  exact List.mem_map.mpr ⟨q, hq, by simp [hnew, hupTo]⟩

theorem Lane.gathered_gather (x : Lane) (cut cluster : Nat) (takeover : Bool) : x.Gathered (x.gather cut cluster takeover) cut where
  si := by unfold Lane.gather; rfl
  live := by unfold Lane.gather; rfl
  gathered := rfl
  frozen := rfl
  shown := x.cut_gather cut cluster takeover
  taken := rfl
  own := fun _ hq hnew hupTo => x.mem_queue_gather cluster takeover hq hnew hupTo

theorem Lane.Gathered.dispatched {x y z : Lane} {cut : Nat} (h : x.Gathered y cut) (g : y.Dispatched z) : x.Gathered z cut := by
  obtain ⟨_, _, rfl⟩ := g
  exact { si := h.si, live := h.live, gathered := h.gathered, frozen := h.frozen, taken := h.taken, shown := h.shown, own := h.own }

/-- Gather with the dispatcher's first filling, in one lane. -/
def Lane.gatherAndFill (x : Lane) (cut cluster : Nat) (takeover : Bool) : Lane := (x.gather cut cluster takeover).fillContexts

theorem Lane.gathered_gatherAndFill (x : Lane) (cut cluster : Nat) (takeover : Bool) :
    x.Gathered (x.gatherAndFill cut cluster takeover) cut :=
  (x.gathered_gather cut cluster takeover).dispatched (Lane.dispatched_fillContexts _)

/-- The cut of the participating lanes. -/
def Mach.commonCut (m : Mach) : Nat := lowestSeq (m.followers.map (fun l => (m.lane l).highest))

theorem Mach.gather_of_cycling {m : Mach} (hrun : m.cycling = true) (hbc : m.sys.bc = 0) :
    m.gather = m.mapFollow (fun x => x.gatherAndFill m.commonCut m.sys.cluster (decide (m.sys.mode = 9))) := by
  unfold Mach.gather
  rw [hrun, hbc]
  rfl

theorem Mach.gather_idle {m : Mach} (h : m.cycling = false ∨ m.sys.bc ≠ 0) : m.gather = m := by
  unfold Mach.gather
  rw [if_pos (by obtain h | h := h <;> simp [h])]

theorem completes_gather {s : State} (hrun : s.m.cycling = true) (hbc : s.m.sys.bc = 0) : Completes .gather s (fun m =>
    m.sys = s.m.sys ∧ m.ph = s.m.ph ∧ m.sc = s.m.sc ∧ m.out = s.m.out ∧
    ∀ l, (m.lane l).si = (s.m.lane l).si ∧ (m.lane l).live = (s.m.lane l).live ∧
      ((s.m.lane l).follows = true → (s.m.lane l).loaded = true → (s.m.lane l).Gathered (m.lane l) s.m.commonCut)) := by
  have hspec := fun x => Lane.gathered_gatherAndFill x s.m.commonCut s.m.sys.cluster (decide (s.m.sys.mode = 9))
  refine completes_of_run Mach.gather rfl ?_ ?_ <;> rw [Mach.gather_of_cycling hrun hbc]
  · rfl
  · refine ⟨rfl, rfl, rfl, rfl, fun l => ⟨Mach.mapFollow_keeps _ Lane.si fun x => (hspec x).si,
      Mach.mapFollow_keeps _ Lane.live fun x => (hspec x).live, fun hf hl => ?_⟩⟩
    rw [Mach.lane_mapFollow_of_follows _ hf hl]
    exact hspec _

/-! ### EVALUATION_DONE (R87) -/

/-- A context that finishes hands its work over and takes the next that fits. -/
theorem Lane.contextDone_spec {x : Lane} {ctx : Nat} {w : Work} (atUs : Nat) (h : Store.get noWork x.rte.contexts ctx = some w) :
    (x.contextDone ctx atUs).rte.done = x.rte.done ++ [w] ∧ (x.contextDone ctx atUs).si = x.si ∧
    (x.contextDone ctx atUs).role = x.role := by
  unfold Lane.contextDone
  rw [h]
  exact ⟨rfl, rfl, rfl⟩

theorem completes_evaluationDone {s : State} {l : LaneId} {ctx t : Nat} {w : Work} (ht : t ≤ 3250)
    (h : Store.get noWork (s.m.lane l).rte.contexts ctx = some w) : Completes (.evaluationDone l ctx t) s (fun m =>
      (m.lane l).rte.done = (s.m.lane l).rte.done ++ [w] ∧ s.m.OnlyLane m l ∧ m.sc = s.m.sc) := by
  obtain ⟨hdone, hsi, hrole⟩ := Lane.contextDone_spec t h
  refine completes_of_run (fun m => if t ≤ 3250 then m.updLane l (fun x => x.contextDone ctx t) else m) rfl ?_ ?_ <;> rw [if_pos ht]
  · rw [Mach.updLane_sys]
  · exact ⟨by rw [Mach.lane_updLane_self, hdone], .updLane hsi hrole, Mach.updLane_sc _ _ _⟩

theorem completes_evaluationDone_late {s : State} (l : LaneId) (ctx : Nat) {t : Nat} (ht : 3250 < t) :
    Completes (.evaluationDone l ctx t) s (fun m => m = s.m) :=
  completes_unchanged (fun m => if t ≤ 3250 then m.updLane l (fun x => x.contextDone ctx t) else m) rfl (if_neg (by omega))

/-! ### EVALUATE_END (R89) -/

/-- The supervisions handed over, among all the work that was. -/
theorem contains_supervisions (done : List Work) (r : Nat) :
    (done.filterMap (fun w => match w with | .sup r => some r | .req _ => none)).contains r = done.contains (Work.sup r) := by
  rw [Bool.eq_iff_iff, List.contains_iff_mem, List.contains_iff_mem, List.mem_filterMap]
  constructor
  · rintro ⟨w, hw, he⟩
    cases w with
    | sup k => rwa [← Option.some.inj he]
    | req k => exact absurd he (by simp)
  · exact fun h => ⟨_, h, rfl⟩

/-- At the end of Evaluate the contexts are empty, and the supervisions due and not handed over are deferred. -/
theorem Lane.endEvaluate_spec (x : Lane) : x.endEvaluate.si = x.si ∧ x.endEvaluate.rte.contexts = [] ∧ x.endEvaluate.rte.order = [] ∧
    x.endEvaluate.rte.deferred = x.rte.due.filter (fun r => !x.rte.done.contains (Work.sup r)) :=
  ⟨rfl, rfl, rfl, List.filter_congr fun r _ => congrArg Bool.not (contains_supervisions x.rte.done r)⟩

/-- EVALUATE_END in a lane that runs the cycle. -/
def Lane.evaluateEnd (x : Lane) : Lane := if x.rte.gathered then x.endEvaluate else x

theorem Lane.si_evaluateEnd (x : Lane) : x.evaluateEnd.si = x.si := by unfold Lane.evaluateEnd; split <;> rfl

theorem Mach.lane_evaluateEnd (m : Mach) (l : LaneId) : m.evaluateEnd.lane l = (m.mapFollow Lane.evaluateEnd).lane l := by
  unfold Mach.evaluateEnd
  rw [Mach.lane_vectored]
  rfl

theorem completes_evaluateEnd (s : State) : Completes .evaluateEnd s (fun m =>
    m.sys = s.m.sys ∧ m.ph = s.m.ph ∧ m.sc = s.m.sc ∧ s.m.SentOnly m [.rte] ∧
    ∀ k, m.lane k = (s.m.mapFollow Lane.evaluateEnd).lane k) := by
  have hvec := Mach.OnlyLane.vectored s.m (s.m.mapFollow Lane.evaluateEnd) [.rte] .a
  refine completes_of_run Mach.evaluateEnd rfl ?_ ⟨hvec.sys, hvec.ph, Mach.vectored_sc _ _ _, ?_, Mach.lane_evaluateEnd s.m⟩
  · exact hvec.mode
  · exact Mach.sentOnly_vectored s.m (s.m.mapFollow Lane.evaluateEnd) [.rte]

/-! ### The statement -/

/-- Settles O18: Gather, a context's end and the end of Evaluate each change the RTE of the lanes they reach, and registers that show it. -/
theorem gatherAndEvaluate : Obligations.GatherAndEvaluate := by
  unfold Obligations.GatherAndEvaluate
  refine ⟨fun s => ⟨fun hrun hbc => ?_, fun h => completes_unchanged Mach.gather rfl (Mach.gather_idle h)⟩,
    fun s l ctx t => ⟨fun w ht hw => ?_, completes_evaluationDone_late l ctx, ?_⟩⟩
  · obtain ⟨m, he, hsys, hph, hsc, hout, hlane⟩ := completes_gather hrun hbc
    refine ⟨m, he, hsys, hph, hsc, hout, fun l => ?_⟩
    obtain ⟨hsi, hlive, hgathered⟩ := hlane l
    refine ⟨hsi, hlive, fun hf hl => ?_⟩
    have hg := hgathered hf hl
    exact ⟨hg.gathered, hg.frozen, hg.taken, by rw [hg.taken]; exact hg.shown, by rw [hg.taken]; exact hg.own⟩
  · obtain ⟨m, he, hdone, honly, hsc⟩ := completes_evaluationDone ht hw
    exact ⟨m, he, hdone, honly.si, honly.lane_ne, honly.sys, honly.ph, hsc⟩
  · obtain ⟨m, he, hsys, hph, hsc, hsent, hlane⟩ := completes_evaluateEnd s
    refine ⟨m, he, hsys, hph, hsc, hsent, fun k => ?_⟩
    rw [hlane k]
    refine ⟨Mach.mapFollow_keeps _ Lane.si Lane.si_evaluateEnd, fun hf hl hg => ?_, fun hidle => ?_⟩
    · rw [Mach.lane_mapFollow_of_follows _ hf hl, Lane.evaluateEnd, if_pos hg]
      exact (Lane.endEvaluate_spec _).2
    · rw [Mach.lane_mapFollow]
      split
      next hrun => rw [Lane.evaluateEnd, if_neg (by simpa [hrun] using hidle)]
      next => rfl

end Sys2Proof.Machine

/-! # Emit (R81, R93) -/
namespace Sys2Proof.Machine

/-! ### What Emit and the build of commands leave of a lane -/

/-- What the build of the next basic cycle keeps of a lane: State Image, queue, outcomes, launch time, and whether it runs the cycle. -/
def Lane.cycleView (x : Lane) : SI × List Req × List Result × Nat × Role × Bool × Bool :=
  (x.si, x.rte.queue, x.rte.report, x.rte.shared, x.role, x.probation, x.loaded)

section
variable {x y : Lane} (h : y.cycleView = x.cycleView)
include h

theorem Lane.si_of_cycleView : y.si = x.si := congrArg (·.1) h
theorem Lane.queue_of_cycleView : y.rte.queue = x.rte.queue := congrArg (·.2.1) h
theorem Lane.report_of_cycleView : y.rte.report = x.rte.report := congrArg (·.2.2.1) h
theorem Lane.shared_of_cycleView : y.rte.shared = x.rte.shared := congrArg (·.2.2.2.1) h
theorem Lane.role_of_cycleView : y.role = x.role := congrArg (·.2.2.2.2.1) h
theorem Lane.loaded_of_cycleView : y.loaded = x.loaded := congrArg (·.2.2.2.2.2.2) h

theorem Lane.follows_of_cycleView : y.follows = x.follows := by
  have hprobation : y.probation = x.probation := congrArg (·.2.2.2.2.2.1) h
  unfold Lane.follows
  rw [Lane.role_of_cycleView h, hprobation]

end

/-- Registers, ZVL, launch states and what goes out are no part of it. -/
theorem Lane.cycleView_with (x : Lane) (r : Regs) (z : Zvl) (launch : Store (Option LaunchState)) (staged : List Payload) (dio : W64)
    (out : List (Nat × Nat × List Byte)) : Lane.cycleView
      { x with regs := r, zvl := z, rte := { x.rte with launch := launch }, staged := staged, dioNext := dio, fedOut := out } =
    x.cycleView := rfl

theorem Lane.cycleView_regs (x : Lane) (r : Regs) : Lane.cycleView { x with regs := r } = x.cycleView := rfl

theorem Lane.Keeps.cycleView {x y : Lane} {as : List Nat} (h : x.Keeps y as) : y.cycleView = x.cycleView := by
  rw [h.1]
  rfl

theorem Lane.cycleView_addEvent (x : Lane) (e : Event) : (x.addEvent e).cycleView = x.cycleView := (Lane.keeps_addEvent x e).cycleView

theorem Lane.cycleView_discrepancy (x : Lane) (time cause obj route : Nat) :
    (x.discrepancy time cause obj route).cycleView = x.cycleView := by
  unfold Lane.discrepancy
  rw [Lane.cycleView_addEvent]
  exact x.cycleView_with _ _ _ _ _ _

theorem Lane.cycleView_discrepancies (x : Lane) (time : Nat) (os : List Nat) (y : Lane) :
    (os.foldl (fun y o => y.discrepancy time 1 o (x.overrideRoute o)) y).cycleView = y.cycleView := by
  induction os generalizing y with
  | nil => rfl
  | cons o os ih => exact (ih _).trans (y.cycleView_discrepancy time 1 o _)

theorem Lane.cycleView_gateDone (x : Lane) (time : Nat) (last : Bool) (framed : List Nat) (kept : Nat → Bool) (sent : List (Nat × W32)) :
    (x.gateDone time last framed kept sent).cycleView = x.cycleView := by
  unfold Lane.gateDone
  dsimp only
  rw [Lane.cycleView_discrepancies]
  exact x.cycleView_with _ _ _ _ _ _

theorem Lane.cycleView_buildCommands (x : Lane) (restr : Bool) (ports : List Nat) (bc start time : Nat) :
    (x.buildCommands restr ports bc start time).cycleView = x.cycleView := by
  unfold Lane.buildCommands
  dsimp only
  rw [Lane.cycleView_gateDone]
  exact x.cycleView_with _ _ _ _ _ _

/-- The commands and the DIO word of the next basic cycle in one lane of `m`. -/
def Mach.buildIn (m : Mach) (x : Lane) : Lane :=
  let n := m.sys.cluster * 16 + m.sys.bc + 1
  let y := if m.sending then x.buildCommands m.allRestrictive m.commandPorts (n % 16) (m.leadLane.time.origin + n * 250000) m.nowNs
    else { x with staged := [], zvl := { x.zvl with open_ := [] } }
  { y with dioNext := if m.sending && m.driving then x.buildDio m.allRestrictive m.dio.switchFault else 0 }

/-- The messages of one lane for basic cycle `n`, counted from cluster 0. -/
def Mach.queueMessages (m : Mach) (n : Nat) (x : Lane) : Lane :=
  { x with fedOut := byDest (x.fedOut.filter (fun e => queuedType e.2.1) ++ m.messagesFor x (n / 16) (n % 16)) }

/-- The module with the commands of the next basic cycle built. -/
def Mach.built (m : Mach) : Mach := m.vectored [.zvl] (m.mapFollow m.buildIn)

theorem Mach.buildNext_eq (m : Mach) : m.buildNext = m.built.mapFollow (m.built.queueMessages (m.sys.cluster * 16 + m.sys.bc + 1)) := rfl

theorem Mach.cycleView_buildIn (m : Mach) (x : Lane) : (m.buildIn x).cycleView = x.cycleView := by
  unfold Mach.buildIn
  dsimp only
  split
  · exact (Lane.cycleView_with _ _ _ _ _ _ _).trans (x.cycleView_buildCommands _ _ _ _ _)
  · exact Lane.cycleView_with _ _ _ _ _ _ _

theorem Mach.cycleView_buildNext (m : Mach) (l : LaneId) : (m.buildNext.lane l).cycleView = (m.lane l).cycleView := by
  have hmessages : (m.buildNext.lane l).cycleView = (m.built.lane l).cycleView := by
    rw [Mach.buildNext_eq]
    exact Mach.mapFollow_keeps _ Lane.cycleView fun x => x.cycleView_with _ _ _ _ _ _
  rw [hmessages, Mach.built, Mach.lane_vectored]
  exact Mach.mapFollow_keeps _ Lane.cycleView m.cycleView_buildIn

theorem Mach.buildNext_sys (m : Mach) : m.buildNext.sys = m.sys := by
  rw [Mach.buildNext_eq]
  exact (Mach.OnlyLane.vectored m (m.mapFollow m.buildIn) [.zvl] .a).sys

theorem Mach.buildNext_sc (m : Mach) : m.buildNext.sc = m.sc := by
  rw [Mach.buildNext_eq]
  exact Mach.vectored_sc m (m.mapFollow m.buildIn) [.zvl]

/-! ### EMIT -/

/-- The module once every lane that runs the cycle has its launch time, and a unit of a pair shows what it holds. -/
def Mach.emitted (m : Mach) : Mach :=
  let n := m.mapFollow (fun x => x.emitCommands m.gating m.sys.cluster)
  if n.paired then { n.heldRegs with fed := { n.fed with emitted := true } } else n

theorem Mach.emitPhase_of_cycling {m : Mach} (hrun : m.cycling = true) (hbc : m.sys.bc = 14) :
    m.emitPhase = m.emitted.buildNext.reportResults := by
  unfold Mach.emitPhase
  rw [hrun, hbc]
  rfl

theorem Mach.emitPhase_idle {m : Mach} (h : m.cycling = false ∨ m.sys.bc ≠ 14) : m.emitPhase = m := by
  unfold Mach.emitPhase
  rw [if_pos (by obtain h | h := h <;> simp [h])]

/-- SDB's registers show what a lane holds back, and the federation notes the Emit. -/
theorem Mach.cycleView_held (m : Mach) (v w : Nat) (f : Fed) (l : LaneId) :
    (({ (m.putAll F.SDB_ACK_HELD v).putAll F.SDB_STATUS_GATING w with fed := f } : Mach).lane l).cycleView = (m.lane l).cycleView := by
  rw [Mach.lane_withFed, Mach.lane_putAll, Mach.lane_putAll, Lane.cycleView_regs, Lane.cycleView_regs]

theorem Mach.mapFollow_frame (m : Mach) (f : Lane → Lane) : (m.mapFollow f).sys = m.sys ∧ (m.mapFollow f).sc = m.sc := ⟨rfl, rfl⟩

theorem Mach.heldRegs_frame (m : Mach) : m.heldRegs.sys = m.sys ∧ m.heldRegs.sc = m.sc := by
  unfold Mach.heldRegs
  exact ⟨by rw [Mach.putAll_sys, Mach.putAll_sys], by rw [Mach.putAll_sc, Mach.putAll_sc]⟩

theorem Mach.emitted_frame (m : Mach) : m.emitted.sys = m.sys ∧ m.emitted.sc = m.sc := by
  unfold Mach.emitted
  dsimp only
  split
  · rw [(Mach.heldRegs_frame _).1, (Mach.heldRegs_frame _).2]
    exact m.mapFollow_frame _
  · exact m.mapFollow_frame _

theorem Mach.cycleView_emitted (m : Mach) (l : LaneId) : (m.emitted.lane l).cycleView =
    ((m.mapFollow (fun x => x.emitCommands m.gating m.sys.cluster)).lane l).cycleView := by
  unfold Mach.emitted
  dsimp only
  split
  · exact Mach.cycleView_held _ _ _ _ l
  · rfl

/-- The launch time that the commands of a cycle's Press share in a lane (R93). -/
def Lane.launchTime (x : Lane) (cluster : Nat) : Nat := x.time.origin + (cluster + 1) * 4000000 + x.regs.fld F.RTE_LAUNCH_LEAD_LEAD * 1000

/-- A lane with a launch time. -/
def Lane.withShared (x : Lane) (t : Nat) : Lane := { x with rte := { x.rte with shared := t } }

/-- Emit in one lane gives its launch time, and leaves the rest of what the build keeps. -/
theorem Lane.cycleView_emitCommands (x : Lane) (gating : Bool) (cluster : Nat) :
    (x.emitCommands gating cluster).cycleView = (x.withShared (x.launchTime cluster)).cycleView := by
  unfold Lane.emitCommands Lane.cycleView Lane.withShared Lane.launchTime Lane.release
  cases gating <;> rfl

/-- What Emit leaves in a lane before the outcomes go. -/
structure Lane.Emitted (x y : Lane) (cluster : Nat) : Prop where
  si : y.si = x.si
  queue : y.rte.queue = x.rte.queue
  report : y.rte.report = x.rte.report
  role : y.role = x.role
  follows : y.follows = x.follows
  loaded : y.loaded = x.loaded
  launch : x.follows = true → x.loaded = true → y.rte.shared = x.launchTime cluster

theorem Lane.emitted_of_cycleView {x y : Lane} {t cluster : Nat} (h : y.cycleView = (x.withShared t).cycleView)
    (ht : x.follows = true → x.loaded = true → t = x.launchTime cluster) : x.Emitted y cluster where
  si := (Lane.si_of_cycleView h :)
  queue := (Lane.queue_of_cycleView h :)
  report := (Lane.report_of_cycleView h :)
  role := (Lane.role_of_cycleView h :)
  follows := (Lane.follows_of_cycleView h :)
  loaded := (Lane.loaded_of_cycleView h :)
  launch := fun hf hl => (Lane.shared_of_cycleView h :).trans (ht hf hl)

theorem Mach.emitted_buildNext (m : Mach) (l : LaneId) : (m.lane l).Emitted (m.emitted.buildNext.lane l) m.sys.cluster := by
  have hview : (m.emitted.buildNext.lane l).cycleView =
      ((m.mapFollow (fun x => x.emitCommands m.gating m.sys.cluster)).lane l).cycleView := by
    rw [Mach.cycleView_buildNext, Mach.cycleView_emitted]
  rw [Mach.lane_mapFollow] at hview
  split at hview
  next => exact Lane.emitted_of_cycleView (hview.trans (Lane.cycleView_emitCommands _ _ _)) fun _ _ => rfl
  next hidle => exact Lane.emitted_of_cycleView (t := (m.lane l).rte.shared) hview fun hf hl => absurd (by rw [hf, hl]; rfl) hidle

/-! ### The outcomes (R81) -/

theorem Lane.cycleView_reportRecords (x : Lane) (time : Nat) : (x.reportRecords time).cycleView = x.cycleView := by
  have key : ∀ (rs : List Result) (y : Lane), (rs.foldl (fun y (r : Result) =>
      y.addEvent ⟨0x2001, time, r.mbx, r.word.toNat / 2 ^ 32, r.word.toNat % 2 ^ 32, r.seq, false, false⟩) y).cycleView = y.cycleView := by
    intro rs
    induction rs with
    | nil => exact fun _ => rfl
    | cons r rs ih => exact fun y => (ih _).trans (Lane.keeps_addEvent y _).cycleView
  exact key _ x

/-- A lane that has passed its outcomes on, each with its record. -/
def Lane.reported (time : Nat) (x : Lane) : Lane :=
  let y := x.reportRecords time
  { y with rte := { y.rte with report := [] } }

/-- The outcomes that the serving lanes hold. -/
def Mach.outcomes (m : Mach) : List (LaneId × Result) := m.serving.flatMap (fun l => (m.lane l).rte.report.map (fun r => (l, r)))

theorem Mach.lane_reportResults (m : Mach) (l : LaneId) : m.reportResults.lane l = (m.mapFollow (Lane.reported m.nowNs)).lane l :=
  Mach.lane_withSc _ _ l

theorem Mach.reportResults_frame (m : Mach) : m.reportResults.sys = m.sys ∧ m.reportResults.sc.reported = m.sc.reported ++ m.outcomes :=
  ⟨rfl, rfl⟩

theorem Lane.reported_spec (time : Nat) (x : Lane) : (x.reported time).si = x.si ∧ (x.reported time).rte.queue = x.rte.queue ∧
    (x.reported time).rte.shared = x.rte.shared ∧ (x.reported time).rte.report = [] := by
  have h : (x.reportRecords time).cycleView = x.cycleView := x.cycleView_reportRecords time
  unfold Lane.reported
  exact ⟨(Lane.si_of_cycleView h :), (Lane.queue_of_cycleView h :), (Lane.shared_of_cycleView h :), rfl⟩

theorem Mach.outcomes_congr {m n : Mach} (h : ∀ l, (n.lane l).role = (m.lane l).role ∧ (n.lane l).rte.report = (m.lane l).rte.report) :
    n.outcomes = m.outcomes := by
  have hserving : n.serving = m.serving := List.filter_congr fun l _ => by unfold Lane.isServing; rw [(h l).1]
  unfold Mach.outcomes
  rw [hserving]
  exact congrArg (fun f => m.serving.flatMap f) (funext fun l => by rw [(h l).2])

/-! ### The statement -/

theorem completes_emit {s : State} (hrun : s.m.cycling = true) (hbc : s.m.sys.bc = 14) : Completes .emit s (fun m =>
    m.sc.reported = s.m.sc.reported ++ s.m.outcomes ∧ m.sys = s.m.sys ∧
    ∀ l, ∃ x, (s.m.lane l).Emitted x s.m.sys.cluster ∧ ∃ time,
      m.lane l = if (s.m.lane l).follows && (s.m.lane l).loaded then x.reported time else x) := by
  have hem := Mach.emitted_buildNext s.m
  have hsys : s.m.emitted.buildNext.reportResults.sys = s.m.sys := by
    rw [(Mach.reportResults_frame _).1, Mach.buildNext_sys, s.m.emitted_frame.1]
  refine completes_of_run Mach.emitPhase rfl ?_ ?_ <;> rw [Mach.emitPhase_of_cycling hrun hbc]
  · rw [hsys]
  · refine ⟨?_, hsys, fun l => ⟨_, hem l, s.m.emitted.buildNext.nowNs, ?_⟩⟩
    · rw [(Mach.reportResults_frame _).2, Mach.buildNext_sc, s.m.emitted_frame.2,
        Mach.outcomes_congr fun l => ⟨(hem l).role, (hem l).report⟩]
    · rw [Mach.lane_reportResults, Mach.lane_mapFollow, (hem l).follows, (hem l).loaded]

/-- Settles O22: the build of the commands leaves the outcomes and the launch time, and reporting moves the outcomes. -/
theorem emitReports : Obligations.EmitReports := by
  unfold Obligations.EmitReports
  refine fun s => ⟨fun hrun hbc => ?_, fun h => completes_unchanged Mach.emitPhase rfl (Mach.emitPhase_idle h)⟩
  obtain ⟨m, he, hreported, hsys, hlane⟩ := completes_emit hrun hbc
  refine ⟨m, he, hreported, hsys, fun l => ?_⟩
  obtain ⟨x, hx, time, hl⟩ := hlane l
  obtain ⟨hsi, hqueue, hshared, hreport⟩ := Lane.reported_spec time x
  rw [hl]
  split
  next => exact ⟨hsi.trans hx.si, hqueue.trans hx.queue, fun hf hld => ⟨hreport, hshared.trans (hx.launch hf hld)⟩⟩
  next hidle => exact ⟨hx.si, hx.queue, fun hf hld => absurd (by rw [hf, hld]; rfl) hidle⟩

end Sys2Proof.Machine

/-! # Reads of the host, results, and accesses that fail (R73, R81, R349 to R353, R357) -/
namespace Sys2Proof.Machine

/-! ### Changes of the Service Controller and of what is sent -/

/-- Beside the Service Controller, the MSI-X structures, the clocks and what was sent, all of the module is as before. -/
def Mach.CtlOnly (m n : Mach) : Prop :=
  (∀ l, n.lane l = m.lane l) ∧ n.sys = m.sys ∧ n.ph = m.ph ∧ n.fed = m.fed ∧ n.dio = m.dio ∧ n.nextSeq = m.nextSeq

namespace Mach.CtlOnly

variable {m n o : Mach}

theorem refl (m : Mach) : m.CtlOnly m := ⟨fun _ => rfl, rfl, rfl, rfl, rfl, rfl⟩

theorem trans (h : m.CtlOnly n) (g : n.CtlOnly o) : m.CtlOnly o := by
  obtain ⟨hl, hs, hp, hf, hd, hq⟩ := h
  obtain ⟨gl, gs, gp, gf, gd, gq⟩ := g
  exact ⟨fun l => (gl l).trans (hl l), gs.trans hs, gp.trans hp, gf.trans hf, gd.trans hd, gq.trans hq⟩

theorem sys (h : m.CtlOnly n) : n.sys = m.sys := h.2.1

theorem mode (h : m.CtlOnly n) : n.sys.mode = m.sys.mode := by rw [h.sys]

theorem withSc (h : m.CtlOnly n) (c : Sc) : m.CtlOnly { n with sc := c } :=
  h.trans ⟨Mach.lane_withSc n c, rfl, rfl, rfl, rfl, rfl⟩

theorem putSc (h : m.CtlOnly n) (f : Field) (v : Nat) : m.CtlOnly (n.putSc f v) := h.withSc _

theorem incSc (h : m.CtlOnly n) (f : Field) : m.CtlOnly (n.incSc f) := h.withSc _

theorem emit (h : m.CtlOnly n) (o : Output) : m.CtlOnly (n.emit o) := h.trans ⟨Mach.lane_emit n o, rfl, rfl, rfl, rfl, rfl⟩

theorem raiseSc (h : m.CtlOnly n) (b : Blk) (i : Nat) : m.CtlOnly (n.raiseSc b i) :=
  h.trans ⟨Mach.lane_raiseSc n b i, Mach.raiseSc_sys n b i, Mach.raiseSc_ph n b i, Mach.raiseSc_fed n b i, Mach.raiseSc_dio n b i,
    Mach.raiseSc_nextSeq n b i⟩

theorem sendVector (h : m.CtlOnly n) (v : Nat) : m.CtlOnly (n.sendVector v) :=
  h.trans ⟨Mach.lane_sendVector n v, Mach.sendVector_sys n v, Mach.sendVector_ph n v, Mach.sendVector_fed n v, Mach.sendVector_dio n v,
    Mach.sendVector_nextSeq n v⟩

end Mach.CtlOnly

@[simp] theorem Mach.incSc_sc (m : Mach) (f : Field) : (m.incSc f).sc = { m.sc with regs := m.sc.regs.inc f } := rfl

/-! ### Result queues (R73, R81) -/

theorem Mach.putSc_eq_withCtl (m : Mach) (f : Field) (v : Nat) : m.putSc f v = m.withCtl (m.sc.regs.put f v) := rfl

theorem Mach.withCtl_withCtl (m : Mach) (r q : Regs) : (m.withCtl r).withCtl q = m.withCtl q := rfl

theorem Mach.scRegs_withCtl (m : Mach) (r : Regs) : (m.withCtl r).sc.regs = r := rfl

theorem Regs.count_putCount (r : Regs) (mb n : Nat) :
    (r.put (F.MBX_RESULT_COUNTn_COUNT mb) n).fld (F.MBX_RESULT_COUNTn_COUNT mb) = n % 2 ^ 11 :=
  Regs.fld_put_same r _ n (show 10 < 32 by omega) (show 0 ≤ 10 by omega)

theorem Regs.count_putOverflow (r : Regs) (mb v : Nat) :
    (r.put (F.MBX_RESULT_COUNTn_OVERFLOW mb) v).fld (F.MBX_RESULT_COUNTn_COUNT mb) = r.fld (F.MBX_RESULT_COUNTn_COUNT mb) :=
  Regs.fld_put_beside r v rfl (show 31 < 32 by omega) (show 31 ≤ 31 by omega) (show 0 ≤ 10 by omega) (.inr (show 10 < 31 by omega))

/-- A mailbox's registers show its queue; nothing else of the Service Controller changes. -/
theorem Mach.resultRegs_spec (m : Mach) (mb : Nat) : ∃ r : Regs, m.resultRegs mb = m.withCtl r ∧
    r.fld (F.MBX_RESULT_COUNTn_COUNT mb) = (Store.get noResult m.sc.results mb).length % 2 ^ 11 := by
  unfold Mach.resultRegs
  simp -implicitDefEqProofs only [Mach.putSc_eq_withCtl, Mach.withCtl_withCtl, Mach.scRegs_withCtl]
  split
  · exact ⟨_, rfl, by rw [Regs.count_putOverflow, Regs.count_putCount]⟩
  · exact ⟨_, rfl, Regs.count_putCount _ _ _⟩

/-- The module with one mailbox's result queue changed. -/
def Mach.withResults (m : Mach) (mb : Nat) (q : List W64) : Mach :=
  { m with sc := { m.sc with results := Store.set noResult m.sc.results mb q } }

theorem Mach.CtlOnly.resultRegs (m : Mach) (mb : Nat) (q : List W64) : m.CtlOnly ((m.withResults mb q).resultRegs mb) := by
  obtain ⟨r, h, -⟩ := (m.withResults mb q).resultRegs_spec mb
  rw [h]
  exact ((Mach.CtlOnly.refl m).withSc _).withSc _

/-- A result read returns the oldest result and removes it. -/
theorem Mach.resultRead_spec {m : Mach} {mb : Nat} {w : W64} {t : List W64} (h : Store.get noResult m.sc.results mb = w :: t) :
    m.CtlOnly (m.resultRead mb) ∧ (m.resultRead mb).out = .completion (w.toNat % 2 ^ 32) :: m.out ∧
    Store.get noResult (m.resultRead mb).sc.results mb = t ∧
    (m.resultRead mb).sc.regs.fld (F.MBX_RESULT_COUNTn_COUNT mb) = t.length % 2 ^ 11 ∧
    ∀ k, k ≠ mb → Store.get noResult (m.resultRead mb).sc.results k = Store.get noResult m.sc.results k := by
  have he : m.resultRead mb = ((m.withResults mb t).resultRegs mb).emit (.completion (w.toNat % 2 ^ 32)) := by
    unfold Mach.resultRead
    rw [h]
    rfl
  obtain ⟨r, hr, hcount⟩ := (m.withResults mb t).resultRegs_spec mb
  have honly := (Mach.CtlOnly.resultRegs m mb t).emit (.completion (w.toNat % 2 ^ 32))
  rw [he]
  refine ⟨honly, ?_⟩
  rw [hr]
  refine ⟨rfl, Store.get_set_self _ _ _ _, ?_, fun k hk => Store.get_set_ne _ _ _ hk⟩
  exact hcount.trans (by rw [show Store.get noResult (m.withResults mb t).sc.results mb = t from Store.get_set_self _ _ _ _])

/-- A result enters a queue that has room. -/
theorem Mach.placeResult_spec (m : Mach) {mb : Nat} (w : W64) (h : (Store.get noResult m.sc.results mb).length < 1024) :
    m.CtlOnly (m.placeResult mb w) ∧
    Store.get noResult (m.placeResult mb w).sc.results mb = Store.get noResult m.sc.results mb ++ [w] ∧
    (m.placeResult mb w).sc.reported = m.sc.reported := by
  have he : m.placeResult mb w = if (Store.get noResult m.sc.results mb).isEmpty
      then ((m.withResults mb (Store.get noResult m.sc.results mb ++ [w])).resultRegs mb).sendVector (mb + 1)
      else (m.withResults mb (Store.get noResult m.sc.results mb ++ [w])).resultRegs mb := by
    unfold Mach.placeResult
    rw [if_neg (by omega)]
    rfl
  have honly := Mach.CtlOnly.resultRegs m mb (Store.get noResult m.sc.results mb ++ [w])
  obtain ⟨r, hr, -⟩ := (m.withResults mb (Store.get noResult m.sc.results mb ++ [w])).resultRegs_spec mb
  rw [he]
  split
  · exact ⟨honly.sendVector _, by rw [Mach.sendVector_sc, hr]; exact Store.get_set_self _ _ _ _, by rw [Mach.sendVector_sc, hr]; rfl⟩
  · exact ⟨honly, by rw [hr]; exact Store.get_set_self _ _ _ _, by rw [hr]; rfl⟩

theorem Mach.resultPlaced_none {m : Mach} (h : twiceReported m.sc.reported = none) : m.resultPlaced = m := by
  unfold Mach.resultPlaced
  rw [h]

/-- The module with the reports of a result spent. -/
def Mach.spent (m : Mach) (r : Result) : Mach :=
  { m with sc := { m.sc with reported := m.sc.reported.filter (fun e => decide (e.2 ≠ r)) } }

theorem Mach.resultPlaced_some {m : Mach} {r : Result} (h : twiceReported m.sc.reported = some r) :
    m.resultPlaced = (m.spent r).placeResult r.mbx r.word := by
  unfold Mach.resultPlaced
  rw [h]
  rfl

/-! ### Accesses that fail (R349, R352, R353, R357) -/

theorem Mach.failedRead_eq (m : Mach) (len : Nat) (bar2 : Bool) (offset cause : Nat) : m.failedAccess (some len) bar2 offset cause =
    (((((m.incSc F.HBR_RD_ERR_COUNT).putSc F.HBR_RD_ERR_CAUSE cause).putSc F.HBR_RD_ERR_BAR2 (b2n bar2)).putSc
      F.HBR_RD_ERR_ADDR_OFFSET offset).raiseSc .hbr I.HBR_RD_ERR).emit (.readData (List.replicate len 0xFF)) := rfl

theorem Mach.failedWrite_eq (m : Mach) (bar2 : Bool) (offset cause : Nat) : m.failedAccess none bar2 offset cause =
    ((((m.incSc F.HBR_WR_ERR_COUNT).putSc F.HBR_WR_ERR_CAUSE cause).putSc F.HBR_WR_ERR_BAR2 (b2n bar2)).putSc
      F.HBR_WR_ERR_ADDR_OFFSET offset).raiseSc .hbr I.HBR_WR_ERR := rfl

/-- A read that fails: its cause and offset are shown, and 0xFF returned in every byte. -/
structure Mach.FailedRead (m n : Mach) (len offset cause : Nat) : Prop where
  ctlOnly : m.CtlOnly n
  cause : n.sc.regs.fld F.HBR_RD_ERR_CAUSE = cause
  offset : n.sc.regs.fld F.HBR_RD_ERR_ADDR_OFFSET = offset
  results : n.sc.results = m.sc.results
  data : .readData (List.replicate len 0xFF) ∈ n.out

theorem Mach.failedRead_failedAccess (m : Mach) (len : Nat) (bar2 : Bool) {offset cause : Nat} (ho : offset < 2 ^ 32) (hc : cause < 16) :
    m.FailedRead (m.failedAccess (some len) bar2 offset cause) len offset cause := by
  rw [Mach.failedRead_eq]
  refine ⟨((((((Mach.CtlOnly.refl m).incSc _).putSc _ _).putSc _ _).putSc _ _).raiseSc _ _).emit _, ?_, ?_, ?_, ?_⟩
  · simp -implicitDefEqProofs (disch := decide) [Regs.fld_setBit_ne, Regs.fld_put_ne, Regs.fld_put_beside, Regs.fld_put_same]
    exact Nat.mod_eq_of_lt hc
  · simp -implicitDefEqProofs (disch := decide) [Regs.fld_setBit_ne, Regs.fld_put_same]
    exact Nat.mod_eq_of_lt ho
  · simp -implicitDefEqProofs
  · rw [Mach.emit_out]
    exact List.mem_cons_self

/-- A posted write that fails: its cause and offset are shown. -/
structure Mach.FailedWrite (m n : Mach) (offset cause : Nat) : Prop where
  ctlOnly : m.CtlOnly n
  cause : n.sc.regs.fld F.HBR_WR_ERR_CAUSE = cause
  offset : n.sc.regs.fld F.HBR_WR_ERR_ADDR_OFFSET = offset
  results : n.sc.results = m.sc.results

theorem Mach.failedWrite_failedAccess (m : Mach) (bar2 : Bool) {offset cause : Nat} (ho : offset < 2 ^ 32) (hc : cause < 16) :
    m.FailedWrite (m.failedAccess none bar2 offset cause) offset cause := by
  rw [Mach.failedWrite_eq]
  refine ⟨(((((Mach.CtlOnly.refl m).incSc _).putSc _ _).putSc _ _).putSc _ _).raiseSc _ _, ?_, ?_, ?_⟩
  · simp -implicitDefEqProofs (disch := decide) [Regs.fld_setBit_ne, Regs.fld_put_ne, Regs.fld_put_beside, Regs.fld_put_same]
    exact Nat.mod_eq_of_lt hc
  · simp -implicitDefEqProofs (disch := decide) [Regs.fld_setBit_ne, Regs.fld_put_same]
    exact Nat.mod_eq_of_lt ho
  · simp -implicitDefEqProofs

/-- A read of results longer than one register is refused. -/
theorem Mach.prefetchRefused_spec (m : Mach) {offset : Nat} (len : Nat) (ho : offset < 2 ^ 16) :
    m.CtlOnly (m.prefetchRefused offset len) ∧ (m.prefetchRefused offset len).sc.results = m.sc.results ∧
    (m.prefetchRefused offset len).sc.regs.fld F.HBR_PREFETCH_REFUSED_OFFSET = offset ∧
    .readData (List.replicate len 0xFF) ∈ (m.prefetchRefused offset len).out := by
  unfold Mach.prefetchRefused
  refine ⟨((((Mach.CtlOnly.refl m).incSc _).putSc _ _).raiseSc _ _).emit _, ?_, ?_, ?_⟩
  · simp -implicitDefEqProofs
  · simp -implicitDefEqProofs (disch := decide) [Regs.fld_setBit_ne, Regs.fld_put_same]
    exact Nat.mod_eq_of_lt ho
  · rw [Mach.emit_out]
    exact List.mem_cons_self

theorem Mach.errAt_hbr (m : Mach) (a : Nat) : m.errAt .hbr a =
    { m with sc := { m.sc with regs := (m.sc.regs.incReg (blkBase .hbr + 0x20)).set (blkBase .hbr + 0x24) (BitVec.ofNat 32 a) } } := rfl

/-- An Unsupported Request keeps the offset in ERR_ADDR. -/
theorem Mach.unsupported_spec (m : Mach) (o : W32) : m.CtlOnly (m.unsupported o.toNat) ∧
    (m.unsupported o.toNat).out = .unsupported :: m.out ∧ (m.unsupported o.toNat).sc.regs.get (blkBase .hbr + 0x24) = o := by
  unfold Mach.unsupported Mach.hbrIgnored
  rw [Mach.errAt_hbr]
  refine ⟨((Mach.CtlOnly.refl m).withSc _).emit _, rfl, ?_⟩
  rw [Mach.emit_sc, Regs.get_set_self, BitVec.ofNat_toNat, BitVec.setWidth_eq]

/-! ### The host link (R357) -/

theorem Mach.linkTrained_frame (m : Mach) : m.linkTrained.ph = m.ph ∧ m.linkTrained.fed = m.fed ∧ m.linkTrained.dio = m.dio ∧
    m.linkTrained.nextSeq = m.nextSeq ∧ m.linkTrained.sc.results = m.sc.results ∧
    m.linkTrained.sc.regs.fld F.HBR_LINK_DOWN_COUNT = m.sc.regs.fld F.HBR_LINK_DOWN_COUNT := by
  have hfree : m.retrained.ph = m.ph ∧ m.retrained.fed = m.fed ∧ m.retrained.dio = m.dio ∧ m.retrained.nextSeq = m.nextSeq :=
    ⟨rfl, rfl, rfl, rfl⟩
  obtain ⟨hph, hfed, hdio, hseq⟩ := hfree
  obtain ⟨w, v, h⟩ := m.linkTrained_eq
  rw [h]
  refine ⟨by simp [hph], by simp [hfed], by simp [hdio], by simp [hseq], by simp -implicitDefEqProofs, ?_⟩
  simp -implicitDefEqProofs (disch := decide) [Regs.fld_put_ne, Regs.fld_put_beside]

/-- The module once the host link has failed: the failure is counted and shown. -/
def Mach.linkDropped (m : Mach) : Mach := (m.incSc F.HBR_LINK_DOWN_COUNT).raiseSc .hbr I.HBR_LINK

theorem Mach.linkDropped_spec (m : Mach) : m.CtlOnly m.linkDropped ∧ m.linkDropped.sc.results = m.sc.results ∧
    m.linkDropped.sc.regs.fld F.HBR_LINK_DOWN_COUNT = min (m.sc.regs.fld F.HBR_LINK_DOWN_COUNT + 1) 255 := by
  unfold Mach.linkDropped
  refine ⟨((Mach.CtlOnly.refl m).incSc _).raiseSc _ _, by simp -implicitDefEqProofs, ?_⟩
  simp -implicitDefEqProofs (disch := decide) [Regs.fld_setBit_ne, Regs.inc, Regs.fld_put_same, satAt]
  exact Nat.mod_eq_of_lt (Nat.lt_of_le_of_lt (Nat.min_le_right _ 255) (by omega : 255 < 256))

theorem Mach.hostLinkDown_eq (m : Mach) : m.hostLinkDown = if m.sc.perst.isSome then m else m.linkDropped.linkTrained := rfl

/-! ### Reads that meet nothing (R344, R345, R352) -/

/-- The causes that a read can meet. -/
theorem Mach.bar0Fails_lt {m : Mach} {off len c : Nat} (h : m.bar0Fails off len = some c) : c < 16 := by
  unfold Mach.bar0Fails at h
  grind

theorem Mach.bar2Fails_lt {m : Mach} {n off len c : Nat} (h : m.bar2Fails n off len = some c) : c < 16 := by
  unfold Mach.bar2Fails at h
  grind

theorem Mach.readFails_lt {m : Mach} {bar2 : Bool} {off len c : Nat} (h : m.readFails bar2 off len = some c) : c < 16 := by
  unfold Mach.readFails at h
  split at h
  · exact Mach.bar2Fails_lt h
  · exact Mach.bar0Fails_lt h

section
variable {m : Mach} {bar2 : Bool} {off len cause : Nat} (guard : Bool)

theorem Mach.hostRead_of_fails {c : Nat} (h : m.readFails bar2 off len = some c) :
    m.hostRead bar2 off len cause guard = m.failedAccess (some len) bar2 off c := by
  unfold Mach.hostRead
  rw [h]

theorem Mach.hostRead_of_cause (h : m.readFails bar2 off len = none) (hc : cause = 1 ∨ cause = 2) :
    m.hostRead bar2 off len cause guard = m.failedAccess (some len) bar2 off cause := by
  unfold Mach.hostRead
  rw [h]
  exact if_pos hc

variable (h : m.readFails bar2 off len = none) (h1 : cause ≠ 1) (h2 : cause ≠ 2) (hside : (bar2 || !sideRead off len) = true)
include h h1 h2 hside

/-- A read that meets nothing, of the register that names a mailbox's oldest result. -/
theorem Mach.hostRead_of_result {n : Nat} (hres : resultMailbox bar2 off len = some n) :
    m.hostRead bar2 off len cause guard = m.resultRead n := by
  unfold Mach.hostRead
  rw [h]
  dsimp only
  rw [if_neg (by simp [h1, h2]), if_neg (by revert hside; cases bar2 <;> simp), hres]

/-- A read that meets nothing and has no side effect. -/
theorem Mach.hostRead_of_plain (hres : resultMailbox bar2 off len = none) :
    m.hostRead bar2 off len cause guard = m.emit (.readData (m.readBytes bar2 off len guard)) := by
  unfold Mach.hostRead
  rw [h]
  dsimp only
  rw [if_neg (by simp [h1, h2]), if_neg (by revert hside; cases bar2 <;> simp), hres]

end

/-- An aligned word of a block's page: its bytes, the lowest first. -/
theorem Mach.readBytes_word (m : Mach) {off : Nat} {b : Blk} (guard : Bool) (ha : off % 4 = 0) (hb : bar0Page off = some b) :
    m.readBytes false off 4 guard = (List.range 4).map (wordByte (m.hostReg b .a (off % 0x1000) guard)) := by
  refine List.map_congr_left fun k hk => ?_
  have hk : k < 4 := List.mem_range.mp hk
  have hword : (off + k) / 4 * 4 = off := by omega
  have hbyte : (off + k) % 4 = k := by omega
  rw [hword, hbyte]
  unfold Mach.bar0Word
  rw [hb]

/-! ### The statement -/

theorem completes_resultLoRead {s : State} {mb : Fin 8} {w : W64} {t : List W64} (h : Store.get noResult s.m.sc.results mb.val = w :: t) :
    Completes (.resultLoRead mb) s (fun m => s.m.CtlOnly m ∧ m.out = .completion (w.toNat % 2 ^ 32) :: s.m.out ∧
      Store.get noResult m.sc.results mb.val = t ∧ m.sc.regs.fld (F.MBX_RESULT_COUNTn_COUNT mb.val) = t.length % 2 ^ 11 ∧
      ∀ k, k ≠ mb.val → Store.get noResult m.sc.results k = Store.get noResult s.m.sc.results k) :=
  completes_of_run (·.resultRead mb.val) rfl (Mach.resultRead_spec h).1.mode (Mach.resultRead_spec h)

theorem completes_resultPlaced {s : State} {r : Result} (h : twiceReported s.m.sc.reported = some r)
    (hroom : (Store.get noResult s.m.sc.results r.mbx).length < 1024) : Completes .resultPlaced s (fun m => s.m.CtlOnly m ∧
      Store.get noResult m.sc.results r.mbx = Store.get noResult s.m.sc.results r.mbx ++ [r.word] ∧
      m.sc.reported = s.m.sc.reported.filter (fun e => decide (e.2 ≠ r))) := by
  obtain ⟨honly, hqueue, hreported⟩ := (s.m.spent r).placeResult_spec r.word hroom
  have hspent : s.m.CtlOnly ((s.m.spent r).placeResult r.mbx r.word) := ((Mach.CtlOnly.refl s.m).withSc _).trans honly
  refine completes_of_run Mach.resultPlaced rfl ?_ ?_ <;> rw [Mach.resultPlaced_some h]
  · exact hspent.mode
  · exact ⟨hspent, hqueue, hreported⟩

theorem completes_prefetchRefused {s : State} {o : W16} {n : Nat} (h : sideRead o.toNat n = true) :
    Completes (.prefetchRefused o n) s (fun m => s.m.CtlOnly m ∧ m.sc.results = s.m.sc.results ∧
      m.sc.regs.fld F.HBR_PREFETCH_REFUSED_OFFSET = o.toNat ∧ .readData (List.replicate n 0xFF) ∈ m.out) := by
  have hs := s.m.prefetchRefused_spec n o.isLt
  refine completes_of_run (fun m => if sideRead o.toNat n then m.prefetchRefused o.toNat n else m) rfl ?_ ?_ <;> rw [if_pos h]
  · exact hs.1.mode
  · exact hs

/-- What a host read does is one step of `Mach.hostRead`. -/
theorem completes_read {s : State} {len : BitVec 13} {g bar2 : Bool} {o : BitVec 28} {k : BitVec 4} {n : Mach} {P : Mach → Prop}
    (he : s.m.hostRead bar2 o.toNat len.toNat k.toNat g = n) (hmode : n.sys.mode = s.m.sys.mode) (h : P n) :
    Completes (.failedAccess (.read len g) bar2 o k) s P := by
  subst he
  exact completes_of_run (fun m => m.hostRead bar2 o.toNat len.toNat k.toNat g) rfl hmode h

theorem completes_failedRead {s : State} {len : BitVec 13} {g bar2 : Bool} {o : BitVec 28} {k : BitVec 4} {c : Nat} (hc : c < 16)
    (he : s.m.hostRead bar2 o.toNat len.toNat k.toNat g = s.m.failedAccess (some len.toNat) bar2 o.toNat c) :
    Completes (.failedAccess (.read len g) bar2 o k) s (s.m.FailedRead · len.toNat o.toNat c) := by
  have hf := s.m.failedRead_failedAccess len.toNat bar2 (offset := o.toNat) (by omega) hc
  exact completes_read he hf.ctlOnly.mode hf

theorem completes_failedWrite {s : State} {bar2 : Bool} {o : BitVec 28} {k : BitVec 4} (hk : k ≠ 0) :
    Completes (.failedAccess .posted bar2 o k) s (s.m.FailedWrite · o.toNat k.toNat) := by
  have hf := s.m.failedWrite_failedAccess bar2 (offset := o.toNat) (cause := k.toNat) (by omega) (by omega)
  refine completes_of_run (fun m => if k = 0 then m else m.failedAccess none bar2 o.toNat k.toNat) rfl ?_ ?_ <;> rw [if_neg hk]
  · exact hf.ctlOnly.mode
  · exact hf

theorem completes_pcieLinkDown {s : State} (h : s.m.sc.perst = none) : Completes .pcieLinkDown s (fun m =>
    (∀ l, m.lane l = s.m.lane l) ∧ m.sys = { s.m.sys with free := m.sys.free } ∧
    m.ph = s.m.ph ∧ m.fed = s.m.fed ∧ m.dio = s.m.dio ∧ m.nextSeq = s.m.nextSeq ∧ m.sc.results = s.m.sc.results ∧
    m.sc.linkUp = true ∧ m.sc.regs.fld F.HBR_STATUS_LINK_UP = 1 ∧
    m.sc.regs.fld F.HBR_LINK_DOWN_COUNT = min (s.m.sc.regs.fld F.HBR_LINK_DOWN_COUNT + 1) 255) := by
  obtain ⟨⟨hlane, hsys, hph, hfed, hdio, hseq⟩, hresults, hcount⟩ := s.m.linkDropped_spec
  obtain ⟨tph, tfed, tdio, tseq, tresults, tcount⟩ := s.m.linkDropped.linkTrained_frame
  obtain ⟨hup, -, hshown, tlane, tsys⟩ := s.m.linkDropped.linkTrained_spec
  rw [hsys] at tsys
  refine completes_of_run Mach.hostLinkDown rfl ?_ ?_ <;> rw [Mach.hostLinkDown_eq, h, Option.isSome_none, if_neg Bool.false_ne_true]
  · rw [tsys]
  · exact ⟨fun l => (tlane l).trans (hlane l), tsys, tph.trans hph, tfed.trans hfed, tdio.trans hdio, tseq.trans hseq,
      tresults.trans hresults, hup, hshown, tcount.trans hcount⟩

/-- Settles O33: each row changes the Service Controller and what was sent alone, and a link that trains again takes free values. -/
theorem hostReadsAndErrors : Obligations.HostReadsAndErrors := by
  unfold Obligations.HostReadsAndErrors
  intro s alone
  refine ⟨fun k => ?_, fun mb w t h => completes_resultLoRead h, fun r hr hroom => completes_resultPlaced hr hroom,
    fun hr => completes_unchanged Mach.resultPlaced rfl (Mach.resultPlaced_none hr), fun o n => ⟨fun h => completes_prefetchRefused h,
      fun h => ?_⟩, fun bar2 o k len g => ?_, fun o => ?_, fun h => ?_, fun h => completes_pcieLinkDown h⟩
  · exact completes_of_run (fun m => m.emit (.completion (Store.get noDone m.sc.done (slotIx k)).toNat)) rfl rfl
      ⟨(Mach.CtlOnly.refl s.m).emit _, rfl, rfl⟩
  · exact completes_unchanged (fun m => if sideRead o.toNat n then m.prefetchRefused o.toNat n else m) rfl (if_neg (by simp [h]))
  · intro failed
    have hfailed : ∀ c m, s.m.FailedRead m len.toNat o.toNat c → failed c m := fun c m h =>
      ⟨h.ctlOnly, h.cause, h.offset, h.results, h.data⟩
    refine ⟨fun c hc => ?_, fun hnone => ⟨fun hk => ?_, fun h1 h2 hside => ?_⟩, fun hk => ?_, ?_⟩
    · obtain ⟨m, he, hm⟩ := completes_failedRead (s := s) (k := k) (g := g) (Mach.readFails_lt hc) (Mach.hostRead_of_fails g hc)
      exact ⟨m, he, hfailed c m hm⟩
    · have hcause : k.toNat = 1 ∨ k.toNat = 2 := by obtain rfl | rfl := hk <;> simp
      obtain ⟨m, he, hm⟩ := completes_failedRead (s := s) (k := k) (g := g) k.isLt (Mach.hostRead_of_cause g hnone hcause)
      exact ⟨m, he, hfailed _ m hm⟩
    · have hc1 : k.toNat ≠ 1 := fun h => h1 (BitVec.eq_of_toNat_eq h)
      have hc2 : k.toNat ≠ 2 := fun h => h2 (BitVec.eq_of_toNat_eq h)
      refine ⟨fun hres => ?_, fun mb hres => ?_, fun b hbar hlen ha hb hres => ?_⟩
      · exact completes_read (Mach.hostRead_of_plain g hnone hc1 hc2 hside hres) rfl rfl
      · exact congrArg (fun n => Host.Outcome.next { s with m := s.m.settle n }) (Mach.hostRead_of_result g hnone hc1 hc2 hside hres)
      · subst hbar hlen
        refine completes_read (Mach.hostRead_of_plain g hnone hc1 hc2 hside hres) rfl ?_
        rw [Mach.emit_out, show (4 : BitVec 13).toNat = 4 from rfl, s.m.readBytes_word g ha hb]
    · obtain ⟨m, he, hm⟩ := completes_failedWrite (s := s) (bar2 := bar2) (o := o) hk
      exact ⟨m, he, hm.ctlOnly, hm.cause, hm.offset, hm.results⟩
    · exact completes_unchanged (fun m => if (0 : BitVec 4) = 0 then m else m.failedAccess none bar2 o.toNat (0 : BitVec 4).toNat) rfl
        (if_pos rfl)
  · have hs := s.m.unsupported_spec o
    exact completes_of_run (·.unsupported o.toNat) rfl hs.1.mode hs
  · refine completes_unchanged Mach.hostLinkDown rfl ?_
    rw [Mach.hostLinkDown_eq, if_pos (Option.isSome_iff_ne_none.mpr h)]

end Sys2Proof.Machine

/-! # Requests taken and refused (R76 to R79, R83) -/
namespace Sys2Proof.Machine

/-! ### Waking the lanes (R18) -/

theorem Mach.lane_withClk (m : Mach) (c : Clks) (l : LaneId) : ({ m with clk := c } : Mach).lane l = m.lane l := Mach.lane_congr rfl rfl rfl l

/-- An unscheduled slot touches the clocks alone. -/
theorem Mach.wakeLane_eq (m : Mach) (l : LaneId) : ∃ c, m.wakeLane l = { m with clk := c } := by
  unfold Mach.wakeLane
  split
  · exact ⟨m.clk, rfl⟩
  · exact ⟨_, rfl⟩

theorem Mach.wakeLanes_eq (m : Mach) (ls : List LaneId) : ∃ c, m.wakeLanes ls = { m with clk := c } := by
  induction ls generalizing m with
  | nil => exact ⟨m.clk, rfl⟩
  | cons l ls ih =>
    obtain ⟨c, hc⟩ := m.wakeLane_eq l
    obtain ⟨d, hd⟩ := ih (m.wakeLane l)
    refine ⟨d, ?_⟩
    rw [hc] at hd
    exact (congrArg (fun n : Mach => n.wakeLanes ls) hc).trans hd

/-! ### The end of a command write (R350) -/

/-- A command write that ends changes the Service Controller and what was sent; its slot holds the answer. -/
theorem Mach.complete_spec (m : Mach) (slot v : Nat) (accepted : Bool) : m.CtlOnly (m.complete slot v accepted) ∧
    Store.get noDone (m.complete slot v accepted).sc.done slot = BitVec.ofNat 64 v := by
  unfold Mach.complete
  dsimp only
  split
  · exact ⟨(((Mach.CtlOnly.refl m).withSc _).emit _).incSc _, Store.get_set_self _ _ _ _⟩
  · refine ⟨((((Mach.CtlOnly.refl m).withSc _).emit _).incSc _).raiseSc _ _, ?_⟩
    rw [Mach.raiseSc_sc]
    exact Store.get_set_self _ _ _ _

theorem ofNat_toNat_acceptWord (seq status lanes tag : Nat) :
    BitVec.ofNat 64 (acceptWord seq status lanes tag).toNat = acceptWord seq status lanes tag := by
  rw [BitVec.ofNat_toNat, BitVec.setWidth_eq]

/-! ### A change in a set of lanes -/

/-- The same change in the lanes of a set. -/
def Mach.updWhere (m : Mach) (p : LaneId → Bool) (f : Lane → Lane) : Mach :=
  laneIds.foldl (fun (n : Mach) l => if p l then n.updLane l f else n) m

theorem Mach.updWhere_eq (m : Mach) (p : LaneId → Bool) (f : Lane → Lane) : m.updWhere p f =
    { m with a := if p .a then f m.a else m.a, b := if p .b then f m.b else m.b, c := if p .c then f m.c else m.c } := by
  unfold Mach.updWhere laneIds
  simp only [List.foldl_cons, List.foldl_nil]
  cases p .a <;> cases p .b <;> cases p .c <;> rfl

theorem Mach.lane_updWhere (m : Mach) (p : LaneId → Bool) (f : Lane → Lane) (l : LaneId) :
    (m.updWhere p f).lane l = if p l then f (m.lane l) else m.lane l := by
  rw [Mach.updWhere_eq]
  cases l <;> rfl

theorem laneSet_congr {p q : LaneId → Bool} (h : ∀ l, p l = q l) : laneSet p = laneSet q := congrArg laneSet (funext h)

/-! ### Committing a request (R76, R79) -/

theorem Lane.accept_spec (x : Lane) (w : W64) (seq mb : Nat) : (x.accept w seq mb).si = x.si ∧ (x.accept w seq mb).live = x.live ∧
    (x.accept w seq mb).rte.queue = x.rte.queue ++ [Req.fresh w seq mb] ∧
    (isRestriction (rqType w) = true → (x.accept w seq mb).zvl.wait = x.zvl.wait ++ [(seq, w)]) := by
  unfold Lane.accept
  dsimp only
  split
  next => exact ⟨rfl, rfl, rfl, fun _ => rfl⟩
  next h => exact ⟨rfl, rfl, rfl, fun hr => absurd hr h⟩

/-- The lanes that commit a request hold it, and the next REQ_SEQ moves on. -/
def Mach.queued (m : Mach) (mb : Nat) (w : W64) : Mach :=
  { m.updWhere m.commits (fun x => x.accept w m.nextSeq mb) with nextSeq := nextReqSeq m.nextSeq, lastSeq := m.nextSeq }

theorem Mach.commitRequest_eq (m : Mach) (mb : Nat) (w : W64) : m.commitRequest mb w = m.vectored [.rte] (m.queued mb w) := rfl

theorem Mach.lane_commitRequest (m : Mach) (mb : Nat) (w : W64) (l : LaneId) : (m.commitRequest mb w).lane l =
    if m.commits l then (m.lane l).accept w m.nextSeq mb else m.lane l := by
  rw [Mach.commitRequest_eq, Mach.lane_vectored, ← Mach.lane_updWhere m m.commits (fun x => x.accept w m.nextSeq mb) l]
  exact Mach.lane_congr rfl rfl rfl l

theorem Mach.vectored_nextSeq (m n : Mach) (bs : List Blk) : (m.vectored bs n).nextSeq = n.nextSeq := by
  induction bs generalizing n with
  | nil => rfl
  | cons b bs ih => exact (ih (m.vectorIf n b)).trans (Mach.vectorIf_nextSeq m n b)

theorem Mach.commitRequest_frame (m : Mach) (mb : Nat) (w : W64) :
    (m.commitRequest mb w).sys = m.sys ∧ (m.commitRequest mb w).ph = m.ph ∧ (m.commitRequest mb w).fed = m.fed ∧
    (m.commitRequest mb w).dio = m.dio ∧ (m.commitRequest mb w).nextSeq = nextReqSeq m.nextSeq := by
  obtain ⟨-, hsys, hph, hfed, hdio, -⟩ := Mach.OnlyLane.vectored m (m.queued mb w) [.rte] .a
  have hup := m.updWhere_eq m.commits (fun x => x.accept w m.nextSeq mb)
  rw [Mach.commitRequest_eq, hsys, hph, hfed, hdio, Mach.vectored_nextSeq]
  unfold Mach.queued
  rw [hup]
  exact ⟨rfl, rfl, rfl, rfl, rfl⟩

/-! ### The status of a request (R76, R77, R83) -/

/-- The answers of the lanes to a request. -/
def Mach.answersTo (m : Mach) (w : W64) (l : LaneId) : Nat := (m.lane l).answer m.sys.mode w

/-- Lanes that all answer alike, and are heard, decide the status. -/
theorem Mach.verdict_of_alike {m : Mach} {answer : LaneId → Nat} {q : BitVec 3} {k : Nat} (hp : m.participants ≠ [])
    (h : ∀ l ∈ m.participants, m.mute q l = false ∧ answer l = k) : m.verdict answer q = k := by
  unfold Mach.verdict
  split
  next hnil => exact absurd hnil hp
  next l t hcons =>
    rw [hcons] at h
    have hmute : (l :: t).any (m.mute q) = false := List.any_eq_false.mpr fun k hk => by simp [(h k hk).1]
    have hdiffer : t.any (fun k => decide (answer k ≠ answer l)) = false := List.any_eq_false.mpr fun k hk => by
      simp [(h k (List.mem_cons_of_mem l hk)).2, (h l List.mem_cons_self).2]
    rw [hmute, hdiffer, if_neg (by simp)]
    exact (h l List.mem_cons_self).2

/-- Lanes that all accept, and are heard, are the participating ones. -/
theorem Mach.acceptors_of_alike {m : Mach} {answer : LaneId → Nat} {q : BitVec 3}
    (h : ∀ l ∈ m.participants, m.mute q l = false ∧ answer l = 1) : m.acceptors answer q = m.partSet := by
  refine laneSet_congr fun l => ?_
  cases hl : m.participants.contains l with
  | false => rfl
  | true =>
    obtain ⟨hmute, hanswer⟩ := h l (List.contains_iff_mem.mp hl)
    simp [hmute, hanswer]

/-- No lane has accepted. -/
theorem Mach.acceptors_of_none {m : Mach} {answer : LaneId → Nat} {q : BitVec 3} (h : ∀ l ∈ m.participants, answer l ≠ 1) :
    m.acceptors answer q = 0 := by
  refine (laneSet_eq_zero_iff _).mpr fun l => ?_
  cases hl : m.participants.contains l with
  | false => rfl
  | true => simp [h l (List.contains_iff_mem.mp hl)]

section
variable {m : Mach} {mb : Nat} {w : W64} {q : BitVec 3}

/-- The status is the lanes' verdict where a lane participates and the authority covers what the lead lane's image names. -/
theorem Mach.requestStatus_of_verdict (hp : m.participants ≠ [])
    (h : m.leadLane.loaded = true → rqMalformed m.leadLane.img w = false → rqAuthority m.leadLane.img w (m.areas mb) = true) :
    m.requestStatus mb w q = m.verdict (m.answersTo w) q := by
  unfold Mach.requestStatus
  dsimp only
  rw [if_neg hp, if_neg]
  · rfl
  · intro hc
    simp only [Bool.and_eq_true, Bool.not_eq_true'] at hc
    obtain ⟨⟨hl, hmal⟩, hauth⟩ := hc
    rw [h hl hmal] at hauth
    exact absurd hauth (by decide)

theorem Mach.requestStatus_outside (hp : m.participants ≠ []) (hl : m.leadLane.loaded = true)
    (hmal : rqMalformed m.leadLane.img w = false) (hauth : rqAuthority m.leadLane.img w (m.areas mb) = false) :
    m.requestStatus mb w q = 4 := by
  unfold Mach.requestStatus
  dsimp only
  rw [if_neg hp, if_pos (by simp [hl, hmal, hauth])]

theorem Mach.requestStatus_unserved (hp : m.participants = []) : m.requestStatus mb w q = 5 := by
  unfold Mach.requestStatus
  exact if_pos hp

/-! ### The request -/

theorem Mach.request_accepted (h : m.requestStatus mb w q = 1) : ∃ c, m.request mb w q =
    (({ m with clk := c } : Mach).commitRequest mb w).complete mb
      (acceptWord m.nextSeq 1 (m.acceptors (m.answersTo w) q) (rqTag w)).toNat true := by
  obtain ⟨c, hc⟩ := m.wakeLanes_eq m.participants
  refine ⟨c, ?_⟩
  unfold Mach.request
  dsimp only
  rw [h, if_pos rfl, hc, if_neg (by decide)]
  rfl

theorem Mach.request_refused {st ls : Nat} (h : m.requestStatus mb w q = st) (h1 : st ≠ 1) (h2 : st ≠ 2) (h6 : st ≠ 6)
    (hls : (if st = 4 then 0 else m.acceptors (m.answersTo w) q) = ls) : ∃ c, m.request mb w q =
    ({ m with clk := c } : Mach).complete mb (acceptWord 0 st ls (rqTag w)).toNat false := by
  obtain ⟨c, hc⟩ := m.wakeLanes_eq m.participants
  refine ⟨c, ?_⟩
  subst h hls
  unfold Mach.request
  dsimp only
  rw [if_neg h1, if_neg h6, if_neg h2, hc]
  rfl

end

/-! ### The rows -/

/-- The ten rows of requests. -/
def requestRows (mb : Fin 8) (w : W64) (q : BitVec 3) : List Instr :=
  [.setRoute mb w q, .cancelRoute mb w q, .throwPoint mb w q, .withdraw mb w q, .restrictObject mb w q, .restrictArea mb w q,
    .restrictAll mb w q, .liftObject mb w q, .liftArea mb w q, .liftAll mb w q]

theorem exec_requestRow {s : State} {mb : Fin 8} {w : W64} {q : BitVec 3} {c : Instr} (hc : c ∈ requestRows mb w q) :
    exec c s = s.run (fun m => m.request mb.val w q) := by
  have hall : ∀ c ∈ requestRows mb w q, exec c s = s.run (fun m => m.request mb.val w q) := by
    simp only [requestRows, List.forall_mem_cons]
    exact ⟨rfl, rfl, rfl, rfl, rfl, rfl, rfl, rfl, rfl, rfl, fun _ h => absurd h List.not_mem_nil⟩
  exact hall c hc

theorem completes_request {s : State} {mb : Fin 8} {w : W64} {q : BitVec 3} {c : Instr} {P : Mach → Prop}
    (hc : c ∈ requestRows mb w q) (hmode : (s.m.request mb.val w q).sys.mode = s.m.sys.mode) (h : P (s.m.request mb.val w q)) :
    Completes c s P := completes_of_run (fun m => m.request mb.val w q) (exec_requestRow hc) hmode h

/-- What a request that every lane accepts leaves. -/
theorem Mach.request_accepted_spec {m : Mach} {mb : Nat} {w : W64} {q : BitVec 3} (hp : m.participants ≠ [])
    (hall : ∀ l ∈ m.participants, m.mute q l = false ∧ m.answersTo w l = 1)
    (hauth : m.leadLane.loaded = true → rqMalformed m.leadLane.img w = false → rqAuthority m.leadLane.img w (m.areas mb) = true) :
    let n := m.request mb w q
    n.nextSeq = nextReqSeq m.nextSeq ∧ n.sys = m.sys ∧ n.ph = m.ph ∧ n.fed = m.fed ∧ n.dio = m.dio ∧
    Store.get noDone n.sc.done mb = acceptWord m.nextSeq 1 m.partSet (rqTag w) ∧
    ∀ l, n.lane l = if m.commits l then (m.lane l).accept w m.nextSeq mb else m.lane l := by
  have hst : m.requestStatus mb w q = 1 := by rw [Mach.requestStatus_of_verdict hp hauth, Mach.verdict_of_alike hp hall]
  obtain ⟨clk, he⟩ := Mach.request_accepted hst
  have hcommits : ∀ l, ({ m with clk := clk } : Mach).commits l = m.commits l := fun l => by cases l <;> rfl
  obtain ⟨csys, cph, cfed, cdio, cseq⟩ := ({ m with clk := clk } : Mach).commitRequest_frame mb w
  obtain ⟨⟨hlane, hsys, hph, hfed, hdio, hseq⟩, hdone⟩ := (({ m with clk := clk } : Mach).commitRequest mb w).complete_spec mb
    (acceptWord m.nextSeq 1 (m.acceptors (m.answersTo w) q) (rqTag w)).toNat true
  dsimp only
  rw [he]
  refine ⟨hseq.trans cseq, hsys.trans csys, hph.trans cph, hfed.trans cfed, hdio.trans cdio, ?_, fun l => ?_⟩
  · rw [hdone, ofNat_toNat_acceptWord, Mach.acceptors_of_alike hall]
  · rw [hlane, Mach.lane_commitRequest, hcommits, Mach.lane_withClk]

/-- What a request refused with STATUS 4 or 5 leaves: nothing but its answer, and clocks. -/
theorem Mach.request_refused_spec {m : Mach} {mb : Nat} {w : W64} {q : BitVec 3} {st : Nat} (h : m.requestStatus mb w q = st)
    (hst : st = 4 ∨ st = 5) (hnone : st = 5 → ∀ l ∈ m.participants, m.answersTo w l ≠ 1) :
    let n := m.request mb w q
    n.nextSeq = m.nextSeq ∧ n.sys = m.sys ∧ n.ph = m.ph ∧ (∀ l, n.lane l = m.lane l) ∧
    Store.get noDone n.sc.done mb = acceptWord 0 st 0 (rqTag w) := by
  have hls : (if st = 4 then 0 else m.acceptors (m.answersTo w) q) = 0 := by
    split
    · rfl
    next h4 => exact Mach.acceptors_of_none (hnone (hst.resolve_left h4))
  obtain ⟨clk, he⟩ := Mach.request_refused h (by omega) (by omega) (by omega) hls
  obtain ⟨⟨hlane, hsys, hph, -, -, hseq⟩, hdone⟩ := ({ m with clk := clk } : Mach).complete_spec mb (acceptWord 0 st 0 (rqTag w)).toNat false
  dsimp only
  rw [he]
  exact ⟨hseq, hsys, hph, fun l => (hlane l).trans (Mach.lane_withClk m clk l), by rw [hdone, ofNat_toNat_acceptWord]⟩

theorem Lane.answer_of_not_rqMode {x : Lane} {mode : Nat} {w : W64} (h : rqMode mode (rqType w) = false) : x.answer mode w = 5 := by
  unfold Lane.answer
  rw [h]
  rfl

/-- A row refused with STATUS 4 or 5 keeps queues, State Images and REQ_SEQ, and its slot says so. -/
theorem completes_refused {s : State} {mb : Fin 8} {w : W64} {q : BitVec 3} {c : Instr} {st : Nat} (hc : c ∈ requestRows mb w q)
    (h : s.m.requestStatus mb.val w q = st) (hst : st = 4 ∨ st = 5) (hnone : st = 5 → ∀ l ∈ s.m.participants, s.m.answersTo w l ≠ 1) :
    Completes c s (fun m => (m.nextSeq = s.m.nextSeq ∧ m.sys = s.m.sys ∧ m.ph = s.m.ph ∧
      ∀ l, (m.lane l).rte = (s.m.lane l).rte ∧ (m.lane l).si = (s.m.lane l).si ∧ (m.lane l).zvl = (s.m.lane l).zvl) ∧
      Store.get noDone m.sc.done mb.val = acceptWord 0 st 0 (rqTag w)) := by
  obtain ⟨hseq, hsys, hph, hlane, hdone⟩ := Mach.request_refused_spec h hst hnone
  refine completes_request hc (by rw [hsys]) ⟨⟨hseq, hsys, hph, fun l => ?_⟩, hdone⟩
  rw [hlane]
  exact ⟨rfl, rfl, rfl⟩

/-- Settles O32: all ten rows are one request, whose status the lanes' answers and the mailbox's authority decide. -/
theorem requestsTaken : Obligations.RequestsTaken := by
  unfold Obligations.RequestsTaken
  refine ⟨fun s mb w q c hc _ hp hall hauth => ?_, fun s mb w q c hc => ⟨fun hp hl hmal hout => ?_, fun hp hl hmode hmute => ?_,
    fun hp => ?_⟩⟩
  · obtain ⟨hseq, hsys, hph, hfed, hdio, hdone, hlane⟩ := Mach.request_accepted_spec hp hall hauth
    refine completes_request hc (by rw [hsys]) ⟨hseq, hsys, hph, hfed, hdio, hdone, fun l => ?_⟩
    obtain ⟨hsi, hlive, hqueue, hwait⟩ := (s.m.lane l).accept_spec w s.m.nextSeq mb.val
    rw [hlane]
    split
    next hyes => exact ⟨hsi, hlive, fun _ => ⟨hqueue, hwait⟩, fun hno => absurd (hyes.symm.trans hno) (by decide)⟩
    next hno => exact ⟨rfl, rfl, fun hyes => absurd hyes hno, fun _ => rfl⟩
  · exact completes_refused hc (Mach.requestStatus_outside hp hl hmal hout) (.inl rfl) fun h => absurd h (by decide)
  · have h5 : ∀ l, s.m.answersTo w l = 5 := fun l => Lane.answer_of_not_rqMode hmode
    refine completes_refused hc ?_ (.inr rfl) fun _ l _ => by rw [h5]; decide
    rw [Mach.requestStatus_of_verdict hp fun h => absurd (hl.symm.trans h) (by decide)]
    exact Mach.verdict_of_alike hp fun l hlp => ⟨hmute l hlp, h5 l⟩
  · exact completes_refused hc (Mach.requestStatus_unserved hp) (.inr rfl) fun _ l hlp => absurd (hp ▸ hlp) List.not_mem_nil

end Sys2Proof.Machine

/-! # Registers with an effect of their own (R114, R162, R200, R224, R288, R305) -/
namespace Sys2Proof.Machine

/-! ### A write that the lanes or the Port Hub take (R351) -/

/-- From `m` to `n` registers of the listed addresses and event staging differ in the lanes, registers alone in the Port Hub; `sys`, the
federation and the outcomes handed over are as before. -/
structure Mach.Written (as : List Nat) (m n : Mach) : Prop where
  lane : ∀ l, (m.lane l).Keeps (n.lane l) as
  sys : n.sys = m.sys
  fed : n.fed = m.fed
  reported : n.sc.reported = m.sc.reported
  ph : ∃ r : Regs, n.ph = { m.ph with regs := r }

namespace Mach.Written

variable {m n o : Mach} {as : List Nat}

theorem trans (h : m.Written as n) (g : n.Written as o) : m.Written as o := by
  obtain ⟨_, hph⟩ := h.ph
  obtain ⟨r, gph⟩ := g.ph
  exact ⟨fun l => (h.lane l).trans (g.lane l), g.sys.trans h.sys, g.fed.trans h.fed, g.reported.trans h.reported, r, by rw [gph, hph]⟩

theorem of_eq (hl : ∀ l, n.lane l = m.lane l) (hs : n.sys = m.sys) (hf : n.fed = m.fed) (hr : n.sc.reported = m.sc.reported)
    (hp : n.ph = m.ph) : m.Written as n :=
  ⟨fun l => by rw [hl]; exact .refl _ _, hs, hf, hr, m.ph.regs, hp⟩

theorem refl (as : List Nat) (m : Mach) : m.Written as m := of_eq (fun _ => rfl) rfl rfl rfl rfl

theorem withClk (m : Mach) (c : Clks) : m.Written as { m with clk := c } := of_eq (m.lane_withClk c) rfl rfl rfl rfl

theorem withHubRegs (m : Mach) (r : Regs) : m.Written as { m with ph := { m.ph with regs := r } } :=
  ⟨fun l => by rw [Mach.lane_withPh]; exact .refl _ _, rfl, rfl, rfl, r, rfl⟩

theorem updLane {f : Lane → Lane} (m : Mach) (l : LaneId) (h : ∀ x : Lane, x.Keeps (f x) as) : m.Written as (m.updLane l f) := by
  refine ⟨fun k => ?_, by simp, by simp, by simp, m.ph.regs, by simp⟩
  by_cases hk : k = l
  · rw [hk, Mach.lane_updLane_self]; exact h _
  · rw [Mach.lane_updLane_ne m f hk]; exact .refl _ _

theorem foldl {α : Type} {f : Mach → α → Mach} (h : ∀ (m : Mach) a, m.Written as (f m a)) (l : List α) (m : Mach) : m.Written as (l.foldl f m) :=
  List.foldlRecOn l f (refl as m) (fun n hn a _ => hn.trans (h n a))

theorem vectorIf (m n : Mach) (b : Blk) : n.Written as (m.vectorIf n b) :=
  of_eq (Mach.lane_vectorIf m n b) (Mach.vectorIf_sys m n b) (Mach.vectorIf_fed m n b) (by rw [Mach.vectorIf_sc]) (Mach.vectorIf_ph m n b)

theorem storeSetting (m : Mach) (a : Nat) (v : W32) : m.Written as (m.storeSetting a v) := by
  rw [Mach.storeSetting_eq]
  exact of_eq (Mach.lane_withSc m _) rfl rfl rfl rfl

/-- The lead lane is the same one. -/
theorem lead (h : m.Written as n) : n.lead = m.lead :=
  Mach.lead_congr (fun l => by rw [(h.lane l).1]) (fun l => by rw [(h.lane l).1]) (by rw [h.sys]) (by rw [h.fed])

/-- A field of the lead lane at another address reads as before. -/
theorem fld (h : m.Written as n) {f : Field} (hf : f.addr ∉ as) : n.fld f = m.fld f := by
  unfold Mach.fld Mach.leadLane
  rw [h.lead]
  exact (h.lane m.lead).2.fld f hf

theorem si (h : m.Written as n) (l : LaneId) : (n.lane l).si = (m.lane l).si := (h.lane l).si

end Mach.Written

/-- A write to a plain register changes that register alone. -/
theorem Regs.keeps_write (r : Regs) (b : Blk) (off v : Nat) : r.Keeps (r.write b off v) [blkBase b + off] := by
  unfold Regs.write
  split
  · exact .refl _ _
  · split
    · exact .refl _ _
    · exact Regs.keeps_set (.refl _ _) _ List.mem_cons_self

/-- The registers of R416 to R419 and DISCARD that a write handles apart. -/
def commonOffs : List Nat := [0x14, 0x18, 0x1C, 0x28, 0x2C]

theorem Regs.take_of_plain (r : Regs) (b : Blk) {off : Nat} (v : Nat) (barred : Bool) (h : off ∉ commonOffs) :
    r.take b off v barred = r.write b off v := by
  simp only [commonOffs, List.mem_cons, List.not_mem_nil, or_false, not_or] at h
  obtain ⟨h1, h2, h3, h4, -⟩ := h
  unfold Regs.take
  dsimp only
  rw [if_neg h1, if_neg h2, if_neg h3, if_neg h4]

/-- A write to a plain register of a block, but for those of DMA. -/
theorem Mach.written_takeWrite (m : Mach) (ls : List LaneId) {b : Blk} {off : Nat} (v : Nat) (late : Bool) (hb : b ≠ .dma)
    (hhome : blkHome b ≠ .ctl) (hoff : off < 0x800) (hplain : off ∉ commonOffs) : m.Written [blkBase b + off] (m.takeWrite ls b off v late) := by
  have hsh : (decide (0x800 ≤ off) || (decide (off = 0x2C) && bitOf v 0)) = false := by
    have h2C : off ≠ 0x2C := fun h => hplain (by rw [h]; decide)
    simp [h2C, hoff]
  unfold Mach.takeWrite
  dsimp only
  rw [hsh, if_neg hb]
  refine .trans ?_ (.vectorIf _ _ _)
  split
  · refine .foldl (fun n l => .updLane n l fun x => ?_) _ _
    rw [if_neg Bool.false_ne_true, Regs.take_of_plain _ _ _ _ hplain]
    exact Lane.keeps_regs (Regs.keeps_write _ _ _ _)
  · rw [if_neg Bool.false_ne_true]
    exact .withHubRegs _ _
  next h => exact absurd h hhome

/-- No clock decides whether a write is taken. -/
theorem Mach.takes_withClk (m : Mach) (c : Clks) (b : Blk) (off v : Nat) (o : Offer) :
    ({ m with clk := c } : Mach).Takes b off v o = m.Takes b off v o := rfl

/-- A write that is taken through a window takes effect, and its completion slot is answered. -/
theorem Mach.laneRegs_of_takes {m : Mach} {b : Blk} {a v : Nat} {o : Offer} (slot : Nat) (h : m.Takes b (a % 0x1000) v o)
    (hpage : pageOf a = some b) : ∃ clk late w, m.laneRegs slot a v o =
      (({ m with clk := clk } : Mach).laneTake b (a % 0x1000) v late).complete slot w true := by
  obtain ⟨clk, hclk⟩ := m.wakeLanes_eq m.participants
  rw [← Mach.takes_withClk m clk] at h
  obtain ⟨hp, hall, hhub⟩ := h
  have hst := Mach.verdict_of_alike (answer := fun k => (({ m with clk := clk } : Mach).regJudge k b (a % 0x1000) v (isLate o.late k)).1) hp hall
  unfold Mach.laneRegs
  dsimp only
  rw [hclk, hpage]
  split
  next _ hnil => exact absurd hnil hp
  next _ hnone => exact absurd hnone (by simp)
  next _ l t b' hcons hb =>
    obtain rfl : b = b' := Option.some.inj hb
    rw [if_neg fun hh => by rw [(hhub hh.1).2] at hh; exact absurd hh.2 (by decide), if_pos hst, if_neg]
    · exact ⟨clk, _, _, rfl⟩
    · rintro ⟨hh, ht⟩
      have htwo := (hhub hh).1
      rw [hcons, List.isEmpty_iff.mp ht] at htwo
      exact absurd htwo (by simp)

/-- A write of a row that names a block and a plain register of it: what it shows, then its own effect, then its answer. -/
theorem Mach.anyWrite_of_takes {m : Mach} {b : Blk} {off v : Nat} {o : Offer} (h : m.Takes b off v o) (hb : b ≠ .dma) (hhome : blkHome b ≠ .ctl)
    (hpage : pageOf (blkBase b + off) = some b) (hmod : (blkBase b + off) % 0x1000 = off) (hoff : off < 0x800) (hplain : off ∉ commonOffs) :
    ∃ n slot w, m.Written [blkBase b + off] n ∧ m.anyWrite b off v o = (n.ownEffect m.participants b off v).complete slot w true := by
  have hany : m.anyWrite b off v o = m.laneRegs (9 + m.regsWindow) (blkBase b + off) v o := by
    unfold Mach.anyWrite
    split
    next hctl => exact absurd hctl hhome
    next => rfl
  obtain ⟨clk, late, w, he⟩ := Mach.laneRegs_of_takes (9 + m.regsWindow) (a := blkBase b + off) (by rwa [hmod]) hpage
  rw [hany, he, hmod]
  unfold Mach.laneTake
  dsimp only
  rw [if_neg fun hd => hb hd.1, if_pos hoff]
  refine ⟨_, _, w, ?_, rfl⟩
  refine .trans ?_ (.storeSetting _ _ _)
  split
  · exact .withClk _ _
  · exact (Mach.Written.withClk m clk).trans (Mach.written_takeWrite _ _ _ _ hb hhome hoff hplain)

theorem Mach.complete_reported (m : Mach) (slot v : Nat) : (m.complete slot v true).sc.reported = m.sc.reported := rfl

/-- A row that writes such a register completes with the effect of the write. -/
theorem completes_write {s : State} {c : Instr} {b : Blk} {off v : Nat} {o : Offer} {P : Mach → Prop} (hc : exec c s = s.run (·.anyWrite b off v o))
    (h : s.m.Takes b off v o) (hb : b ≠ .dma) (hhome : blkHome b ≠ .ctl) (hpage : pageOf (blkBase b + off) = some b)
    (hmod : (blkBase b + off) % 0x1000 = off) (hoff : off < 0x800) (hplain : off ∉ commonOffs)
    (heffect : ∀ n, s.m.Written [blkBase b + off] n → (n.ownEffect s.m.participants b off v).sys.mode = s.m.sys.mode ∧
      ∀ p, (n.ownEffect s.m.participants b off v).CtlOnly p → p.sc.reported = (n.ownEffect s.m.participants b off v).sc.reported → P p) :
    Completes c s P := by
  obtain ⟨n, slot, w, hn, he⟩ := Mach.anyWrite_of_takes h hb hhome hpage hmod hoff hplain
  obtain ⟨hmode, hP⟩ := heffect n hn
  have honly := ((n.ownEffect s.m.participants b off v).complete_spec slot w true).1
  refine completes_of_run (·.anyWrite b off v o) hc ?_ ?_ <;> rw [he]
  · rw [honly.mode, hmode]
  · exact hP _ honly (Mach.complete_reported _ _ _)

/-! ### QUEUE_FLUSH (R114) -/

/-- The results of a lane's queue, every entry WITHDRAWN. -/
def Mach.withdrawn (m : Mach) (l : LaneId) : List Result := (m.lane l).rte.queue.map (fun q => endResult m.sys.cluster (q, 8, 0))

/-- A lane with a record of each of these results. -/
def Lane.recordEnds (now : Nat) (rs : List Result) (x : Lane) : Lane :=
  rs.foldl (fun (y : Lane) r =>
    y.addEvent ⟨0x2001, now, r.mbx, r.word.toNat / 2 ^ 32, r.word.toNat % 2 ^ 32, r.seq, false, false⟩) x

/-- A lane with an empty queue. -/
def Lane.noQueue (x : Lane) : Lane := ({ x with rte := { x.rte with queue := [] } }).queueRegs

/-- A lane that records these results and has an empty queue. -/
def Lane.flush (now : Nat) (rs : List Result) (x : Lane) : Lane := (x.recordEnds now rs).noQueue

/-- One lane's queue ends WITHDRAWN. -/
def Mach.flushLane (m : Mach) (now : Nat) (l : LaneId) : Mach :=
  let n := m.updLane l (Lane.flush now (m.withdrawn l))
  { n with sc := { n.sc with reported := n.sc.reported ++ (m.withdrawn l).map (fun r => (l, r)) } }

theorem Mach.flushQueue_eq (m : Mach) (ls : List LaneId) : m.flushQueue ls = ls.foldl (fun n l => n.flushLane m.nowNs l) m := rfl

theorem Lane.noQueue_spec (x : Lane) : x.noQueue.rte = { x.rte with queue := [] } ∧ x.noQueue.si = x.si := ⟨rfl, rfl⟩

theorem Lane.keeps_recordEnds (now : Nat) (rs : List Result) (x : Lane) : x.Keeps (x.recordEnds now rs) eventRegs :=
  List.foldlRecOn rs (motive := fun y : Lane => x.Keeps y eventRegs) _ (Lane.Keeps.refl x _) fun y hy _ _ => hy.trans (Lane.keeps_addEvent y _)

theorem Lane.flush_spec (now : Nat) (rs : List Result) (x : Lane) :
    (x.flush now rs).rte = { x.rte with queue := [] } ∧ (x.flush now rs).si = x.si := by
  have hkeeps := x.keeps_recordEnds now rs
  obtain ⟨hrte, hsi⟩ := (x.recordEnds now rs).noQueue_spec
  unfold Lane.flush
  exact ⟨by rw [hrte, hkeeps.rte], by rw [hsi, hkeeps.si]⟩

theorem Mach.flushLane_lane (m : Mach) (now : Nat) (l k : LaneId) :
    (m.flushLane now l).lane k = if k = l then (m.lane k).flush now (m.withdrawn l) else m.lane k := by
  unfold Mach.flushLane
  dsimp only
  rw [Mach.lane_withSc]
  split
  next h => rw [h, Mach.lane_updLane_self]
  next h => exact Mach.lane_updLane_ne _ _ h

theorem Mach.flushLane_frame (m : Mach) (now : Nat) (l : LaneId) : (m.flushLane now l).sys = m.sys ∧
    (m.flushLane now l).sc.reported = m.sc.reported ++ (m.withdrawn l).map (fun r => (l, r)) := by
  unfold Mach.flushLane
  dsimp only
  rw [Mach.updLane_sys, Mach.updLane_sc]
  exact ⟨rfl, rfl⟩

theorem Mach.lane_flushLane_self (m : Mach) (now : Nat) (l : LaneId) : ((m.flushLane now l).lane l).rte.queue = [] := by
  rw [Mach.flushLane_lane, if_pos rfl, (Lane.flush_spec _ _ _).1]

theorem Mach.si_flushLane (m : Mach) (now : Nat) (l k : LaneId) : ((m.flushLane now l).lane k).si = (m.lane k).si := by
  rw [Mach.flushLane_lane]
  split
  · exact (Lane.flush_spec _ _ _).2
  · rfl

/-- Lane `l` of `n` is as its queue in `m` has ended: empty, each entry handed over. -/
def Mach.FlushedIn (m n : Mach) (l : LaneId) : Prop :=
  (n.lane l).rte.queue = [] ∧ ∀ q ∈ (m.lane l).rte.queue, (l, endResult m.sys.cluster (q, 8, 0)) ∈ n.sc.reported

/-- Lane `l` of `n` still has its queue of `m`, or it has ended. -/
def Mach.FlushingIn (m n : Mach) (l : LaneId) : Prop :=
  n.sys = m.sys ∧ ((n.lane l).rte.queue = (m.lane l).rte.queue ∨ m.FlushedIn n l)

section
variable {m n : Mach} {l : LaneId}

theorem Mach.FlushedIn.step (h : m.FlushedIn n l) (now : Nat) (k : LaneId) : m.FlushedIn (n.flushLane now k) l := by
  obtain ⟨hempty, hreported⟩ := h
  refine ⟨?_, fun q hq => ?_⟩
  · rw [Mach.flushLane_lane]
    split
    · rw [(Lane.flush_spec _ _ _).1]
    · exact hempty
  · rw [(n.flushLane_frame now k).2]
    exact List.mem_append_left _ (hreported q hq)

theorem Mach.FlushingIn.flushed (h : m.FlushingIn n l) (now : Nat) : m.FlushedIn (n.flushLane now l) l := by
  obtain ⟨hsys, hqueue | hdone⟩ := h
  · refine ⟨n.lane_flushLane_self now l, fun q hq => ?_⟩
    rw [(n.flushLane_frame now l).2]
    refine List.mem_append_right _ (List.mem_map_of_mem ?_)
    unfold Mach.withdrawn
    rw [hqueue, hsys]
    exact List.mem_map_of_mem hq
  · exact hdone.step now l

theorem Mach.FlushingIn.step (h : m.FlushingIn n l) (now : Nat) (k : LaneId) : m.FlushingIn (n.flushLane now k) l := by
  refine ⟨(n.flushLane_frame now k).1.trans h.1, ?_⟩
  by_cases hk : l = k
  · exact .inr (hk ▸ h.flushed now)
  · refine h.2.imp (fun hqueue => ?_) (fun hdone => hdone.step now k)
    rw [Mach.flushLane_lane, if_neg hk, hqueue]

end

/-- The flush in a set of lanes. -/
theorem Mach.flushQueue_spec (m : Mach) (ls : List LaneId) : (m.flushQueue ls).sys = m.sys ∧
    ∀ l, ((m.flushQueue ls).lane l).si = (m.lane l).si ∧ (l ∈ ls → m.FlushedIn (m.flushQueue ls) l) ∧
      (l ∉ ls → ((m.flushQueue ls).lane l).rte = (m.lane l).rte) := by
  rw [Mach.flushQueue_eq]
  refine ⟨List.foldlRecOn ls (motive := fun n : Mach => n.sys = m.sys) _ rfl fun n hn k _ => (n.flushLane_frame _ k).1.trans hn, fun l => ⟨?_, fun hl => ?_, fun hl => ?_⟩⟩
  · exact List.foldlRecOn ls (motive := fun n : Mach => (n.lane l).si = (m.lane l).si) _ rfl fun n hn k _ => (n.si_flushLane _ k l).trans hn
  · exact foldl_of_mem (Q := fun n => m.FlushingIn n l) (P := fun n => m.FlushedIn n l) hl ⟨rfl, .inl rfl⟩
      (fun n hn k _ => hn.step _ k) (fun n hn => hn.flushed _) (fun n hn k _ => hn.step _ k)
  · refine List.foldlRecOn ls (motive := fun n : Mach => (n.lane l).rte = (m.lane l).rte) _ rfl fun n hn k hk => ?_
    rw [Mach.flushLane_lane, if_neg (ne_of_mem_of_not_mem hk hl).symm, hn]

/-- QUEUE_FLUSH is taken in MAINTENANCE only. -/
theorem Mach.mode_of_takes_flush {m : Mach} {o : Offer} (h : m.Takes .rte 0x8 1 o) : m.sys.mode = 12 := by
  obtain ⟨hp, hall, -⟩ := h
  obtain ⟨l, hl⟩ := List.exists_mem_of_ne_nil _ hp
  by_contra hmode
  have hrefuses : ∀ late, m.ownRefuses l .rte 0x8 1 late = true := fun late => by simp [Mach.ownRefuses, hmode, bitOf]
  have hrow : findRow .rte 0x8 = some ⟨0x8, 0x0, 1, .wo, 0x1⟩ := by decide
  have hjudge : m.regJudge l .rte 0x8 1 (bitOf o.late.toNat (laneIx l)) = (7, true) := by
    unfold Mach.regJudge
    rw [hrow, hrefuses]
    rfl
  have hone := (hall l hl).2
  rw [hjudge] at hone
  exact absurd hone (by decide)

/-- The row leaves State Images and the mode. -/
def Mach.Quiet (m n : Mach) : Prop := n.sys.mode = m.sys.mode ∧ ∀ l, (n.lane l).si = (m.lane l).si

theorem completes_queueFlush {s : State} {q : BitVec 3} (h : s.m.Takes .rte 0x8 1 ⟨q, 0⟩) : Completes (.queueFlush q) s (fun m =>
    s.m.Quiet m ∧ ∀ l, (l ∈ s.m.participants → s.m.FlushedIn m l) ∧ (l ∉ s.m.participants → (m.lane l).rte = (s.m.lane l).rte)) := by
  refine completes_write rfl h (by decide) (by decide) rfl rfl (by decide) (by decide) fun n hn => ?_
  have heffect : n.ownEffect s.m.participants .rte 0x8 1 = n.flushQueue s.m.participants := by
    unfold Mach.ownEffect
    exact if_pos ⟨rfl, rfl⟩
  obtain ⟨hsys, hlane⟩ := n.flushQueue_spec s.m.participants
  rw [heffect, hsys, hn.sys]
  refine ⟨rfl, fun p hp hreported => ⟨⟨by rw [hp.mode, hsys, hn.sys], fun l => ?_⟩, fun l => ?_⟩⟩
  · rw [hp.1, (hlane l).1, hn.si]
  · obtain ⟨-, hin, hout⟩ := hlane l
    refine ⟨fun hl => ?_, fun hl => by rw [hp.1, hout hl, (hn.lane l).rte]⟩
    have hflushed := hin hl
    unfold Mach.FlushedIn at hflushed ⊢
    rwa [hp.1, hreported, ← (hn.lane l).rte, ← hn.sys]

/-! ### A change in each lane of a list -/

/-- The same change in the lanes of a list. -/
def Mach.updEach (m : Mach) (ls : List LaneId) (f : Lane → Lane) : Mach := ls.foldl (fun (n : Mach) l => n.updLane l f) m

theorem Mach.updEach_sys (m : Mach) (ls : List LaneId) (f : Lane → Lane) : (m.updEach ls f).sys = m.sys :=
  List.foldlRecOn ls (motive := fun n : Mach => n.sys = m.sys) _ rfl fun n hn k _ => (Mach.updLane_sys n k f).trans hn

/-- What the change leaves in a lane. -/
theorem Mach.updEach_keeps {α : Type} (m : Mach) (ls : List LaneId) {f : Lane → Lane} (g : Lane → α) (h : ∀ x, g (f x) = g x) (l : LaneId) :
    g ((m.updEach ls f).lane l) = g (m.lane l) := by
  refine List.foldlRecOn ls (motive := fun n : Mach => g (n.lane l) = g (m.lane l)) _ rfl fun n hn k _ => ?_
  by_cases hk : l = k
  · rw [hk, Mach.lane_updLane_self, h, ← hk, hn]
  · rw [Mach.lane_updLane_ne _ _ hk, hn]

/-- What the change brings about in a lane of the list. -/
theorem Mach.updEach_of_mem {ls : List LaneId} {l : LaneId} (m : Mach) {f : Lane → Lane} {P : Lane → Prop} (h : ∀ x, P (f x)) (hl : l ∈ ls) :
    P ((m.updEach ls f).lane l) := by
  refine foldl_of_mem (P := fun n : Mach => P (n.lane l)) (Q := fun _ => True) hl trivial (fun _ _ _ _ => trivial)
    (fun n _ => by rw [Mach.lane_updLane_self]; exact h _) fun n hn k _ => ?_
  by_cases hk : l = k
  · rw [hk, Mach.lane_updLane_self]; exact h _
  · rwa [Mach.lane_updLane_ne _ _ hk]

/-! ### SIGNATURE_INJECT (R162) -/

/-- A lane whose next signature carries this. -/
def Lane.withInject (k : Nat) (x : Lane) : Lane := { x with inject := k }

theorem Lane.si_withInject (k : Nat) (x : Lane) : (x.withInject k).si = x.si := rfl

theorem completes_signatureInject {s : State} {k : BitVec 2} {q : BitVec 3} (hk : k ≠ 0) (h : s.m.Takes .vot 0x8 k.toNat ⟨q, 0⟩) :
    Completes (.signatureInject k q) s (fun m => s.m.Quiet m ∧ ∀ l ∈ s.m.participants, (m.lane l).inject = k.toNat) := by
  refine completes_write rfl h (by decide) (by decide) rfl rfl (by decide) (by decide) fun n hn => ?_
  have hbits : bitsOf k.toNat 1 0 = k.toNat := by
    have := k.isLt
    unfold bitsOf
    omega
  have hne : k.toNat ≠ 0 := fun h0 => hk (BitVec.eq_of_toNat_eq h0)
  have heffect : n.ownEffect s.m.participants .vot 0x8 k.toNat =
      n.updEach s.m.participants (Lane.withInject (bitsOf k.toNat 1 0)) := by
    unfold Mach.ownEffect
    exact if_pos ⟨rfl, by rw [hbits]; exact hne⟩
  rw [heffect, hbits, Mach.updEach_sys, hn.sys]
  refine ⟨rfl, fun p hp _ => ⟨⟨by rw [hp.mode, Mach.updEach_sys, hn.sys], fun l => ?_⟩, fun l hl => ?_⟩⟩
  · rw [hp.1, Mach.updEach_keeps n _ Lane.si (Lane.si_withInject _) l, hn.si]
  · rw [hp.1]
    exact Mach.updEach_of_mem (P := fun x => x.inject = k.toNat) n (fun _ => rfl) hl

/-! ### HANDBACK_RELEASE (R288) -/

theorem completes_handbackRelease {s : State} {q : BitVec 3} (h : s.m.Takes .red 0x114 1 ⟨q, 0⟩) : Completes (.handbackRelease q) s (fun m =>
    s.m.Quiet m ∧ m.sys = s.m.sys ∧ (s.m.fld F.RED_PAIR_CFG_HANDBACK_HOLD = 1 → m.fed = { s.m.fed with released := true }) ∧
    (s.m.fld F.RED_PAIR_CFG_HANDBACK_HOLD ≠ 1 → m.fed = s.m.fed)) := by
  refine completes_write rfl h (by decide) (by decide) rfl rfl (by decide) (by decide) fun n hn => ?_
  have hhold : n.fld F.RED_PAIR_CFG_HANDBACK_HOLD = s.m.fld F.RED_PAIR_CFG_HANDBACK_HOLD := hn.fld (by decide)
  have heffect : n.ownEffect s.m.participants .red 0x114 1 =
      if n.fld F.RED_PAIR_CFG_HANDBACK_HOLD = 1 then { n with fed := { n.fed with released := true } } else n := by
    unfold Mach.ownEffect
    simp [bitOf]
  rw [heffect, hhold]
  split
  next hone =>
    refine ⟨by rw [hn.sys], fun p hp _ => ?_⟩
    obtain ⟨hlane, hsys, -, hfed, -⟩ := hp
    refine ⟨⟨by rw [hsys, hn.sys], fun l => ?_⟩, hsys.trans hn.sys, fun _ => hfed.trans ?_, fun hno => absurd hone hno⟩
    · rw [hlane, Mach.lane_withFed, hn.si]
    · rw [hn.fed]
  next hno =>
    refine ⟨by rw [hn.sys], fun p hp _ => ?_⟩
    obtain ⟨hlane, hsys, -, hfed, -⟩ := hp
    exact ⟨⟨by rw [hsys, hn.sys], fun l => by rw [hlane, hn.si]⟩, hsys.trans hn.sys, fun hone => absurd hone hno, fun _ => hfed.trans hn.fed⟩

/-! ### NODE_LEAVE_REQUEST and QUARANTINE_RELEASE (R200, R224) -/

theorem Mach.node_updNode (m : Mach) (a b : Nat) (f : Node → Node) : (m.updNode a f).node b = if b = a then f (m.node a) else m.node b := by
  unfold Mach.node Mach.updNode Store.upd
  rw [Store.get_set]

theorem Mach.port_queueOwn (m : Mach) (p cls dest type : Nat) (payload : List Byte) :
    ((m.queueOwn p cls dest type payload).port p).own = (m.port p).own ++ [(cls, dest, type, payload)] := by
  unfold Mach.queueOwn Mach.updPort Store.upd
  exact congrArg Port.own (Store.get_set_self _ _ _ _)

theorem Mach.Written.node {m n : Mach} {as : List Nat} (h : m.Written as n) (a : Nat) : n.node a = m.node a := by
  obtain ⟨r, hph⟩ := h.ph
  unfold Mach.node
  rw [hph]

theorem Mach.Written.ports {m n : Mach} {as : List Nat} (h : m.Written as n) : n.ph.ports = m.ph.ports := by
  obtain ⟨r, hph⟩ := h.ph
  rw [hph]

theorem Mach.Written.port {m n : Mach} {as : List Nat} (h : m.Written as n) (p : Nat) : n.port p = m.port p := by
  unfold Mach.port
  rw [h.ports]

/-- What stays of the Port Hub while the completion slot is answered. -/
theorem Mach.CtlOnly.node {m n : Mach} (h : m.CtlOnly n) (a : Nat) : n.node a = m.node a := by
  obtain ⟨-, -, hph, -⟩ := h
  unfold Mach.node
  rw [hph]

theorem Mach.leaveNode_spec (m : Mach) (p k : Nat) : (m.leaveNode p k).sys = m.sys ∧ (∀ l, (m.leaveNode p k).lane l = m.lane l) ∧
    ((m.leaveNode p k).port p).own = (m.port p).own ++ [(4, nodeAddr p k, 9, leavePayload 1)] ∧
    ∀ a, (m.leaveNode p k).node a = if a = nodeAddr p k then
      { m.node (nodeAddr p k) with leaving := (m.node (nodeAddr p k)).leaving || !(m.node (nodeAddr p k)).quarantined } else m.node a :=
  ⟨rfl, fun l => (Mach.lane_withPh _ _ l).trans (Mach.lane_withPh _ _ l), m.port_queueOwn p _ _ _ _, fun a => Mach.node_updNode _ _ a _⟩

theorem completes_nodeLeaveRequest {s : State} {p : Fin 16} {k : BitVec 7} {o : Offer} (h : s.m.Takes (.ttp p) 0x6C (0x80 + k.toNat) o) :
    Completes (.nodeLeaveRequest p k o) s (fun m => s.m.Quiet m ∧ m.sys = s.m.sys ∧
      ((s.m.node (nodeAddr p.val k.toNat)).quarantined = false → (m.node (nodeAddr p.val k.toNat)).leaving = true) ∧
      (m.port p.val).own = (s.m.port p.val).own ++ [(4, nodeAddr p.val k.toNat, 9, leavePayload 1)] ∧
      ∀ a, a ≠ nodeAddr p.val k.toNat → m.node a = s.m.node a) := by
  have hpage : ∀ p : Fin 16, pageOf (blkBase (.ttp p) + 0x6C) = some (.ttp p) ∧ (blkBase (.ttp p) + 0x6C) % 0x1000 = 0x6C := by decide
  refine completes_write rfl h (by simp) (by simp [blkHome]) (hpage p).1 (hpage p).2 (by decide) (by decide) fun n hn => ?_
  have hk := k.isLt
  have hix : bitsOf (0x80 + k.toNat) 6 0 = k.toNat := by unfold bitsOf; omega
  have hbit : bitOf (0x80 + k.toNat) 7 = true := by simp [bitOf]; omega
  have heffect : n.ownEffect s.m.participants (.ttp p) 0x6C (0x80 + k.toNat) = n.leaveNode p.val k.toNat := by
    unfold Mach.ownEffect
    dsimp only
    rw [if_pos ⟨rfl, hbit⟩, hix]
  obtain ⟨hsys, hlane, hown, hnode⟩ := n.leaveNode_spec p.val k.toNat
  rw [heffect, hsys, hn.sys]
  refine ⟨rfl, fun r hr _ => ⟨⟨by rw [hr.mode, hsys, hn.sys], fun l => ?_⟩, by rw [hr.sys, hsys, hn.sys], fun hq => ?_, ?_, fun a ha => ?_⟩⟩
  · rw [hr.1, hlane, hn.si]
  · rw [hr.node, hnode, if_pos rfl, hn.node, hq]
    simp
  · obtain ⟨-, -, hph, -⟩ := hr
    have hport : r.port p.val = (n.leaveNode p.val k.toNat).port p.val := by unfold Mach.port; rw [hph]
    rw [hport, hown, hn.port]
  · rw [hr.node, hnode, if_neg ha, hn.node]

theorem Mach.releaseNode_spec (m : Mach) (a : Nat) : (m.releaseNode a).sys = m.sys ∧ (∀ l, (m.releaseNode a).lane l = m.lane l) ∧
    (m.releaseNode a).ph.ports = m.ph.ports ∧ (m.releaseNode a).node a = { m.node a with leaving := true } :=
  ⟨rfl, Mach.lane_withPh _ _, rfl, (m.node_updNode a a _).trans (if_pos rfl)⟩

theorem completes_quarantineRelease {s : State} {a : BitVec 11} {o : Offer} (h : s.m.Takes .stg 0x84 a.toNat o) :
    Completes (.quarantineRelease a o) s (fun m => s.m.Quiet m ∧ m.sys = s.m.sys ∧
      m.node a.toNat = { s.m.node a.toNat with leaving := true } ∧ m.ph.ports = s.m.ph.ports) := by
  refine completes_write rfl h (by decide) (by decide) rfl rfl (by decide) (by decide) fun n hn => ?_
  have hbits : bitsOf a.toNat 10 0 = a.toNat := by
    have := a.isLt
    unfold bitsOf
    omega
  have heffect : n.ownEffect s.m.participants .stg 0x84 a.toNat = n.releaseNode a.toNat := by
    unfold Mach.ownEffect
    dsimp only
    rw [if_pos rfl, hbits]
  obtain ⟨hsys, hlane, hports, hnode⟩ := n.releaseNode_spec a.toNat
  rw [heffect, hsys, hn.sys]
  refine ⟨rfl, fun r hr _ => ⟨⟨by rw [hr.mode, hsys, hn.sys], fun l => ?_⟩, by rw [hr.sys, hsys, hn.sys], ?_, ?_⟩⟩
  · rw [hr.1, hlane, hn.si]
  · rw [hr.node, hnode, hn.node]
  · obtain ⟨-, -, hph, -⟩ := hr
    rw [hph, hports, hn.ports]

/-! ### BIST_START (R304, R305) -/

/-- BST.CTRL as a write shows it in a lane. -/
def Lane.showBist (ctrl : Nat) (x : Lane) : Lane :=
  { x with regs := ((x.regs.put F.BST_CTRL_DEVICE (bitsOf ctrl 7 4)).put F.BST_CTRL_SCOPE (bitsOf ctrl 2 1)).put F.BST_CTRL_START (bitsOf ctrl 0 0) }

theorem Mach.hostBist_of_idle (m : Mach) (ls : List LaneId) {ctrl : Nat} (h : bitOf ctrl 0 = false) :
    m.hostBist ls ctrl = m.updEach ls (Lane.showBist ctrl) := by
  unfold Mach.hostBist
  dsimp only
  rw [h, if_pos (by decide)]
  rfl

theorem Mach.hostBist_of_lanes (m : Mach) (ls : List LaneId) {ctrl : Nat} (h : bitOf ctrl 0 = true) (hd : bitsOf ctrl 7 4 = 0) :
    m.hostBist ls ctrl = ls.foldl (fun (n : Mach) l => n.bistBegin (.lane l) true) (m.updEach ls (Lane.showBist ctrl)) := by
  unfold Mach.hostBist
  dsimp only
  rw [h, if_neg (by decide), if_neg (by rw [hd]; decide)]
  rfl

theorem Lane.si_showBist (ctrl : Nat) (x : Lane) : (x.showBist ctrl).si = x.si := rfl

theorem Lane.scope_showBist (ctrl : Nat) (x : Lane) : (x.showBist ctrl).regs.fld F.BST_CTRL_SCOPE = bitsOf ctrl 2 1 := by
  unfold Lane.showBist
  dsimp only
  simp (disch := decide) only [Regs.fld_put_beside, Regs.fld_put_same]
  exact Nat.mod_mod _ 4

/-- A lane isolated and its run begun. -/
def Lane.bistOn (x : Lane) : Lane :=
  { x with regs := ((x.regs.put F.BST_STATUS_RUNNING 1).put F.BST_STATUS_ISOLATED 1).put F.CLK_STATUS_BIST_CLOCK 1 }

theorem Lane.bistOn_spec (x : Lane) : x.bistOn.regs.fld F.BST_STATUS_RUNNING = 1 ∧ x.bistOn.regs.fld F.BST_STATUS_ISOLATED = 1 := by
  unfold Lane.bistOn
  constructor <;> simp (disch := decide) only [Regs.fld_put_ne, Regs.fld_put_beside, Regs.fld_put_same] <;> rfl

theorem Mach.bistBegin_of_running {m : Mach} {l : LaneId} (h : .lane l ∈ m.sys.bistRun) : m.bistBegin (.lane l) true = m := by
  unfold Mach.bistBegin
  exact if_pos (List.contains_iff_mem.mpr h)

theorem Mach.bistBegin_of_idle {m : Mach} {l : LaneId} (h : .lane l ∉ m.sys.bistRun) : m.bistBegin (.lane l) true =
    (m.updLane l Lane.bistOn).updSys (fun s => { s with bistRun := s.bistRun ++ [.lane l], bistHost := s.bistHost ++ [.lane l] }) := by
  unfold Mach.bistBegin
  exact if_neg (fun hc => h (List.contains_iff_mem.mp hc))

/-- The run of lane `l`, which did not run in `m`, is begun by software: `n` shows it so. -/
def Mach.BegunIn (m n : Mach) (l : LaneId) : Prop := .lane l ∈ n.sys.bistRun ∧ (.lane l ∉ m.sys.bistRun → .lane l ∈ n.sys.bistHost ∧
  (n.lane l).regs.fld F.BST_STATUS_RUNNING = 1 ∧ (n.lane l).regs.fld F.BST_STATUS_ISOLATED = 1)

section
variable {m n : Mach} {l : LaneId}

theorem Mach.bistBegin_frame (n : Mach) (k : LaneId) : (n.bistBegin (.lane k) true).sys.mode = n.sys.mode ∧
    ∀ l, ((n.bistBegin (.lane k) true).lane l).si = (n.lane l).si := by
  by_cases hk : .lane k ∈ n.sys.bistRun
  · rw [Mach.bistBegin_of_running hk]
    exact ⟨rfl, fun _ => rfl⟩
  · rw [Mach.bistBegin_of_idle hk]
    refine ⟨by simp, fun l => ?_⟩
    rw [Mach.lane_updSys]
    by_cases hl : l = k
    · rw [hl, Mach.lane_updLane_self]; rfl
    · rw [Mach.lane_updLane_ne _ _ hl]

/-- Another lane's run begins. -/
theorem Mach.bistBegin_other (n : Mach) {k l : LaneId} (h : l ≠ k) : (n.bistBegin (.lane k) true).lane l = n.lane l ∧
    (.lane l ∈ (n.bistBegin (.lane k) true).sys.bistRun ↔ .lane l ∈ n.sys.bistRun) ∧
    (.lane l ∈ (n.bistBegin (.lane k) true).sys.bistHost ↔ .lane l ∈ n.sys.bistHost) := by
  by_cases hk : .lane k ∈ n.sys.bistRun
  · rw [Mach.bistBegin_of_running hk]
    exact ⟨rfl, .rfl, .rfl⟩
  · rw [Mach.bistBegin_of_idle hk]
    exact ⟨by rw [Mach.lane_updSys, Mach.lane_updLane_ne _ _ h], by simp [h], by simp [h]⟩

theorem Mach.BegunIn.step (h : m.BegunIn n l) (k : LaneId) : m.BegunIn (n.bistBegin (.lane k) true) l := by
  by_cases hk : l = k
  · rwa [← hk, Mach.bistBegin_of_running h.1]
  · obtain ⟨hlane, hrun, hhost⟩ := n.bistBegin_other hk
    unfold Mach.BegunIn at h ⊢
    rwa [hlane, hrun, hhost]

/-- Either a lane's run is begun, or it does not run yet. -/
theorem Mach.BegunIn.start (h : .lane l ∈ n.sys.bistRun → m.BegunIn n l) : m.BegunIn (n.bistBegin (.lane l) true) l := by
  by_cases hl : .lane l ∈ n.sys.bistRun
  · rw [Mach.bistBegin_of_running hl]
    exact h hl
  · rw [Mach.bistBegin_of_idle hl]
    refine ⟨by simp, fun _ => ⟨by simp, ?_⟩⟩
    rw [Mach.lane_updSys, Mach.lane_updLane_self]
    exact Lane.bistOn_spec _

theorem Mach.BegunIn.step_of_idle (h : .lane l ∈ n.sys.bistRun → m.BegunIn n l) (k : LaneId) :
    .lane l ∈ (n.bistBegin (.lane k) true).sys.bistRun → m.BegunIn (n.bistBegin (.lane k) true) l := by
  by_cases hk : l = k
  · exact fun _ => hk ▸ Mach.BegunIn.start h
  · exact fun hrun => (h ((n.bistBegin_other hk).2.1.mp hrun)).step k

end

theorem Mach.foldl_bistBegin_spec (m : Mach) (ls : List LaneId) :
    m.Quiet (ls.foldl (fun (n : Mach) l => n.bistBegin (.lane l) true) m) ∧
    ∀ l ∈ ls, m.BegunIn (ls.foldl (fun (n : Mach) l => n.bistBegin (.lane l) true) m) l := by
  refine ⟨List.foldlRecOn ls (motive := fun n : Mach => m.Quiet n) _ ⟨rfl, fun _ => rfl⟩ fun n hn k _ => ?_, fun l hl => ?_⟩
  · obtain ⟨hmode, hsi⟩ := n.bistBegin_frame k
    exact ⟨hmode.trans hn.1, fun l => (hsi l).trans (hn.2 l)⟩
  · exact foldl_of_mem (P := fun n => m.BegunIn n l) (Q := fun n => .lane l ∈ n.sys.bistRun → m.BegunIn n l) hl
      (fun hrun => ⟨hrun, fun hno => absurd hrun hno⟩) (fun n hn k _ => Mach.BegunIn.step_of_idle hn k) (fun n hn => Mach.BegunIn.start hn)
      fun n hn k _ => hn.step k

theorem completes_bistStart {s : State} {w : W32} {q : BitVec 3} (h : s.m.Takes .bst 0x40 w.toNat ⟨q, 0⟩) (hstart : bitOf w.toNat 0 = true)
    (hdev : bitsOf w.toNat 7 4 = 0) : Completes (.bistStart w q) s (fun m => s.m.Quiet m ∧ ∀ l ∈ s.m.participants, s.m.BegunIn m l) := by
  refine completes_write rfl h (by decide) (by decide) rfl rfl (by decide) (by decide) fun n hn => ?_
  have heffect : n.ownEffect s.m.participants .bst 0x40 w.toNat = n.hostBist s.m.participants w.toNat := by
    unfold Mach.ownEffect
    exact if_pos rfl
  have hsys := n.updEach_sys s.m.participants (Lane.showBist w.toNat)
  obtain ⟨hquiet, hbegun⟩ := (n.updEach s.m.participants (Lane.showBist w.toNat)).foldl_bistBegin_spec s.m.participants
  rw [heffect, Mach.hostBist_of_lanes _ _ hstart hdev]
  refine ⟨by rw [hquiet.1, hsys, hn.sys], fun p hp _ => ⟨⟨by rw [hp.mode, hquiet.1, hsys, hn.sys], fun l => ?_⟩, fun l hl => ?_⟩⟩
  · rw [hp.1, hquiet.2, Mach.updEach_keeps n _ Lane.si (Lane.si_showBist _) l, hn.si]
  · have hl := hbegun l hl
    unfold Mach.BegunIn at hl ⊢
    rwa [hp.1, hp.sys, ← hn.sys, ← hsys]

theorem completes_bistStart_idle {s : State} {w : W32} {q : BitVec 3} (h : s.m.Takes .bst 0x40 w.toNat ⟨q, 0⟩)
    (hstart : bitOf w.toNat 0 = false) : Completes (.bistStart w q) s (fun m => s.m.Quiet m ∧
      m.sys = s.m.sys ∧ ∀ l ∈ s.m.participants, (m.lane l).regs.fld F.BST_CTRL_SCOPE = bitsOf w.toNat 2 1) := by
  refine completes_write rfl h (by decide) (by decide) rfl rfl (by decide) (by decide) fun n hn => ?_
  have heffect : n.ownEffect s.m.participants .bst 0x40 w.toNat = n.hostBist s.m.participants w.toNat := by
    unfold Mach.ownEffect
    exact if_pos rfl
  have hsys := n.updEach_sys s.m.participants (Lane.showBist w.toNat)
  rw [heffect, Mach.hostBist_of_idle _ _ hstart]
  refine ⟨by rw [hsys, hn.sys], fun p hp _ => ⟨⟨by rw [hp.mode, hsys, hn.sys], fun l => ?_⟩, by rw [hp.sys, hsys, hn.sys], fun l hl => ?_⟩⟩
  · rw [hp.1, Mach.updEach_keeps n _ Lane.si (Lane.si_showBist _) l, hn.si]
  · rw [hp.1]
    exact Mach.updEach_of_mem (P := fun x => x.regs.fld F.BST_CTRL_SCOPE = bitsOf w.toNat 2 1) n (Lane.scope_showBist _) hl

end Sys2Proof.Machine

/-! # The boundary at which nodes leave (R200, R224, R242) -/
namespace Sys2Proof.Machine

/-! ### Steps of a boundary that keep State Images and the tables of nodes -/

/-- Mode, State Images, what the Port Hub keeps of each node and the lanes' communication states are as before. -/
structure Mach.TablesKept (m n : Mach) : Prop where
  mode : n.sys.mode = m.sys.mode
  nodes : n.ph.nodes = m.ph.nodes
  si : ∀ l, (n.lane l).si = (m.lane l).si
  comms : ∀ l, (n.lane l).live.node = (m.lane l).live.node

/-- The registers of the worst error of a cluster, and that none stands for the next. -/
def Mach.clearWorst (m : Mach) : Mach := { m with ph := { m.ph with worst := none } }

theorem Mach.worstErr_eq (m : Mach) :
    ∃ v w, m.worstErr = ((m.putPh F.STG_WORST_ERR_ERR_NS v).putPh F.STG_WORST_ERR_NODE w).clearWorst := ⟨_, _, rfl⟩

namespace Mach.TablesKept

variable {m n o : Mach}

theorem refl (m : Mach) : m.TablesKept m := ⟨rfl, rfl, fun _ => rfl, fun _ => rfl⟩

theorem trans (h : m.TablesKept n) (g : n.TablesKept o) : m.TablesKept o :=
  ⟨g.mode.trans h.mode, g.nodes.trans h.nodes, fun l => (g.si l).trans (h.si l), fun l => (g.comms l).trans (h.comms l)⟩

theorem ite {c : Prop} [Decidable c] (g : m.TablesKept n) (h : m.TablesKept o) : m.TablesKept (if c then n else o) := by
  split
  · exact g
  · exact h

theorem foldl {α : Type} {f : Mach → α → Mach} (h : ∀ (m : Mach) a, m.TablesKept (f m a)) (l : List α) (m : Mach) :
    m.TablesKept (l.foldl f m) := List.foldlRecOn l f (refl m) (fun n hn a _ => hn.trans (h n a))

theorem of_lanes (hl : ∀ l, n.lane l = m.lane l) (hs : n.sys.mode = m.sys.mode) (hp : n.ph.nodes = m.ph.nodes) : m.TablesKept n :=
  ⟨hs, hp, fun l => by rw [hl], fun l => by rw [hl]⟩

theorem mapLanes {f : Lane → Lane} (m : Mach) (hsi : ∀ x, (f x).si = x.si) (hlive : ∀ x, (f x).live.node = x.live.node) :
    m.TablesKept (m.mapLanes f) :=
  ⟨rfl, rfl, fun l => by rw [Mach.lane_mapLanes, hsi], fun l => by rw [Mach.lane_mapLanes, hlive]⟩

theorem updLane {f : Lane → Lane} (m : Mach) (l : LaneId) (hsi : ∀ x, (f x).si = x.si) (hlive : ∀ x, (f x).live.node = x.live.node) :
    m.TablesKept (m.updLane l f) := by
  have key : ∀ k, ((m.updLane l f).lane k).si = (m.lane k).si ∧ ((m.updLane l f).lane k).live.node = (m.lane k).live.node := fun k => by
    by_cases hk : k = l
    · rw [hk, Mach.lane_updLane_self, hsi, hlive]; exact ⟨rfl, rfl⟩
    · rw [Mach.lane_updLane_ne _ _ hk]; exact ⟨rfl, rfl⟩
  exact ⟨by rw [Mach.updLane_sys], by rw [Mach.updLane_ph], fun k => (key k).1, fun k => (key k).2⟩

theorem withHub (m : Mach) (p : Ph) (h : p.nodes = m.ph.nodes) : m.TablesKept { m with ph := p } := of_lanes (Mach.lane_withPh m p) rfl h

theorem withFed (m : Mach) (f : Fed) : m.TablesKept { m with fed := f } := of_lanes (Mach.lane_withFed m f) rfl rfl

theorem withClk (m : Mach) (c : Clks) : m.TablesKept { m with clk := c } := of_lanes (Mach.lane_withClk m c) rfl rfl

theorem updSys {f : Sys → Sys} (m : Mach) (h : ∀ s, (f s).mode = s.mode) : m.TablesKept (m.updSys f) :=
  of_lanes (Mach.lane_updSys m f) (h _) rfl

theorem putAll (m : Mach) (f : Field) (v : Nat) : m.TablesKept (m.putAll f v) := mapLanes m (fun _ => rfl) (fun _ => rfl)

theorem putPh (m : Mach) (f : Field) (v : Nat) : m.TablesKept (m.putPh f v) := withHub m _ rfl

theorem updPort (m : Mach) (p : Nat) (f : Port → Port) : m.TablesKept (m.updPort p f) := withHub m _ rfl

theorem portRegs (m : Mach) (p : Nat) : m.TablesKept (m.portRegs p) := withHub m _ rfl

theorem raisePh (m : Mach) (b : Blk) (i : Nat) : m.TablesKept (m.raisePh b i) :=
  of_lanes (Mach.lane_raisePh m b i) (by rw [Mach.raisePh_sys]) (by rw [Mach.raisePh_ph])

theorem of_keeps {as : List Nat} (hl : ∀ l, (m.lane l).Keeps (n.lane l) as) (hs : n.sys = m.sys) (hp : n.ph = m.ph) : m.TablesKept n :=
  ⟨by rw [hs], by rw [hp], fun l => (hl l).si, fun l => by rw [(hl l).1]⟩

theorem raiseAll (m : Mach) (b : Blk) (i : Nat) : m.TablesKept (m.raiseAll b i) :=
  of_keeps (as := [blkBase b + 0x10])
    (fun l => by rw [Mach.lane_raiseAll]; exact Lane.keeps_regs (Regs.keeps_setBit (.refl _ _) List.mem_cons_self))
    (Mach.raiseAll_sys m b i) (Mach.raiseAll_ph m b i)

theorem record (m : Mach) (code p0 p1 p2 p3 : Nat) : m.TablesKept (m.record code p0 p1 p2 p3) :=
  of_keeps (Mach.keeps_record m code p0 p1 p2 p3) (Mach.record_sys m code p0 p1 p2 p3) (Mach.record_ph m code p0 p1 p2 p3)

theorem storeSetting (m : Mach) (a : Nat) (v : W32) : m.TablesKept (m.storeSetting a v) := by
  rw [Mach.storeSetting_eq]
  exact of_lanes (Mach.lane_withSc m _) rfl rfl

theorem hubErr (m : Mach) {b : Blk} (h : blkHome b = .hub) : m.TablesKept (m.err b) := by
  unfold Mach.err
  rw [h]
  exact withHub m _ rfl

/-! #### PTP (R250 to R256) -/

theorem startTo (m : Mach) (k : Nat) : m.TablesKept (m.startTo k) := (withFed m _).trans (putAll _ _ _)

theorem fedJoin (m : Mach) (k : Nat) : m.TablesKept (m.fedJoin k) := (startTo m k).trans (raiseAll _ _ _)

theorem setPtp (m : Mach) (n : Net) (p : Ptp) : m.TablesKept (m.setPtp n p) := by
  cases n
  case netA => exact withFed _ _
  case netB => exact withFed _ _
  case pair => exact refl m

theorem dropMaster (m : Mach) : m.TablesKept m.dropMaster := ite (refl m) ((setPtp m _ _).trans (setPtp _ _ _))

theorem fedTime (m : Mach) : m.TablesKept m.fedTime := by
  unfold Mach.fedTime
  extract_lets s valid was fed n
  have hn : m.TablesKept n := (withFed m _).trans (putAll _ _ _)
  exact ite (hn.trans (raiseAll _ _ _)) hn

theorem ptpTo (m : Mach) (s : Nat) : m.TablesKept (m.ptpTo s) := by
  unfold Mach.ptpTo
  extract_lets old timer n o p q
  have hn : m.TablesKept n := putAll m _ _
  have ho : m.TablesKept o := ite ((hn.trans (putAll _ _ _)).trans (raiseAll _ _ _)) (ite (hn.trans (putAll _ _ _)) (hn.trans (putAll _ _ _)))
  have hp : m.TablesKept p := ite (ho.trans (raiseAll _ _ _)) ho
  have hq : m.TablesKept q := (((hp.trans (putAll _ _ _)).trans (putAll _ _ _)).trans (record _ _ _ _ _ _)).trans (fedTime _)
  exact ite (refl m) (ite (hq.trans (fedJoin _ _)) hq)

theorem freeStep (m : Mach) (n : Net) : m.TablesKept (m.freeStep n) := by
  unfold Mach.freeStep
  split
  · exact refl m
  · exact withFed m _
  · exact (setPtp m _ _).trans (withFed _ _)

theorem ptpSelect (m : Mach) (heard : Option Net) : m.TablesKept (m.ptpSelect heard) := by
  unfold Mach.ptpSelect
  extract_lets old oldId k id another changed marked named delayed shown s news chosen
  have hmarked : m.TablesKept marked := (putAll m _ _).trans (putAll _ _ _)
  have hnamed : m.TablesKept named := ((hmarked.trans (putAll _ _ _)).trans (putAll _ _ _)).trans (putAll _ _ _)
  have hdelayed : m.TablesKept delayed := hnamed.trans (putAll _ _ _)
  have hshown : m.TablesKept shown := ite (hdelayed.trans (raiseAll _ _ _)) hdelayed
  have hto : ∀ k, m.TablesKept (shown.ptpTo k) := fun k => hshown.trans (ptpTo _ k)
  refine ite hshown (ite (hto 3) (ite (ite (hto 4) (hto 2)) (ite ?_ (ite (ite (hshown.trans (putAll _ _ _)) hshown) (ite hshown ?_)))))
  · exact ite hshown (ite (hto 4) ((hto 4).trans (ptpTo _ _)))
  · exact ite ((hto 2).trans (freeStep _ _)) (hto 2)

theorem ptpCfg (m : Mach) : m.TablesKept m.ptpCfg := by
  unfold Mach.ptpCfg
  extract_lets drop n
  have hdrop : ∀ (m : Mach) k, m.TablesKept (drop m k) := fun m k => ite (refl m) (setPtp m _ _)
  have hn : m.TablesKept n := ((hdrop m .netA).trans (hdrop _ .netB)).trans (dropMaster _)
  exact ite ((hn.trans (ptpTo _ _)).trans (ptpSelect _ _)) ((ite (hn.trans (ptpTo _ _)) hn).trans (ptpSelect _ _))

/-! #### The copy of the shadows, and what is counted -/

theorem storeCopied (m : Mach) (sh : Store (Option W32)) : m.TablesKept (m.storeCopied sh) :=
  foldl (fun m e => by
    split
    · exact storeSetting m _ _
    · exact refl m) sh m

theorem shadowCopy (m : Mach) : m.TablesKept m.shadowCopy := by
  unfold Mach.shadowCopy
  extract_lets n copied
  have hn : m.TablesKept n := ((foldl (fun n l => storeCopied n _) _ m).trans (storeCopied _ _)).trans (storeCopied _ _)
  have hcopied : m.TablesKept copied := hn.trans (mapLanes n (fun _ => by rfl) (fun _ => by rfl))
  exact (hcopied.trans (withHub copied _ (by rfl))).trans (ptpCfg _)

theorem setCluster (m : Mach) (c : Nat) : m.TablesKept (m.setCluster c) :=
  (((updSys (f := fun s => { s with cluster := c }) m fun _ => rfl).trans (putAll _ _ _)).trans (putAll _ _ _)).trans (putPh _ _ _)

theorem cycleRegs (m : Mach) (bc : Nat) : m.TablesKept (m.cycleRegs bc) := mapLanes m (fun _ => rfl) (fun _ => rfl)

theorem reachMark (m : Mach) (k : Nat) : m.TablesKept (m.reachMark k) := mapLanes m (fun _ => rfl) (fun _ => rfl)

theorem countCluster (m : Mach) : m.TablesKept m.countCluster := by
  unfold Mach.countCluster
  extract_lets c probation tracking
  exact (((setCluster m c).trans (updSys _ fun _ => by rfl)).trans (cycleRegs _ _)).trans (reachMark _ _)

theorem mapFollow {f : Lane → Lane} (m : Mach) (hsi : ∀ x, (f x).si = x.si) (hlive : ∀ x, (f x).live.node = x.live.node) :
    m.TablesKept (m.mapFollow f) :=
  ⟨rfl, rfl, fun _ => Mach.mapFollow_keeps f Lane.si hsi, fun _ => Mach.mapFollow_keeps f (fun x : Lane => x.live.node) hlive⟩

theorem rinse (m : Mach) : m.TablesKept m.rinse := ite (mapFollow m (fun _ => rfl) (fun _ => rfl)) (refl m)

/-! #### Ports (R197 to R211, R222) -/

theorem schedStart (m : Mach) (p : Nat) : m.TablesKept (m.schedStart p) := by
  unfold Mach.schedStart
  refine ite (refl m) ?_
  extract_lets s q n b t o
  have hn : m.TablesKept n := putPh m _ _
  have ho : m.TablesKept o := hn.trans (updPort _ _ _)
  refine ite (((hn.trans (putPh _ _ _)).trans (hubErr _ rfl)).trans (raisePh _ _ _)) ?_
  exact (((ho.trans (putPh _ _ _)).trans (putPh _ _ _)).trans (putPh _ _ _)).trans (portRegs _ _)

theorem schedApply (m : Mach) (p : Nat) : m.TablesKept (m.schedApply p) := by
  unfold Mach.schedApply
  extract_lets q n
  have hn : m.TablesKept n := updPort m _ _
  exact ite (refl m) (ite (((hn.trans (putPh _ _ _)).trans (raisePh _ _ _)).trans (portRegs _ _)) ((updPort m _ _).trans (portRegs _ _)))

theorem switchSchedules (m : Mach) : m.TablesKept m.switchSchedules := foldl (fun m p => (schedStart m p).trans (schedApply _ p)) _ m

theorem hemStart (m : Mach) (p : Nat) : m.TablesKept (m.hemStart p) := by
  unfold Mach.hemStart
  extract_lets f stored gap
  exact ite (((putPh m _ _).trans (hubErr _ rfl)).trans (record _ _ _ _ _ _)) (putPh m _ _)

theorem portStop (m : Mach) (p : Nat) : m.TablesKept (m.portStop p) := (updPort m _ _).trans (ite (putPh _ _ _) (refl _))

theorem portsRewind (m : Mach) : m.TablesKept m.portsRewind := foldl (fun m p => updPort m p _) _ m

theorem worstErr (m : Mach) : m.TablesKept m.worstErr := by
  obtain ⟨v, w, h⟩ := m.worstErr_eq
  rw [h]
  exact ((putPh m _ v).trans (putPh _ _ w)).trans (withHub _ _ rfl)

theorem heardRegs (m : Mach) : m.TablesKept m.heardRegs := putAll m _ _

/-! #### The pair and the clocks -/

theorem updFit (m : Mach) : m.TablesKept m.updFit := by
  unfold Mach.updFit
  refine ite (refl m) ?_
  extract_lets was u fit n o fed
  have ho : m.TablesKept o := (((putAll m _ _).trans (putAll _ _ _)).trans (putAll _ _ _)).trans (putAll _ _ _)
  exact ite (((ho.trans (withFed _ _)).trans (putAll _ _ _)).trans (raiseAll _ _ _)) ho

theorem pairBoundary (m : Mach) : m.TablesKept m.pairBoundary := by
  unfold Mach.pairBoundary
  refine ite (refl m) ?_
  extract_lets seen n told missed fed o
  have hn : m.TablesKept n := putAll m _ _
  have ho : m.TablesKept o := ite (hn.trans (withFed _ _)) (ite (hn.trans (withFed _ _)) hn)
  exact ho.trans (updFit _)

theorem closeSpan (m : Mach) (us : Nat) : m.TablesKept (m.closeSpan us) := by
  unfold Mach.closeSpan
  exact ite (refl m) ((withClk m _).trans (foldl (fun n l => ite (refl n) (withClk n _)) _ _))

theorem clkBoundary (m : Mach) (span : Bool) : m.TablesKept (m.clkBoundary span) := by
  unfold Mach.clkBoundary
  extract_lets n all o
  have ho : n.TablesKept o := foldl (fun m l => updLane m l (fun _ => by rfl) (fun _ => by rfl)) _ n
  exact ((closeSpan m 4000).trans ho).trans (withClk _ _)

end Mach.TablesKept

/-! ### Nodes that have left -/

/-- What holds of every entry at a key, and of what an unlisted key reads as, holds of a read. -/
theorem Store.get_of_forall {α : Type} {d : Nat → α} {t : Store α} {k : Nat} {P : α → Prop} (h : ∀ e ∈ t, e.1 = k → P e.2) (hd : P (d k)) :
    P (Store.get d t k) := by
  induction t with
  | nil => exact hd
  | cons e t ih =>
    rw [Store.get]
    split
    next hk => exact h e List.mem_cons_self hk.symm
    next => exact ih fun e he => h e (List.mem_cons_of_mem _ he)

/-- An entry after a write is the one written, or one of another key. -/
theorem Store.mem_set {α : Type} [DecidableEq α] {d : Nat → α} {t : Store α} {k : Nat} {v : α} {e : Nat × α} (h : e ∈ Store.set d t k v) :
    e = (k, v) ∨ (e ∈ t ∧ e.1 ≠ k) := by
  have hinsert : ∀ u : Store α, e ∈ Store.insert k v u → e = (k, v) ∨ e ∈ u := by
    intro u
    induction u with
    | nil => exact fun h => .inl (List.mem_singleton.mp h)
    | cons f u ih =>
      intro h
      unfold Store.insert at h
      split at h
      · exact List.mem_cons.mp h
      · obtain rfl | h := List.mem_cons.mp h
        · exact .inr List.mem_cons_self
        · exact (ih h).imp_right (List.mem_cons_of_mem f)
  have hfilter : e ∈ t.filter (fun e => decide (e.1 ≠ k)) → e ∈ t ∧ e.1 ≠ k := fun h => by simpa using h
  unfold Store.set at h
  dsimp only at h
  split at h
  · exact .inr (hfilter h)
  · exact (hinsert _ h).imp_right hfilter

/-- The Port Hub keeps no mark of the node as leaving or held, and every lane has it ABSENT, in each entry that its tables hold of it. -/
structure Mach.Gone (m : Mach) (a : Nat) : Prop where
  nodes : ∀ e ∈ m.ph.nodes, e.1 = a → e.2.leaving = false ∧ e.2.held = false
  comms : ∀ l, ∀ e ∈ (m.lane l).live.node, e.1 = a → e.2.state = 2

section
variable {m : Mach} {a : Nat} (h : m.Gone a)
include h

theorem Mach.Gone.node : (m.node a).leaving = false ∧ (m.node a).held = false :=
  Store.get_of_forall (P := fun n : Node => n.leaving = false ∧ n.held = false) h.nodes ⟨rfl, rfl⟩

theorem Mach.Gone.comm (l : LaneId) : (Store.get NodeComm.absent (m.lane l).live.node a).state = 2 :=
  Store.get_of_forall (P := fun c : NodeComm => c.state = 2) (h.comms l) rfl

end

/-- Mode and State Images are as before, and a node that has left stays so. -/
structure Mach.BoundaryKept (m n : Mach) : Prop where
  mode : n.sys.mode = m.sys.mode
  si : ∀ l, (n.lane l).si = (m.lane l).si
  gone : ∀ a, m.Gone a → n.Gone a

theorem Mach.TablesKept.boundaryKept {m n : Mach} (h : m.TablesKept n) : m.BoundaryKept n :=
  ⟨h.mode, h.si, fun _ g => ⟨fun e he => g.nodes e (by rwa [← h.nodes]), fun l e he => g.comms l e (by rwa [← h.comms l])⟩⟩

namespace Mach.BoundaryKept

variable {m n o : Mach}

theorem trans (h : m.BoundaryKept n) (g : n.BoundaryKept o) : m.BoundaryKept o :=
  ⟨g.mode.trans h.mode, fun l => (g.si l).trans (h.si l), fun a ha => g.gone a (h.gone a ha)⟩

theorem refl (m : Mach) : m.BoundaryKept m := (Mach.TablesKept.refl m).boundaryKept

theorem ite {c : Prop} [Decidable c] (g : m.BoundaryKept n) (h : m.BoundaryKept o) : m.BoundaryKept (if c then n else o) := by
  split
  · exact g
  · exact h

theorem foldl {α : Type} {f : Mach → α → Mach} (h : ∀ (m : Mach) a, m.BoundaryKept (f m a)) (l : List α) (m : Mach) :
    m.BoundaryKept (l.foldl f m) := List.foldlRecOn l f (refl m) (fun n hn a _ => hn.trans (h n a))

end Mach.BoundaryKept

/-- The Port Hub's part of a node's leaving. -/
def Node.absent (n : Node) : Node :=
  { n with cuts := [], leaving := false, quarantined := false, held := false, entry := none, event := 0, diag := 0, maint := 0, ack := false }

/-- A lane's part of a node's leaving. -/
def Lane.setAbsent (a : Nat) (x : Lane) : Lane :=
  { x with live := { x.live with node := Store.upd NodeComm.absent x.live.node a (fun c => { c with state := 2, lost := 0, restore := 0 }) } }

/-- The tables of a node that leaves. -/
def Mach.nodeGone (m : Mach) (a : Nat) : Mach := (m.updNode a Node.absent).mapLanes (Lane.setAbsent a)

theorem Mach.setAbsent_kept (m : Mach) (a : Nat) : (m.nodeGone a).TablesKept (m.setAbsent a) :=
  (Mach.TablesKept.ite (.refl _) (.raisePh _ _ _)).trans (.portRegs _ _)

theorem Mach.lane_nodeGone (m : Mach) (a : Nat) (l : LaneId) : (m.nodeGone a).lane l = (m.lane l).setAbsent a := by
  unfold Mach.nodeGone Mach.updNode
  rw [Mach.lane_mapLanes, Mach.lane_withPh]

theorem Mach.nodeGone_gone (m : Mach) {a b : Nat} (h : b = a ∨ m.Gone b) : (m.nodeGone a).Gone b := by
  refine ⟨fun e he hb => ?_, fun l e he hb => ?_⟩
  · obtain rfl | ⟨hin, hne⟩ := Store.mem_set he
    · exact ⟨rfl, rfl⟩
    · exact (h.resolve_left fun hba => hne (hb.trans hba)).nodes e hin hb
  · rw [Mach.lane_nodeGone] at he
    obtain rfl | ⟨hin, hne⟩ := Store.mem_set he
    · rfl
    · exact (h.resolve_left fun hba => hne (hb.trans hba)).comms l e hin hb

theorem Mach.BoundaryKept.setAbsent (m : Mach) (a : Nat) : m.BoundaryKept (m.setAbsent a) := by
  have hgone : m.BoundaryKept (m.nodeGone a) := by
    refine ⟨rfl, fun l => ?_, fun b hb => m.nodeGone_gone (.inr hb)⟩
    rw [Mach.lane_nodeGone]
    rfl
  exact hgone.trans (m.setAbsent_kept a).boundaryKept

theorem Mach.setAbsent_gone (m : Mach) (a : Nat) : (m.setAbsent a).Gone a :=
  (m.setAbsent_kept a).boundaryKept.gone a (m.nodeGone_gone (.inl rfl))


/-! ### Ports that start and stop (R211, R224, R278) -/

/-- What the Port Hub keeps of its nodes when ports stop or start. -/
def droppedNodes (p : Nat → Bool) (t : Store Node) : Store Node :=
  (t.map (fun (e : Nat × Node) => if p e.1 then (e.1, e.2.kept) else e)).filter (fun e => decide (e.2 ≠ Node.init e.1))

/-- What a lane keeps of them; `held`: nodes that a third quarantine holds. -/
def droppedComms (p held : Nat → Bool) (t : Store NodeComm) : Store NodeComm :=
  (t.filter (fun e => !p e.1 || held e.1)).map (fun (e : Nat × NodeComm) => if p e.1 then (e.1, { e.2 with state := 4 }) else e)

/-- A lane with its communication states of these ports dropped. -/
def Lane.dropComms (p held : Nat → Bool) (x : Lane) : Lane := { x with live := { x.live with node := droppedComms p held x.live.node } }

/-- The tables of nodes whose ports stop or start. -/
def Mach.dropTables (m : Mach) (p : Nat → Bool) : Mach :=
  ({ m with ph := { m.ph with nodes := droppedNodes p m.ph.nodes } } : Mach).mapLanes (Lane.dropComms p (fun a => (m.node a).held))

theorem Mach.dropNodes_eq (m : Mach) (p : Nat → Bool) : ∃ ks : List Nat,
    m.dropNodes p = ks.foldl (fun (m : Mach) k => m.raisePh (.ttp (Fin.ofNat 16 k)) I.TTP_NODE_LEFT) (m.dropTables p) := ⟨_, rfl⟩

theorem Mach.lane_dropTables (m : Mach) (p : Nat → Bool) (l : LaneId) :
    (m.dropTables p).lane l = (m.lane l).dropComms p (fun a => (m.node a).held) := by
  unfold Mach.dropTables
  rw [Mach.lane_mapLanes, Mach.lane_withPh]

theorem Mach.Gone.dropTables {m : Mach} {a : Nat} (h : m.Gone a) (p : Nat → Bool) : (m.dropTables p).Gone a := by
  refine ⟨fun e he ha => ?_, fun l e he ha => ?_⟩
  · obtain ⟨f, hf, rfl⟩ := List.mem_map.mp (List.mem_filter.mp he).1
    split
    next hp =>
      rw [if_pos hp] at ha
      exact ⟨rfl, (h.nodes f hf ha).2⟩
    next hp =>
      rw [if_neg hp] at ha
      exact h.nodes f hf ha
  · rw [Mach.lane_dropTables] at he
    obtain ⟨f, hf, rfl⟩ := List.mem_map.mp he
    obtain ⟨hmem, hkeep⟩ := List.mem_filter.mp hf
    split
    next hp =>
      rw [if_pos hp] at ha
      have hheld : (m.node f.1).held = false := (congrArg (fun k => (m.node k).held) ha).trans h.node.2
      simp [hp, hheld] at hkeep
    next hp =>
      rw [if_neg hp] at ha
      exact h.comms l f hmem ha

namespace Mach.BoundaryKept

variable {m n o : Mach}

theorem dropTables (m : Mach) (p : Nat → Bool) : m.BoundaryKept (m.dropTables p) :=
  ⟨rfl, fun l => by rw [Mach.lane_dropTables]; rfl, fun _ h => h.dropTables p⟩

theorem dropNodes (m : Mach) (p : Nat → Bool) : m.BoundaryKept (m.dropNodes p) := by
  obtain ⟨ks, h⟩ := m.dropNodes_eq p
  rw [h]
  exact (dropTables m p).trans (foldl (fun n k => (Mach.TablesKept.raisePh n _ _).boundaryKept) ks _)

theorem portStart (m : Mach) (p : Nat) : m.BoundaryKept (m.portStart p) := by
  unfold Mach.portStart
  extract_lets i n port o
  refine ite (refl m) ?_
  have ho : m.BoundaryKept o := ((Mach.TablesKept.hemStart m p).trans (.updPort _ _ _)).boundaryKept
  exact (ho.trans (dropNodes _ _)).trans (Mach.TablesKept.portRegs _ _).boundaryKept

theorem portsStart (m : Mach) : m.BoundaryKept m.portsStart := foldl portStart _ m

theorem portsStop (m : Mach) : m.BoundaryKept m.portsStop := by
  unfold Mach.portsStop
  extract_lets n ph o q
  have hn : m.BoundaryKept n := (Mach.TablesKept.foldl Mach.TablesKept.portStop _ m).boundaryKept.trans (dropNodes _ _)
  have hq : n.TablesKept q := (Mach.TablesKept.withHub n _ (by rfl)).trans (.mapLanes _ (fun _ => by rfl) (fun _ => by rfl))
  exact hn.trans (hq.trans (.foldl .portRegs _ _)).boundaryKept

theorem portsBoundary (m : Mach) : m.BoundaryKept m.portsBoundary := ite (portsStart m) (ite (portsStop m) (refl m))

end Mach.BoundaryKept

/-! ### CLUSTER_BOUNDARY (R242) -/

/-- The nodes that the Port Hub has marked as leaving. -/
def Mach.leavers (m : Mach) : List Nat := (m.ph.nodes.filter (fun (e : Nat × Node) => e.2.leaving)).map (·.1)

theorem Mach.nodesLeave_eq (m : Mach) : m.nodesLeave = m.leavers.foldl Mach.setAbsent m := rfl

theorem Mach.mem_leavers {m : Mach} {a : Nat} (h : (m.node a).leaving = true) : a ∈ m.leavers := by
  have hentry : ∃ e ∈ m.ph.nodes, e.1 = a ∧ e.2.leaving = true := by
    by_contra hno
    have hnone : (m.node a).leaving = false :=
      Store.get_of_forall (P := fun n : Node => n.leaving = false) (fun e he ha => by
        by_contra hl
        exact hno ⟨e, he, ha, by simpa using hl⟩) rfl
    rw [h] at hnone
    exact absurd hnone (by decide)
  obtain ⟨e, he, rfl, hl⟩ := hentry
  exact List.mem_map_of_mem (List.mem_filter.mpr ⟨he, hl⟩)

theorem Mach.nodesLeave_gone {m : Mach} {a : Nat} (h : (m.node a).leaving = true) : m.nodesLeave.Gone a := by
  rw [Mach.nodesLeave_eq]
  exact foldl_of_mem (P := fun n => n.Gone a) (Q := fun _ => True) (Mach.mem_leavers h) trivial (fun _ _ _ _ => trivial)
    (fun n _ => n.setAbsent_gone a) fun n hn b _ => (Mach.BoundaryKept.setAbsent n b).gone a hn

/-- The boundary up to the leaving of nodes. -/
def Mach.boundaryStart (m : Mach) : Mach := m.countCluster.rinse.shadowCopy

/-- What the boundary brings once the nodes have left. -/
def Mach.boundaryRest (m : Mach) : Mach :=
  let m := (((m.switchSchedules.portsBoundary).portsRewind).worstErr.heardRegs).pairBoundary
  let m := m.clkBoundary m.cycling
  let m := if modeActive m.sys.mode then m
    else m.mapLanes (fun x => { x with fedOut := x.fedOut.filter (fun e => decide (e.2.1 ≠ 4)) })
  m.updSys (fun s => { s with active := modeActive s.mode })

theorem Mach.clusterBoundary_eq (m : Mach) : m.clusterBoundary = m.boundaryStart.nodesLeave.boundaryRest := rfl

theorem Mach.TablesKept.boundaryStart (m : Mach) : m.TablesKept m.boundaryStart := ((countCluster m).trans (rinse _)).trans (shadowCopy _)

theorem Mach.BoundaryKept.boundaryRest (m : Mach) : m.BoundaryKept m.boundaryRest := by
  unfold Mach.boundaryRest
  extract_lets n o p
  have hn : m.BoundaryKept n := ((Mach.TablesKept.switchSchedules m).boundaryKept.trans (portsBoundary _)).trans
    ((((Mach.TablesKept.portsRewind _).trans (.worstErr _)).trans (.heardRegs _)).trans (.pairBoundary _)).boundaryKept
  have ho : n.TablesKept o := .clkBoundary n _
  have hp : n.TablesKept p := .ite ho (ho.trans (.mapLanes _ (fun _ => by rfl) (fun _ => by rfl)))
  exact hn.trans (hp.trans (.updSys _ fun _ => by rfl)).boundaryKept

theorem Mach.clusterBoundary_spec (m : Mach) : m.Quiet m.clusterBoundary ∧ ∀ a, (m.node a).leaving = true → m.clusterBoundary.Gone a := by
  have hstart := Mach.TablesKept.boundaryStart m
  have hleave : m.boundaryStart.BoundaryKept m.boundaryStart.nodesLeave := .foldl .setAbsent _ _
  have hrest := Mach.BoundaryKept.boundaryRest m.boundaryStart.nodesLeave
  have hall := (hstart.boundaryKept.trans hleave).trans hrest
  rw [Mach.clusterBoundary_eq]
  refine ⟨⟨hall.mode, hall.si⟩, fun a ha => hrest.gone a (Mach.nodesLeave_gone ?_)⟩
  unfold Mach.node at ha ⊢
  rwa [hstart.nodes]

theorem completes_clusterBoundary {s : State} (h : s.m.sys.originAgreed = true) : Completes .clusterBoundary s (fun m =>
    s.m.Quiet m ∧ ∀ a, (s.m.node a).leaving = true → m.Gone a) := by
  obtain ⟨hquiet, hgone⟩ := s.m.clusterBoundary_spec
  refine completes_of_run (fun m => if m.sys.originAgreed then m.clusterBoundary else m) rfl ?_ ?_ <;> rw [if_pos h]
  · exact hquiet.1
  · exact ⟨hquiet, hgone⟩

/-! ### The statement -/

/-- Settles O36: each write changes its own register, then its effect touches one part of the module; at a boundary a node that leaves is
marked in no entry of the tables, and no later step of the boundary marks it again. -/
theorem registersWithEffects : Obligations.RegistersWithEffects := by
  unfold Obligations.RegistersWithEffects
  refine fun s q => ⟨fun h => ?_, fun k hk h => completes_signatureInject hk h, completes_handbackRelease,
    fun p k o h => completes_nodeLeaveRequest h, fun a o h => completes_quarantineRelease h, fun h => ?_,
    fun w h hstart hdev => completes_bistStart h hstart hdev, fun w h hstart => completes_bistStart_idle h hstart⟩
  · obtain ⟨m, he, hquiet, hlane⟩ := completes_queueFlush h
    exact ⟨m, he, hquiet, Mach.mode_of_takes_flush h, hlane⟩
  · obtain ⟨m, he, hquiet, hgone⟩ := completes_clusterBoundary h
    exact ⟨m, he, hquiet, fun a ha => ⟨(hgone a ha).node.1, (hgone a ha).comm⟩⟩

end Sys2Proof.Machine

/-! # A slot behind another entry of its key at the admission of routes (R119) -/
namespace Sys2Proof.Machine

/-- An image of three objects, of which 1 and 2 are signals (class 3). -/
def twoSignals : Mem := [(0x1A, 1), (0x101, 1), (0x107, 3), (0x10E, 0x10), (0x1042, 3), (0x1082, 3)]

/-- Signal 1 is locked by route 0, signal 2 by route 1. -/
def twoLocks : SI := (SI.upd [] 1 (fun e => { e with lockKind := 1 })).upd 2 (fun e => { e with lockKind := 1, routeLock := 1 })

/-- A Press that writes both locks. -/
def twoLocksPress : PressOut :=
  { si := twoLocks, log := [], results := [], queue := [], deferred := [], converted := [], throws := [], seen := [], written := [1, 2],
    changed := [1, 2], moved := [], permissive := [], nowLow := [], lifts := [], rearmed := false, committed := 0 }

/-- A lane with this Press staged, whose table of slots lists key 0 twice: as empty, and with a slot of route 1. -/
def Lane.hideSlot (x : Lane) : Lane :=
  { x with loaded := true, dram := twoSignals, zvl := { x.zvl with slots := [(0, none), (0, some (Slot.fresh 1 []))] },
           rte := { x.rte with press := some twoLocksPress } }

/-- A module in SERVICE_3 at the window of its Press, every lane so. -/
def State.hiddenSlot : State :=
  let m := { Mach.reset with sys := { Mach.reset.sys with mode := 6, bc := 13, originAgreed := true } }
  ⟨m.mapLanes Lane.hideSlot, []⟩

/-- After a PRESS_WINDOW_COMPARE in which nothing is lost: the exclusions due, the class of object 2, and the routes of lane A's slots and
of those without one. -/
def State.admission (s : State) : Option (List (LaneId × Nat × Nat) × Nat × List Nat × List Nat) :=
  match exec (.pressWindowCompare ⟨[], [], [], []⟩) s with
  | .next t => some (t.m.sys.pendingExcl, t.m.a.img.cls 2, t.m.a.zvl.slotList.map (·.2.route), t.m.a.zvl.slotless)
  | _ => none

/-- What the statement asks of the state before the window. -/
theorem hiddenSlot_runs : State.hiddenSlot.m.leadLane.rte.press = some twoLocksPress ∧ State.hiddenSlot.m.sys.bc = 13 ∧
    State.hiddenSlot.m.a.rte.press = some twoLocksPress ∧ State.hiddenSlot.m.a.follows = true ∧ State.hiddenSlot.m.a.loaded = true := by
  decide +kernel

theorem twoLocks_signal : (SI.at twoLocksPress.si 2).lockKind = 1 ∧ (SI.at twoLocksPress.si 2).routeLock = 1 := by decide

/-- Route 1 has a slot in the list, so it is not admitted; route 0 is, and its slot takes key 0, which reads free, from both entries. -/
theorem admission_hiddenSlot : State.hiddenSlot.admission = some ([], 3, [0], []) := by decide +kernel

theorem State.admission_of_completes {s : State} {P : Mach → Prop} (h : Completes (.pressWindowCompare ⟨[], [], [], []⟩) s P) :
    ∃ m, P m ∧ s.admission = some (m.sys.pendingExcl, m.a.img.cls 2, m.a.zvl.slotList.map (·.2.route), m.a.zvl.slotless) := by
  obtain ⟨m, he, hp⟩ := h
  refine ⟨m, hp, ?_⟩
  unfold State.admission
  rw [he]

/-- Refutes O21: lane A commits a Press that locks signal 2 with route 1, and route 1 then has no slot and stands among those without one
neither. ZVL admits no route that a listed slot names, and finds a free slot by key: where the table lists a key twice, empty first, the
slot behind it is overwritten; the statement does not ask that the slot stores of its states be canonical. -/
theorem not_pressCommits : ¬ Obligations.PressCommits := by
  unfold Obligations.PressCommits
  intro h
  obtain ⟨hlead, hbc, hpress, hfollows, hloaded⟩ := hiddenSlot_runs
  obtain ⟨m, hm, he⟩ := State.admission_of_completes (h State.hiddenSlot ⟨[], [], [], []⟩ (by rw [hlead]; simp) hbc)
  rw [admission_hiddenSlot] at he
  obtain ⟨hexcl, hcls, hroutes, hslotless⟩ : [] = m.sys.pendingExcl ∧ 3 = m.a.img.cls 2 ∧ [0] = m.a.zvl.slotList.map (·.2.route) ∧
      [] = m.a.zvl.slotless := by simpa using he
  obtain ⟨-, hcommits, -⟩ := hm .a hfollows hloaded
  obtain ⟨-, -, -, -, hadmitted, -⟩ := hcommits twoLocksPress hpress (by rw [← hexcl]; simp)
  obtain ⟨hkind, hlock⟩ := twoLocks_signal
  have hroute1 := hadmitted 2 (by decide) hcls.symm (by rw [hkind]; decide)
  rw [hlock] at hroute1
  obtain ⟨t, ht, hroute⟩ | hnoSlot := hroute1
  · have hlisted : (1 : Nat) ∈ m.a.zvl.slotList.map (·.2.route) := List.mem_map.mpr ⟨t, ht, hroute⟩
    rw [← hroutes] at hlisted
    exact absurd hlisted (by decide)
  · have hlisted : (1 : Nat) ∈ m.a.zvl.slotless := hnoSlot
    rw [← hslotless] at hlisted
    exact absurd hlisted (by decide)

end Sys2Proof.Machine


/-! # The degraded limit where the lanes' own timings differ (R156) -/
namespace Sys2Proof.Machine

/-- A module in SERVICE_2, lane C out of service: the lead lane A has a second of the degraded limit to run, lane B none. -/
def State.limitApart : State :=
  let m := { Mach.reset with sys := { Mach.reset.sys with mode := 7 } }
  let m := (m.putAll F.RED_STATUS_DEGRADED 1).updLane .a (fun x => { x with regs := x.regs.put F.RED_DEGRADED_REMAIN_SECONDS 1 })
  ⟨m.updLane .c (fun x => { x with role := .excluded }), []⟩

/-- The mode after the command in `s`. -/
def State.modeAfter (s : State) (c : Instr) : Option Nat :=
  match exec c s with
  | .next t => some t.m.sys.mode
  | _ => none

theorem State.modeAfter_of_completes {s : State} {c : Instr} {k : Nat} {P : Mach → Prop} (h : Completes c s P)
    (hk : ∀ m, P m → m.sys.mode = k) : s.modeAfter c = some k := by
  obtain ⟨m, he, hp⟩ := h
  unfold State.modeAfter
  rw [he]
  exact congrArg some (hk m hp)

theorem limitApart_runs : State.limitApart.m.fld F.RED_STATUS_DEGRADED = 1 ∧ State.limitApart.m.fld F.RED_DEGRADED_REMAIN_SECONDS ≠ 0 ∧
    State.limitApart.m.sys.mode = 7 := by decide +kernel

/-- The earlier of the two timings governs (`Mach.limitWithin`). -/
theorem modeAfter_limitApart : State.limitApart.modeAfter .degradedLimitExpiry = some 14 := by decide +kernel

/-- Refutes O28: the lead lane A's timing has a second to run, lane B's none, and the module halts. The earlier of the serving lanes' timings
governs, where the statement reads the lead lane's alone and has nothing happen. -/
theorem not_degradedLimit : ¬ Obligations.DegradedLimit := by
  unfold Obligations.DegradedLimit
  intro h
  obtain ⟨hdeg, hremain, hmode⟩ := limitApart_runs
  obtain ⟨-, hidle, -⟩ := h State.limitApart rfl hdeg
  have hkept : State.limitApart.modeAfter .degradedLimitExpiry = some 7 :=
    State.modeAfter_of_completes (hidle hremain) fun m hm => by rw [hm]; exact hmode
  rw [modeAfter_limitApart] at hkept
  exact absurd hkept (by decide)

end Sys2Proof.Machine

/-! # A SAFE_HALT out of DARN, with the snapshot of R159 taken (R154, R156) -/
namespace Sys2Proof.Machine

theorem Lane.RegsOnly.snap {x y : Lane} (h : x.RegsOnly y) : y.snap = x.snap := by rw [h]

/-- A module in DARN, lane C joining, for which a SAFE_HALT with cause 4 is due; lane A has taken the snapshot of R159 step 6. -/
def State.haltInDarn : State :=
  let m := { Mach.reset with sys := { Mach.reset.sys with mode := 10, pendingHalt := some 4 } }
  let m := m.updLane .a (fun x => { x with snap := some ⟨[], Rte.reset⟩ })
  ⟨m.updLane .c (fun x => { x with role := .joining }), []⟩

/-- Whether lane A holds a snapshot after EXCLUSION_ENACTED in `s`. -/
def State.snapAfterEnactment (s : State) : Option Bool :=
  match exec .exclusionEnacted s with
  | .next t => some t.m.a.snap.isSome
  | _ => none

theorem haltInDarn_runs : State.haltInDarn.m.sys.pendingHalt = some 4 ∧ State.haltInDarn.m.sys.pendingExcl = [] ∧
    State.haltInDarn.m.resetDue = false ∧ State.haltInDarn.m.sys.mode ∉ [0, 1, 13, 14] ∧ State.haltInDarn.m.a.snap.isSome = true := by
  decide +kernel

/-- A transition out of DARN drops the snapshot (`Mach.dropJoiner`). -/
theorem snapAfterEnactment_haltInDarn : State.haltInDarn.snapAfterEnactment = some false := by decide +kernel

theorem State.snapAfterEnactment_of_completes {s : State} {P : Mach → Prop} (h : Completes .exclusionEnacted s P)
    (hr : ∀ m, P m → s.m.RegsOnly m) : s.snapAfterEnactment = some s.m.a.snap.isSome := by
  obtain ⟨m, he, hp⟩ := h
  have hlane : m.a.snap = s.m.a.snap := ((hr m hp).1 .a).snap
  unfold State.snapAfterEnactment
  rw [he]
  exact congrArg some (by rw [← hlane])

/-- Refutes O24: a SAFE_HALT enacted in DARN drops the snapshot that lane A has taken for the joining lane. The statement has a halt that comes
alone leave all of a lane but registers, event staging, role and probation, in every mode that a halt can end. -/
theorem not_exclusionEnacted : ¬ Obligations.ExclusionEnacted := by
  unfold Obligations.ExclusionEnacted
  intro h
  obtain ⟨hdue, hexcl, hreset, hmode, hsnap⟩ := haltInDarn_runs
  obtain ⟨-, halone, -⟩ := h State.haltInDarn .c 4 0 rfl (by decide)
  have hkept := State.snapAfterEnactment_of_completes (halone hreset hdue hexcl hmode) fun m hm => hm.2.2
  rw [snapAfterEnactment_haltInDarn, hsnap] at hkept
  exact absurd hkept (by decide)

end Sys2Proof.Machine


/-! # Compare windows (R147 to R150, R155, R452) -/
namespace Sys2Proof.Machine

/-! ### A window in its parts -/

/-- The ordered pairs of different lanes of a list. -/
def pairsOf (ls : List LaneId) : List (LaneId × LaneId) := ls.flatMap (fun x => (ls.filter (fun y => decide (y ≠ x))).map (fun y => (x, y)))

theorem mem_pairsOf {ls : List LaneId} {x y : LaneId} : (x, y) ∈ pairsOf ls ↔ x ∈ ls ∧ y ∈ ls ∧ y ≠ x := by
  simp [pairsOf]

/-- Lanes of the list hold signatures of each other that differ, or none. -/
def differIn (e : Exchange) (sig : LaneId → Option W64) (ls : List LaneId) : Bool :=
  (pairsOf ls).any (fun p => !sigEq (seenSig e sig p.1 p.2) (sig p.2))

/-- A direct link between two lanes of the list has lost a signature or a verdict. -/
def loseIn (e : Exchange) (ls : List LaneId) : Bool := (pairsOf ls).any (fun p => e.sigLost.contains p || e.verdictLost.contains p)

/-- The lanes that lane `l` names in a window with these signatures (R148, R151). -/
def Mach.names (m : Mach) (e : Exchange) (sig : LaneId → Option W64) (l : LaneId) : List LaneId :=
  if !m.comparers.contains l then []
  else withSelf m l (if !m.voters.contains l then
      (if m.voters.any (fun k => !sigEq (sig l) (seenSig e sig k l)) then [l] else [])
    else match m.voters.filter (fun p => decide (p ≠ l)) with
    | [x, z] => verdict3 e sig l x z
    | [x] => verdict2 e sig l x
    | _ => [])

/-- The lanes that keep their signatures. -/
def Mach.signed (m : Mach) (w : Nat) (sig : LaneId → Option W64) : Mach :=
  laneIds.foldl (fun (n : Mach) l =>
    match sig l with
    | some s => if n.signs w l && !n.laneTested l then n.updLane l (fun x => x.keepSignature w s) else n
    | none => n) m

/-- The registers of the window in every lane that compares. -/
def Mach.compared (m : Mach) (w : Nat) (e : Exchange) (sig : LaneId → Option W64) (n : Mach) : Mach :=
  m.comparers.foldl (fun (n : Mach) l => n.updLane l
    (Lane.windowRegs l m.comparers e w n.sys.bc n.sys.cluster (differIn e sig m.comparers)
      (laneSet (fun x => m.comparers.contains x && (seenSig e sig x l).isNone)) (verdictBits (m.names e sig l))
      (verdictBits (m.names e sig .a) + 16 * verdictBits (m.names e sig .b) + 256 * verdictBits (m.names e sig .c)))) n

/-- The interrupts of a window. -/
def Mach.windowRaised (m : Mach) (e : Exchange) (sig : LaneId → Option W64) (n : Mach) : Mach :=
  let n := if differIn e sig m.comparers then n.raiseAll .vot I.VOT_MISMATCH else n
  let n := if m.comparers.any (fun l => decide (verdictBits (m.names e sig l) ≠ verdictBits (m.names e sig (m.voters.headD .a)))) then
    n.raiseAll .vot I.VOT_VERDICT else n
  if loseIn e m.comparers || !e.retries.isEmpty then n.raiseAll .vot I.VOT_LINK else n

/-- The voting lanes that name themselves (R151). -/
def Mach.selfNamed (m : Mach) : List LaneId := m.voters.filter (fun l => !(m.lane l).selfFaults.isEmpty)

/-- Their exclusions in window `w`. -/
def Mach.selfExclusions (m : Mach) (w : Nat) : List (LaneId × Nat × Nat) := m.selfNamed.map (fun l => (l, (m.lane l).selfFaults.headD w, w))

/-- What is decided of the voting lanes (R149, R150, R155, R452). -/
def Mach.windowRuled (m : Mach) (w : Nat) (e : Exchange) (sig : LaneId → Option W64) (n : Mach) : Mach :=
  let held := fun (l : LaneId) => verdictHeld e m.voters l (m.names e sig l)
  if m.voters.length = 3 then
    n.updSys (fun s => { s with pendingExcl := s.pendingExcl ++ m.decide3 w (held .a) (held .b) (held .c) })
  else if mode155 m.sys.mode then
    if differIn e sig m.voters || loseIn e m.voters || !m.selfNamed.isEmpty then
      n.updSys (fun s => { s with pendingHalt := some (haltCause2 m m.voters), pendingExcl := s.pendingExcl ++ m.selfExclusions w })
    else n
  else n.updSys (fun s => { s with pendingExcl := s.pendingExcl ++ m.selfExclusions w })

/-- What is decided of a joining lane (R159, R160). -/
def Mach.windowJoiner (m : Mach) (w : Nat) (e : Exchange) (sig : LaneId → Option W64) (n : Mach) : Mach :=
  match m.joiner with
  | none => n
  | some j =>
    if !(m.lane j).selfFaults.isEmpty then n.nameJoiner j w
    else if (m.lane j).probation then
      if m.voters.all (fun l => sigEq (sig l) (seenSig e sig j l) && sigEq (sig j) (seenSig e sig l j)) then n else n.nameJoiner j w
    else if m.darnStep = 7 ∧ w = 3 then
      if sigEq (sig j) (sig (m.voters.headD .a)) then n.updSys (fun s => { s with track := s.track + 1 })
      else n.updSys (fun s => { s with track := 0 })
    else n

/-- A window as the lanes show it. -/
def Mach.windowShown (m : Mach) (w : Nat) (e : Exchange) (sig : LaneId → Option W64) : Mach :=
  m.windowRaised e sig (m.compared w e sig (m.signed w sig))

theorem Mach.window_eq (m : Mach) (w : Nat) (e : Exchange) : m.window w e =
    m.windowJoiner w e (m.signature w) (m.windowRuled w e (m.signature w) (m.windowShown w e (m.signature w))) := by
  have hsig : m.signature w = fun l => match l with | .a => m.signature w .a | .b => m.signature w .b | .c => m.signature w .c := by
    funext l
    cases l <;> rfl
  rw [hsig]
  rfl

/-! ### What a window shows (R147, R148) -/

/-- What every step of a fold leaves, the fold leaves. -/
theorem foldl_keeps {α β γ : Type} (g : β → γ) {op : β → α → β} (h : ∀ b a, g (op b a) = g b) (l : List α) (b : β) : g (l.foldl op b) = g b :=
  List.foldlRecOn (motive := fun c => g c = g b) l op rfl (fun c hc a _ => (h c a).trans hc)

/-- A raised interrupt stays raised when another one is. -/
theorem Mach.Raised.raiseAll {m : Mach} {b : Blk} {i : Nat} (h : m.Raised b i) (c : Blk) {j : Nat} (hj : j < 32) : (m.raiseAll c j).Raised b i :=
  fun l => by
    rw [Mach.lane_raiseAll]
    exact Regs.bit_setBit_keeps _ _ _ _ _ hj (h l)

section
variable (m : Mach) (w : Nat) (e : Exchange) (sig : LaneId → Option W64)

/-- The module, the Port Hub and what was sent. -/
def Mach.besideLanes (m : Mach) : Sys × Ph × List Output := (m.sys, m.ph, m.out)

theorem Mach.besideLanes_updLane (n : Mach) (l : LaneId) (f : Lane → Lane) : (n.updLane l f).besideLanes = n.besideLanes := by
  simp [Mach.besideLanes]

theorem Mach.besideLanes_compared : (m.compared w e sig (m.signed w sig)).besideLanes = m.besideLanes := by
  have hsigned : (m.signed w sig).besideLanes = m.besideLanes := by
    refine foldl_keeps Mach.besideLanes (fun n l => ?_) _ _
    split
    · split
      · exact Mach.besideLanes_updLane _ _ _
      · rfl
    · rfl
  exact (foldl_keeps Mach.besideLanes (fun n l => Mach.besideLanes_updLane _ _ _) _ _).trans hsigned

theorem Mach.windowRaised_frame (n : Mach) : (m.windowRaised e sig n).sys = n.sys ∧ (m.windowRaised e sig n).ph = n.ph := by
  unfold Mach.windowRaised
  dsimp only
  constructor <;> (repeat' split) <;> simp

theorem Mach.windowShown_frame : (m.windowShown w e sig).sys = m.sys ∧ (m.windowShown w e sig).ph = m.ph := by
  have hcompared := m.besideLanes_compared w e sig
  obtain ⟨hsys, hph⟩ := m.windowRaised_frame e sig (m.compared w e sig (m.signed w sig))
  exact ⟨hsys.trans (congrArg (·.1) hcompared), hph.trans (congrArg (·.2.1) hcompared)⟩

variable {e sig}

/-- A window in which nothing differs, nothing is lost and all lanes name the same sends nothing. -/
theorem Mach.windowShown_out (hdiffer : differIn e sig m.comparers = false) (hlose : loseIn e m.comparers = false) (hretry : e.retries = [])
    (hnames : ∀ l ∈ m.comparers, m.names e sig l = m.names e sig (m.voters.headD .a)) : (m.windowShown w e sig).out = m.out := by
  have hall : m.comparers.any (fun l => decide (verdictBits (m.names e sig l) ≠ verdictBits (m.names e sig (m.voters.headD .a)))) = false :=
    List.any_eq_false.mpr fun l hl => by simp [hnames l hl]
  unfold Mach.windowShown Mach.windowRaised
  rw [hdiffer, hall, hlose, hretry]
  exact congrArg (·.2.2) (m.besideLanes_compared w e sig)

/-- Signatures that differ raise MISMATCH. -/
theorem Mach.raised_windowShown (hdiffer : differIn e sig m.comparers = true) : (m.windowShown w e sig).Raised .vot I.VOT_MISMATCH := by
  have hraised : ((m.compared w e sig (m.signed w sig)).raiseAll .vot I.VOT_MISMATCH).Raised .vot I.VOT_MISMATCH :=
    Mach.raised_raiseAll _ .vot (by decide)
  unfold Mach.windowShown Mach.windowRaised
  rw [hdiffer, if_pos rfl]
  generalize (m.compared w e sig (m.signed w sig)).raiseAll .vot I.VOT_MISMATCH = n at hraised
  dsimp only
  have hverdict : ∀ c : Bool, (if c then n.raiseAll .vot I.VOT_VERDICT else n).Raised .vot I.VOT_MISMATCH := fun c => by
    split
    · exact hraised.raiseAll .vot (by decide)
    · exact hraised
  split
  · exact (hverdict _).raiseAll .vot (by decide)
  · exact hverdict _

theorem differIn_of_pair {ls : List LaneId} {x y : LaneId} (hx : x ∈ ls) (hy : y ∈ ls) (hxy : y ≠ x)
    (h : sigEq (seenSig e sig x y) (sig y) = false) : differIn e sig ls = true :=
  List.any_eq_true.mpr ⟨(x, y), mem_pairsOf.mpr ⟨hx, hy, hxy⟩, by rw [h]; rfl⟩

theorem differIn_of_alike {ls : List LaneId} (h : ∀ x ∈ ls, ∀ y ∈ ls, sigEq (seenSig e sig x y) (sig y) = true) : differIn e sig ls = false :=
  List.any_eq_false.mpr fun p hp => by
    obtain ⟨hx, hy, -⟩ := mem_pairsOf.mp hp
    rw [h _ hx _ hy]
    decide

theorem loseIn_of_quiet (hsig : e.sigLost = []) (hverdict : e.verdictLost = []) (ls : List LaneId) : loseIn e ls = false :=
  List.any_eq_false.mpr fun p _ => by simp [hsig, hverdict]

theorem seenSig_of_quiet (hsig : e.sigLost = []) (x y : LaneId) : seenSig e sig x y = sig x := by
  unfold seenSig
  rw [if_neg (by simp [hsig])]

theorem verdictHeld_of_quiet (hverdict : e.verdictLost = []) (ls : List LaneId) (y : LaneId) (v : List LaneId) : verdictHeld e ls y v = v := by
  unfold verdictHeld
  rw [if_neg (by simp [hverdict])]

end

theorem sigEq_some (u v : W64) : sigEq (some u) (some v) = decide (u = v) := rfl

/-! ### Three lanes that vote (R148 to R150) -/

theorem Mach.role_of_mem_voters {m : Mach} {l : LaneId} (h : l ∈ m.voters) : (m.lane l).role = .serving := by
  have hs := (List.mem_filter.mp (List.mem_filter.mp h).1).2
  unfold Lane.isServing at hs
  simpa using hs

theorem Mach.joiner_eq_none {m : Mach} (h : ∀ l, (m.lane l).role ≠ .joining) : m.joiner = none :=
  List.find?_eq_none.mpr fun l _ => by simpa using h l

section
variable {m : Mach} (hall : ∀ l, l ∈ m.voters)
include hall

theorem Mach.voters_of_all : m.voters = laneIds := by
  have hserving : m.serving = laneIds := List.filter_eq_self.mpr fun l _ => (List.mem_filter.mp (List.mem_filter.mp (hall l)).1).2
  unfold Mach.voters
  rw [hserving]
  exact List.filter_eq_self.mpr fun l _ => (List.mem_filter.mp (hall l)).2

theorem Mach.comparers_of_all : m.comparers = laneIds := by
  have hnone : laneIds.filter (fun l => (m.lane l).probation && !m.voters.contains l) = [] :=
    List.filter_eq_nil_iff.mpr fun l _ => by simp [hall l]
  unfold Mach.comparers
  rw [hnone, List.append_nil, Mach.voters_of_all hall]

theorem Mach.joiner_of_all : m.joiner = none := Mach.joiner_eq_none fun l => by
  rw [Mach.role_of_mem_voters (hall l)]
  decide

end

/-- The two other lanes, in the order A, B, C. -/
def peersOf : LaneId → LaneId × LaneId
  | .a => (.b, .c)
  | .b => (.a, .c)
  | .c => (.a, .b)

theorem filter_peersOf (l : LaneId) : laneIds.filter (fun p => decide (p ≠ l)) = [(peersOf l).1, (peersOf l).2] := by cases l <;> rfl

theorem peersOf_ne (l : LaneId) : (peersOf l).1 ≠ l ∧ (peersOf l).2 ≠ l ∧ (peersOf l).1 ≠ (peersOf l).2 := by cases l <;> decide

theorem eq_peersOf {l p : LaneId} (h : p ≠ l) : p = (peersOf l).1 ∨ p = (peersOf l).2 := by
  revert h
  cases l <;> cases p <;> decide

section
variable {e : Exchange} {sig : LaneId → Option W64} {x y z : LaneId} {u : W64}

theorem sigEq_some_eq_false {a : Option W64} (h : a ≠ some u) : sigEq a (some u) = false ∧ sigEq (some u) a = false := by
  cases a with
  | none => exact ⟨rfl, rfl⟩
  | some v =>
    have hne : v ≠ u := fun hv => h (congrArg some hv)
    exact ⟨by simp [sigEq, hne], by simp [sigEq, hne.symm]⟩

theorem verdict3_alike (hy : sig y = some u) (hx : seenSig e sig x y = some u) (hz : seenSig e sig z y = some u) : verdict3 e sig y x z = [] := by
  simp [verdict3, hy, hx, hz, sigEq]

theorem verdict3_own (hy : sig y ≠ some u) (hx : seenSig e sig x y = some u) (hz : seenSig e sig z y = some u) : verdict3 e sig y x z = [y] := by
  obtain ⟨hne, -⟩ := sigEq_some_eq_false hy
  unfold verdict3
  dsimp only
  rw [hx, hz, hne]
  simp [sigEq]

theorem verdict3_first (hy : sig y = some u) (hx : seenSig e sig x y ≠ some u) (hz : seenSig e sig z y = some u) : verdict3 e sig y x z = [x] := by
  obtain ⟨hne, hne'⟩ := sigEq_some_eq_false hx
  unfold verdict3
  dsimp only
  rw [hy, hz, hne, hne']
  simp [sigEq]

theorem verdict3_second (hy : sig y = some u) (hx : seenSig e sig x y = some u) (hz : seenSig e sig z y ≠ some u) : verdict3 e sig y x z = [z] := by
  obtain ⟨hne, hne'⟩ := sigEq_some_eq_false hz
  unfold verdict3
  dsimp only
  rw [hy, hx, hne']
  simp [sigEq]

end

section
variable {m : Mach} {e : Exchange} {sig : LaneId → Option W64} {u : W64} {y : LaneId} (hall : ∀ l, l ∈ m.voters) (hself : (m.lane y).selfFaults = [])
include hall hself

theorem Mach.names_of_all : m.names e sig y = verdict3 e sig y (peersOf y).1 (peersOf y).2 := by
  have hmem : laneIds.contains y = true := by simp [mem_laneIds]
  unfold Mach.names withSelf
  rw [Mach.comparers_of_all hall, Mach.voters_of_all hall, filter_peersOf, hmem, hself]
  rfl

theorem Mach.names_alike (hown : sig y = some u) (hseen : ∀ q, q ≠ y → seenSig e sig q y = some u) : m.names e sig y = [] := by
  obtain ⟨h1, h2, -⟩ := peersOf_ne y
  rw [Mach.names_of_all hall hself, verdict3_alike hown (hseen _ h1) (hseen _ h2)]

theorem Mach.names_own (hown : sig y ≠ some u) (hseen : ∀ q, q ≠ y → seenSig e sig q y = some u) : m.names e sig y = [y] := by
  obtain ⟨h1, h2, -⟩ := peersOf_ne y
  rw [Mach.names_of_all hall hself, verdict3_own hown (hseen _ h1) (hseen _ h2)]

theorem Mach.names_peer {p : LaneId} (hp : p ≠ y) (hown : sig y = some u) (hodd : seenSig e sig p y ≠ some u)
    (hseen : ∀ q, q ≠ y → q ≠ p → seenSig e sig q y = some u) : m.names e sig y = [p] := by
  obtain ⟨h1, h2, h12⟩ := peersOf_ne y
  rw [Mach.names_of_all hall hself]
  rcases eq_peersOf hp with rfl | rfl
  · exact verdict3_first hown hodd (hseen _ h2 h12.symm)
  · exact verdict3_second hown (hseen _ h1 h12) hodd

end

/-! ### The exclusion rules on equal, odd and mutual verdicts (R149, R150) -/

section
variable (m : Mach) (w : Nat)

theorem Mach.decide3_none : m.decide3 w [] [] [] = [] := rfl

theorem Mach.decide3_odd (l : LaneId) : m.decide3 w [l] [l] [l] = [(l, (m.lane l).selfFaults.headD w, w)] := by cases l <;> rfl

/-- Two lanes that name each other alone lose the later of them, with cause 5. -/
theorem Mach.decide3_mutual {v : LaneId → List LaneId} {x y : LaneId} (h : laneIx x < laneIx y) (hx : v x = [y]) (hy : v y = [x])
    (hz : ∀ z, z ≠ x → z ≠ y → v z = []) : m.decide3 w (v .a) (v .b) (v .c) = [(y, 5, w)] := by
  cases x <;> cases y
  case a.b => rw [hx, hy, hz .c (by decide) (by decide)]; rfl
  case a.c => rw [hx, hy, hz .b (by decide) (by decide)]; rfl
  case b.c => rw [hx, hy, hz .a (by decide) (by decide)]; rfl
  all_goals exact absurd h (by decide)

end

/-! ### What a window decides with three lanes that vote -/

/-- An exchange in which every copy came at once. -/
def quietExchange : Exchange := ⟨[], [], [], []⟩

theorem Mach.raised_updSys {m : Mach} {f : Sys → Sys} {b : Blk} {i : Nat} (h : m.Raised b i) : (m.updSys f).Raised b i := fun l => by
  rw [Mach.lane_updSys]
  exact h l

section
variable {m : Mach} {w : Nat} {e : Exchange} (hall : ∀ l, l ∈ m.voters)
include hall

theorem Mach.window_of_all (hverdict : e.verdictLost = []) : m.window w e = (m.windowShown w e (m.signature w)).updSys (fun s =>
    { s with pendingExcl := s.pendingExcl ++
      m.decide3 w (m.names e (m.signature w) .a) (m.names e (m.signature w) .b) (m.names e (m.signature w) .c) }) := by
  have hlen : m.voters.length = 3 := by rw [Mach.voters_of_all hall]; rfl
  rw [Mach.window_eq, Mach.windowJoiner, Mach.joiner_of_all hall]
  dsimp only
  unfold Mach.windowRuled
  dsimp only
  rw [if_pos hlen]
  simp only [verdictHeld_of_quiet hverdict]

theorem Mach.sys_window_of_all (hverdict : e.verdictLost = []) : (m.window w e).sys =
    { m.sys with pendingExcl := m.sys.pendingExcl ++
        m.decide3 w (m.names e (m.signature w) .a) (m.names e (m.signature w) .b) (m.names e (m.signature w) .c) } := by
  rw [Mach.window_of_all hall hverdict, Mach.updSys_sys, (m.windowShown_frame w e _).1]

variable (hself : ∀ l, (m.lane l).selfFaults = []) {u : W64}
include hself

/-- Equal signatures decide nothing, and nothing is sent. -/
theorem Mach.window_alike (hsig : ∀ l, m.signature w l = some u) : (m.window w quietExchange).sys = m.sys ∧
    (m.window w quietExchange).ph = m.ph ∧ (m.window w quietExchange).out = m.out := by
  have hseen : ∀ x y, seenSig quietExchange (m.signature w) x y = some u := fun x y => by rw [seenSig_of_quiet rfl, hsig]
  have hnames : ∀ l, m.names quietExchange (m.signature w) l = [] := fun l =>
    Mach.names_alike hall (hself l) (hsig l) fun q _ => hseen q l
  have hdiffer : differIn quietExchange (m.signature w) m.comparers = false := differIn_of_alike fun x _ y _ => by
    rw [hseen, hsig, sigEq_some, decide_eq_true rfl]
  have hsys := Mach.sys_window_of_all (w := w) (e := quietExchange) hall rfl
  rw [hnames, hnames, hnames, Mach.decide3_none, List.append_nil] at hsys
  refine ⟨hsys, ?_, ?_⟩
  · rw [Mach.window_of_all hall rfl, Mach.updSys_ph, (m.windowShown_frame w _ _).2]
  · rw [Mach.window_of_all hall rfl, Mach.updSys_out]
    exact m.windowShown_out w hdiffer (loseIn_of_quiet rfl rfl _) rfl fun l _ => by rw [hnames, hnames]

/-- The lane whose signature differs from the two others', which agree, is excluded with the window's own cause. -/
theorem Mach.window_odd {v : W64} {l : LaneId} (huv : u ≠ v) (hl : m.signature w l = some v)
    (hothers : ∀ k, k ≠ l → m.signature w k = some u) :
    (m.window w quietExchange).sys = { m.sys with pendingExcl := m.sys.pendingExcl ++ [(l, w, w)] } ∧
    (m.window w quietExchange).ph = m.ph ∧ (m.window w quietExchange).Raised .vot I.VOT_MISMATCH := by
  have hodd : m.signature w l ≠ some u := by
    rw [hl]
    exact fun h => huv (Option.some.inj h).symm
  have hnames : ∀ y, m.names quietExchange (m.signature w) y = [l] := fun y => by
    by_cases hy : y = l
    · subst hy
      exact Mach.names_own hall (hself y) hodd fun q hq => by rw [seenSig_of_quiet rfl, hothers q hq]
    · refine Mach.names_peer hall (hself y) (fun h => hy h.symm) (hothers y hy) ?_ fun q _ hq => ?_
      · rwa [seenSig_of_quiet rfl]
      · rw [seenSig_of_quiet rfl, hothers q hq]
  obtain ⟨k, hk⟩ : ∃ k, k ≠ l := ⟨(peersOf l).1, (peersOf_ne l).1⟩
  have hcomp : ∀ y, y ∈ m.comparers := fun y => by rw [Mach.comparers_of_all hall]; exact mem_laneIds y
  have hdiffer : differIn quietExchange (m.signature w) m.comparers = true := by
    refine differIn_of_pair (hcomp l) (hcomp k) hk ?_
    rw [seenSig_of_quiet rfl, hothers k hk]
    exact (sigEq_some_eq_false hodd).1
  have hsys := Mach.sys_window_of_all (w := w) (e := quietExchange) hall rfl
  rw [hnames, hnames, hnames, Mach.decide3_odd, hself l] at hsys
  refine ⟨hsys, ?_, ?_⟩
  · rw [Mach.window_of_all hall rfl, Mach.updSys_ph, (m.windowShown_frame w _ _).2]
  · rw [Mach.window_of_all hall rfl]
    exact Mach.raised_updSys (m.raised_windowShown w hdiffer)

/-- Two lanes that have lost each other's signature name each other alone, and the later of them is excluded with cause 5. -/
theorem Mach.window_mutual (hsig : ∀ l, m.signature w l = some u) {x y : LaneId} (hxy : laneIx x < laneIx y) :
    (m.window w ⟨[(x, y), (y, x)], [], [], []⟩).sys = { m.sys with pendingExcl := m.sys.pendingExcl ++ [(y, 5, w)] } := by
  have hne : x ≠ y := fun h => by rw [h] at hxy; exact absurd hxy (Nat.lt_irrefl _)
  have hlost : ∀ {p q : LaneId}, p ≠ q → ([(x, y), (y, x)] : List (LaneId × LaneId)).contains (p, q) = true →
      seenSig ⟨[(x, y), (y, x)], [], [], []⟩ (m.signature w) p q ≠ some u := fun hpq h => by
    unfold seenSig
    rw [if_pos ⟨hpq, h⟩]
    exact Option.some_ne_none u |>.symm
  have hseen : ∀ {p q : LaneId}, ([(x, y), (y, x)] : List (LaneId × LaneId)).contains (p, q) = false →
      seenSig ⟨[(x, y), (y, x)], [], [], []⟩ (m.signature w) p q = some u := fun {p q} h => by
    unfold seenSig
    rw [if_neg fun hp => by rw [h] at hp; exact absurd hp.2 (by decide), hsig]
  have hx := Mach.names_peer (e := ⟨[(x, y), (y, x)], [], [], []⟩) hall (hself x) hne.symm (hsig x) (hlost hne.symm (by simp))
    fun q hqx hqy => hseen (by simp [hqx, hqy])
  have hy := Mach.names_peer (e := ⟨[(x, y), (y, x)], [], [], []⟩) hall (hself y) hne (hsig y) (hlost hne (by simp))
    fun q hqy hqx => hseen (by simp [hqx, hqy])
  have hz : ∀ z, z ≠ x → z ≠ y → m.names ⟨[(x, y), (y, x)], [], [], []⟩ (m.signature w) z = [] := fun z hzx hzy =>
    Mach.names_alike hall (hself z) (hsig z) fun q _ => hseen (by simp [hzx, hzy])
  rw [Mach.sys_window_of_all hall rfl, Mach.decide3_mutual m w hxy hx hy hz]

end

/-! ### What a window decides with two lanes that vote (R155) -/

theorem haltCause2_of_sound {m : Mach} {ls : List LaneId} (h : ∀ l ∈ ls, (m.lane l).selfFaults = []) : haltCause2 m ls = 3 := by
  have hnone : ls.flatMap (fun l => (m.lane l).selfFaults) = [] := List.flatMap_eq_nil_iff.mpr h
  unfold haltCause2
  rw [hnone]
  rfl

theorem haltCause2_of_fault {m : Mach} {ls : List LaneId} {x : LaneId} {f : Nat} (hx : x ∈ ls) (hf : f ∈ (m.lane x).selfFaults) (h11 : f ≠ 11) :
    haltCause2 m ls = if m.sys.mode = 10 then 7 else 2 := by
  have hany : (ls.flatMap (fun l => (m.lane l).selfFaults)).any (fun c => decide (c ≠ 11)) = true :=
    List.any_eq_true.mpr ⟨f, List.mem_flatMap.mpr ⟨x, hx, hf⟩, decide_eq_true h11⟩
  unfold haltCause2
  dsimp only
  rw [hany]
  rfl

theorem Mach.selfExclusions_of_sound {m : Mach} (w : Nat) (h : ∀ l ∈ m.voters, (m.lane l).selfFaults = []) : m.selfExclusions w = [] := by
  have hnone : m.selfNamed = [] := List.filter_eq_nil_iff.mpr fun l hl => by simp [h l hl]
  unfold Mach.selfExclusions
  rw [hnone]
  rfl

theorem Mach.mem_selfNamed {m : Mach} {x : LaneId} {f : Nat} {t : List Nat} (hx : x ∈ m.voters) (hf : (m.lane x).selfFaults = f :: t) :
    x ∈ m.selfNamed := List.mem_filter.mpr ⟨hx, by rw [hf]; rfl⟩

theorem Mach.mem_selfExclusions {m : Mach} (w : Nat) {x : LaneId} {f : Nat} {t : List Nat} (hx : x ∈ m.voters)
    (hf : (m.lane x).selfFaults = f :: t) : (x, f, w) ∈ m.selfExclusions w :=
  List.mem_map.mpr ⟨x, Mach.mem_selfNamed hx hf, by rw [hf]; rfl⟩

/-- A lane that does not vote leaves two at most. -/
theorem Mach.length_voters_ne {m : Mach} {k : LaneId} (hk : k ∉ m.voters) : m.voters.length ≠ 3 := fun h => by
  have hlen : m.voters.length = laneIds.length := h
  unfold Mach.voters Mach.serving at hlen
  rw [List.filter_filter, List.length_filter_eq_length_iff] at hlen
  refine hk ?_
  unfold Mach.voters Mach.serving
  rw [List.filter_filter]
  exact List.mem_filter.mpr ⟨mem_laneIds k, hlen k (mem_laneIds k)⟩

/-- What is decided of a joining lane leaves the SAFE_HALT that is due, and the mode. -/
theorem Mach.windowJoiner_frame (m : Mach) (w : Nat) (e : Exchange) (sig : LaneId → Option W64) (n : Mach) :
    (m.windowJoiner w e sig n).sys.pendingHalt = n.sys.pendingHalt ∧ (m.windowJoiner w e sig n).sys.mode = n.sys.mode := by
  unfold Mach.windowJoiner Mach.nameJoiner
  constructor <;> (repeat' split) <;> rfl

section
variable {m : Mach} {w : Nat} {e : Exchange} {k : LaneId} (hk : k ∉ m.voters)
include hk

/-- Two lanes that agree, lose nothing and name themselves not. -/
theorem Mach.windowRuled_alike (hself : ∀ l ∈ m.voters, (m.lane l).selfFaults = []) {sig : LaneId → Option W64}
    (hdiffer : differIn e sig m.voters = false) (hlose : loseIn e m.voters = false) (n : Mach) : (m.windowRuled w e sig n).sys = n.sys := by
  have hnamed : m.selfNamed = [] := List.filter_eq_nil_iff.mpr fun l hl => by simp [hself l hl]
  unfold Mach.windowRuled
  dsimp only
  rw [if_neg (Mach.length_voters_ne hk), hdiffer, hlose, hnamed, Mach.selfExclusions_of_sound w hself]
  split
  · rfl
  · rw [Mach.updSys_sys, List.append_nil]

/-- Two lanes of which one differs, has lost a copy or names itself. -/
theorem Mach.windowRuled_halts (h155 : mode155 m.sys.mode = true) {sig : LaneId → Option W64}
    (hbad : (differIn e sig m.voters || loseIn e m.voters || !m.selfNamed.isEmpty) = true) (n : Mach) :
    m.windowRuled w e sig n = n.updSys (fun s =>
      { s with pendingHalt := some (haltCause2 m m.voters), pendingExcl := s.pendingExcl ++ m.selfExclusions w }) := by
  unfold Mach.windowRuled
  dsimp only
  rw [if_neg (Mach.length_voters_ne hk), if_pos h155, if_pos hbad]

theorem Mach.window_halts (h155 : mode155 m.sys.mode = true)
    (hbad : (differIn e (m.signature w) m.voters || loseIn e m.voters || !m.selfNamed.isEmpty) = true) :
    (m.window w e).sys.pendingHalt = some (haltCause2 m m.voters) ∧ (m.window w e).sys.mode = m.sys.mode ∧
    (m.joiner = none → (m.window w e).sys.pendingExcl = m.sys.pendingExcl ++ m.selfExclusions w) := by
  have hruled := Mach.windowRuled_halts (w := w) hk h155 hbad (m.windowShown w e (m.signature w))
  have hsys := (m.windowShown_frame w e (m.signature w)).1
  have hframe := m.windowJoiner_frame w e (m.signature w) (m.windowRuled w e (m.signature w) (m.windowShown w e (m.signature w)))
  rw [Mach.window_eq]
  refine ⟨?_, ?_, fun hj => ?_⟩
  · rw [hframe.1, hruled, Mach.updSys_sys]
  · rw [hframe.2, hruled, Mach.updSys_sys, hsys]
  · rw [Mach.windowJoiner, hj]
    dsimp only
    rw [hruled, Mach.updSys_sys, hsys]

end

/-! ### The commands of the windows -/

/-- The two commands that close a window, with the number of the window and the instant at which it is compared. -/
def ClosesWindow (s : State) (c : Instr) (w : Nat) : Prop :=
  (c = .outputWindowCompare ⟨[], [], [], []⟩ ∧ w = 1) ∨
  (c = .imageWindowCompare ⟨[], [], [], []⟩ ∧ w = 3 ∧ s.m.sys.bc = 0 ∧ s.m.leadLane.scanned = true)

/-- A lane whose scan of the State Image has been compared. -/
def Lane.unscanned (x : Lane) : Lane := { x with scanned := false }

section
variable {s : State} {P : Mach → Prop} (hvote : s.m.voting = true)
include hvote

theorem completes_outputWindowCompare {e : Exchange} (hmode : (s.m.window 1 e).sys.mode = s.m.sys.mode) (h : P (s.m.window 1 e)) :
    Completes (.outputWindowCompare e) s P := by
  refine completes_of_run (fun m : Mach => if m.voting then m.window 1 e else m) rfl ?_ ?_ <;> rw [if_pos hvote]
  · exact hmode
  · exact h

/-- A window is closed by what it decides; the end of the image scan, which it may bring too, is for `P` to bear. -/
theorem completes_closesWindow {c : Instr} {w : Nat} (hc : ClosesWindow s c w)
    (hmode : (s.m.window w quietExchange).sys.mode = s.m.sys.mode) (h : P (s.m.window w quietExchange))
    (hP : ∀ m, P m → P (m.mapLanes Lane.unscanned)) : Completes c s P := by
  rcases hc with ⟨rfl, rfl⟩ | ⟨rfl, rfl, hbc, hscan⟩
  · exact completes_outputWindowCompare hvote hmode h
  · have he : s.m.imageWindow quietExchange = (s.m.window 3 quietExchange).mapLanes Lane.unscanned := by
      unfold Mach.imageWindow
      rw [hvote, hscan, decide_eq_true hbc]
      rfl
    refine completes_of_run (·.imageWindow quietExchange) rfl ?_ ?_ <;> rw [he]
    · exact hmode
    · exact hP _ h

end

theorem Mach.raised_unscanned {m : Mach} {b : Blk} {i : Nat} (h : m.Raised b i) : (m.mapLanes Lane.unscanned).Raised b i := fun l => by
  rw [Mach.lane_mapLanes]
  exact h l

/-! ### Two lanes that vote, the third excluded -/

section
variable {m : Mach} {w : Nat} {k : LaneId} (hvoters : ∀ l, l ∈ m.voters ↔ l ≠ k) (hrole : (m.lane k).role = .excluded)
include hvoters

theorem Mach.not_mem_voters : k ∉ m.voters := fun h => (hvoters k).mp h rfl

theorem Mach.joiner_of_excluded (hrole : (m.lane k).role = .excluded) : m.joiner = none := Mach.joiner_eq_none fun l => by
  by_cases hl : l = k
  · rw [hl, hrole]
    decide
  · rw [Mach.role_of_mem_voters ((hvoters l).mpr hl)]
    decide

include hrole

theorem Mach.sys_window_two_alike {u : W64} (h : ∀ l, l ≠ k → (m.lane l).selfFaults = [] ∧ m.signature w l = some u) :
    (m.window w quietExchange).sys = m.sys := by
  have hdiffer : differIn quietExchange (m.signature w) m.voters = false := differIn_of_alike fun x hx y hy => by
    rw [seenSig_of_quiet rfl, (h x ((hvoters x).mp hx)).2, (h y ((hvoters y).mp hy)).2, sigEq_some, decide_eq_true rfl]
  have hself : ∀ l ∈ m.voters, (m.lane l).selfFaults = [] := fun l hl => (h l ((hvoters l).mp hl)).1
  rw [Mach.window_eq, Mach.windowJoiner, Mach.joiner_of_excluded hvoters hrole]
  dsimp only
  rw [Mach.windowRuled_alike (Mach.not_mem_voters hvoters) hself hdiffer (loseIn_of_quiet rfl rfl _), (m.windowShown_frame w _ _).1]

/-- Two signatures that differ bring SAFE_HALT with cause 3. -/
theorem Mach.window_two_differ (h155 : mode155 m.sys.mode = true) {x y : LaneId} {u v : W64} (hx : x ≠ k) (hy : y ≠ k) (huv : u ≠ v)
    (hsx : m.signature w x = some u) (hsy : m.signature w y = some v) (hself : ∀ l, l ≠ k → (m.lane l).selfFaults = []) :
    (m.window w quietExchange).sys.pendingHalt = some 3 ∧ (m.window w quietExchange).sys.pendingExcl = m.sys.pendingExcl ∧
    (m.window w quietExchange).sys.mode = m.sys.mode ∧ (m.window w quietExchange).Raised .vot I.VOT_MISMATCH := by
  have hxy : y ≠ x := fun h => by
    rw [h, hsx] at hsy
    exact huv (Option.some.inj hsy)
  have hneq : sigEq (seenSig quietExchange (m.signature w) x y) (m.signature w y) = false := by
    rw [seenSig_of_quiet rfl, hsx, hsy, sigEq_some, decide_eq_false huv]
  have hsound : ∀ l ∈ m.voters, (m.lane l).selfFaults = [] := fun l hl => hself l ((hvoters l).mp hl)
  have hdiffer := differIn_of_pair ((hvoters x).mpr hx) ((hvoters y).mpr hy) hxy hneq
  have hall : differIn quietExchange (m.signature w) m.comparers = true :=
    differIn_of_pair (List.mem_append_left _ ((hvoters x).mpr hx)) (List.mem_append_left _ ((hvoters y).mpr hy)) hxy hneq
  have hj := Mach.joiner_of_excluded hvoters hrole
  have hnot := Mach.not_mem_voters hvoters
  have hbad : (differIn quietExchange (m.signature w) m.voters || loseIn quietExchange m.voters || !m.selfNamed.isEmpty) = true := by
    rw [hdiffer]
    rfl
  obtain ⟨hhalt, hmode, hexcl⟩ := Mach.window_halts hnot h155 hbad
  refine ⟨?_, ?_, hmode, ?_⟩
  · rw [hhalt, haltCause2_of_sound hsound]
  · rw [hexcl hj, Mach.selfExclusions_of_sound w hsound, List.append_nil]
  · rw [Mach.window_eq, Mach.windowJoiner, hj]
    dsimp only
    rw [Mach.windowRuled_halts hnot h155 hbad]
    exact Mach.raised_updSys (m.raised_windowShown w hall)

end

section
variable {m : Mach} {w : Nat} {e : Exchange} {k x : LaneId} {f : Nat} {t : List Nat} (hk : k ∉ m.voters) (h155 : mode155 m.sys.mode = true)
  (hx : x ∈ m.voters) (hf : (m.lane x).selfFaults = f :: t) (h11 : f ≠ 11)
include hk h155 hx hf h11

/-- A lane that names itself brings SAFE_HALT with cause 2, in DARN 7, and is excluded too. -/
theorem Mach.window_two_fault : (m.window w e).sys.pendingHalt = some (if m.sys.mode = 10 then 7 else 2) ∧
    (m.window w e).sys.mode = m.sys.mode ∧ (m.joiner = none → (x, f, w) ∈ (m.window w e).sys.pendingExcl) := by
  have hself : m.selfNamed.isEmpty = false := by
    rw [List.isEmpty_eq_false_iff_exists_mem]
    exact ⟨x, Mach.mem_selfNamed hx hf⟩
  have hbad : (differIn e (m.signature w) m.voters || loseIn e m.voters || !m.selfNamed.isEmpty) = true := by
    rw [hself, Bool.not_false, Bool.or_true]
  have hmem : f ∈ (m.lane x).selfFaults := by rw [hf]; exact List.mem_cons_self
  obtain ⟨hhalt, hmode, hexcl⟩ := Mach.window_halts (w := w) hk h155 hbad
  refine ⟨?_, hmode, fun hj => ?_⟩
  · rw [hhalt, haltCause2_of_fault hx hmem h11]
  · rw [hexcl hj]
    exact List.mem_append_right _ (Mach.mem_selfExclusions w hx hf)

end

/-! ### The statement -/

theorem mode155_of_mem {k : Nat} (h : k ∈ [7, 9, 11]) : mode155 k = true ∧ k ≠ 10 := by
  simp only [List.mem_cons, List.not_mem_nil, or_false] at h
  rcases h with rfl | rfl | rfl <;> decide

theorem completes_window_three {s : State} {c : Instr} {w : Nat} {u v : W64} (hc : ClosesWindow s c w) (hvote : s.m.voting = true)
    (hall : ∀ l, l ∈ s.m.voters ∧ (s.m.lane l).selfFaults = []) :
    ((∀ l, s.m.signature w l = some u) → Completes c s (fun m =>
      m.sys.pendingExcl = s.m.sys.pendingExcl ∧ m.sys.pendingHalt = s.m.sys.pendingHalt ∧ m.sys.mode = s.m.sys.mode ∧
      m.out = s.m.out ∧ m.ph = s.m.ph)) ∧
    (∀ l, u ≠ v → s.m.signature w l = some v → (∀ k, k ≠ l → s.m.signature w k = some u) → Completes c s (fun m =>
      m.sys.pendingExcl = s.m.sys.pendingExcl ++ [(l, w, w)] ∧ m.sys.pendingHalt = s.m.sys.pendingHalt ∧
      m.sys.mode = s.m.sys.mode ∧ m.Raised .vot I.VOT_MISMATCH ∧ m.ph = s.m.ph)) := by
  have hv := fun l => (hall l).1
  have hself := fun l => (hall l).2
  refine ⟨fun hsig => ?_, fun l huv hl hothers => ?_⟩
  · obtain ⟨hsys, hph, hout⟩ := Mach.window_alike hv hself hsig
    refine completes_closesWindow hvote hc (by rw [hsys]) ?_ fun m hm => hm
    rw [hsys, hph, hout]
    exact ⟨rfl, rfl, rfl, rfl, rfl⟩
  · obtain ⟨hsys, hph, hraised⟩ := Mach.window_odd hv hself huv hl hothers
    refine completes_closesWindow hvote hc (by rw [hsys]) ?_ ?_
    · rw [hsys, hph]
      exact ⟨rfl, rfl, rfl, hraised, rfl⟩
    · rintro m ⟨hexcl, hhalt, hmode, hraised, hph⟩
      exact ⟨hexcl, hhalt, hmode, Mach.raised_unscanned hraised, hph⟩

theorem completes_window_two {s : State} {c : Instr} {w : Nat} {u v : W64} {k : LaneId} (hc : ClosesWindow s c w) (hvote : s.m.voting = true)
    (hvoters : ∀ l, l ∈ s.m.voters ↔ l ≠ k) (hrole : (s.m.lane k).role = .excluded) :
    ((∀ l, l ≠ k → (s.m.lane l).selfFaults = [] ∧ s.m.signature w l = some u) → Completes c s (fun m =>
      m.sys.pendingExcl = s.m.sys.pendingExcl ∧ m.sys.pendingHalt = s.m.sys.pendingHalt ∧ m.sys.mode = s.m.sys.mode)) ∧
    (∀ x y, x ≠ k → y ≠ k → u ≠ v → s.m.signature w x = some u → s.m.signature w y = some v → s.m.sys.mode ∈ [7, 9, 11] →
      (∀ l, l ≠ k → (s.m.lane l).selfFaults = []) → Completes c s (fun m => m.sys.pendingHalt = some 3 ∧
        m.sys.pendingExcl = s.m.sys.pendingExcl ∧ m.sys.mode = s.m.sys.mode ∧ m.Raised .vot I.VOT_MISMATCH)) ∧
    (∀ x f t, x ≠ k → (s.m.lane x).selfFaults = f :: t → f ≠ 11 → s.m.sys.mode ∈ [7, 9, 11] → Completes c s (fun m =>
      m.sys.pendingHalt = some 2 ∧ (x, f, w) ∈ m.sys.pendingExcl ∧ m.sys.mode = s.m.sys.mode)) := by
  refine ⟨fun h => ?_, fun x y hx hy huv hsx hsy hmode hself => ?_, fun x f t hx hf h11 hmode => ?_⟩
  · have hsys := Mach.sys_window_two_alike hvoters hrole h
    refine completes_closesWindow hvote hc (by rw [hsys]) ?_ fun m hm => hm
    rw [hsys]
    exact ⟨rfl, rfl, rfl⟩
  · have hwin := Mach.window_two_differ hvoters hrole (mode155_of_mem hmode).1 hx hy huv hsx hsy hself
    refine completes_closesWindow hvote hc hwin.2.2.1 hwin ?_
    rintro m ⟨hhalt, hexcl, hmode, hraised⟩
    exact ⟨hhalt, hexcl, hmode, Mach.raised_unscanned hraised⟩
  · obtain ⟨h155, h10⟩ := mode155_of_mem hmode
    obtain ⟨hhalt, hkept, hexcl⟩ := Mach.window_two_fault (w := w) (e := quietExchange) (Mach.not_mem_voters hvoters) h155
      ((hvoters x).mpr hx) hf h11
    rw [if_neg h10] at hhalt
    exact completes_closesWindow hvote hc hkept ⟨hhalt, hexcl (Mach.joiner_of_excluded hvoters hrole), hkept⟩ fun m hm => hm

theorem completes_window_darn {s : State} {u v : W64} {x y : LaneId} (hvote : s.m.voting = true) (hmode : s.m.sys.mode = 10) (hxy : x ≠ y)
    (hvoters : ∀ l, l ∈ s.m.voters ↔ l = x ∨ l = y) :
    ((∀ l, (s.m.lane l).selfFaults = []) → u ≠ v → s.m.signature 1 x = some u → s.m.signature 1 y = some v →
      Completes (.outputWindowCompare ⟨[], [], [], []⟩) s (fun m => m.sys.pendingHalt = some 3)) ∧
    (∀ f t, (s.m.lane x).selfFaults = f :: t → f ≠ 11 → Completes (.outputWindowCompare ⟨[], [], [], []⟩) s (fun m =>
      m.sys.pendingHalt = some 7)) ∧
    ((∀ l, (s.m.lane l).selfFaults = []) → s.m.signature 1 x = some u → s.m.signature 1 y = some u →
      Completes (.outputWindowCompare ⟨[(x, y)], [], [], []⟩) s (fun m => m.sys.pendingHalt = some 3)) := by
  have hx : x ∈ s.m.voters := (hvoters x).mpr (.inl rfl)
  have hy : y ∈ s.m.voters := (hvoters y).mpr (.inr rfl)
  have h155 : mode155 s.m.sys.mode = true := by rw [hmode]; rfl
  obtain ⟨k, hkx, hky⟩ := exists_lane_ne x y
  have hk : k ∉ s.m.voters := fun h => ((hvoters k).mp h).elim hkx hky
  have hdiffers : ∀ e : Exchange, (∀ l, (s.m.lane l).selfFaults = []) →
      sigEq (seenSig e (s.m.signature 1) x y) (s.m.signature 1 y) = false →
      Completes (.outputWindowCompare e) s (fun m => m.sys.pendingHalt = some 3) := fun e hself hneq => by
    have hdiffer := differIn_of_pair hx hy hxy.symm hneq
    obtain ⟨hhalt, hkept, -⟩ := Mach.window_halts (w := 1) (e := e) hk h155 (by rw [hdiffer]; rfl)
    exact completes_outputWindowCompare hvote hkept (by rw [hhalt, haltCause2_of_sound fun l _ => hself l])
  refine ⟨fun hself huv hsx hsy => hdiffers _ hself ?_, fun f t hf h11 => ?_, fun hself hsx hsy => hdiffers _ hself ?_⟩
  · rw [seenSig_of_quiet rfl, hsx, hsy, sigEq_some, decide_eq_false huv]
  · obtain ⟨hhalt, hkept, -⟩ := Mach.window_two_fault (w := 1) (e := quietExchange) hk h155 hx hf h11
    rw [if_pos hmode] at hhalt
    exact completes_outputWindowCompare hvote hkept hhalt
  · unfold seenSig
    rw [if_pos ⟨hxy, by simp⟩]
    rfl

/-- Settles O23: a window decides by what each lane names (`Mach.names`) where three lanes vote, and by whether two signatures differ, a copy
is lost or a lane names itself where two do. -/
theorem oddLaneNamed : Obligations.OddLaneNamed := by
  unfold Obligations.OddLaneNamed
  intro s c w u v hc hvote
  refine ⟨⟨completes_window_three hc hvote, fun k => completes_window_two hc hvote⟩, fun _ hall x y hxy => ?_, fun _ hmode x y hxy =>
    completes_window_darn hvote hmode hxy⟩
  have hsys := Mach.window_mutual (w := 1) (fun l => (hall l).1) (fun l => (hall l).2.1) (fun l => (hall l).2.2) hxy
  refine completes_outputWindowCompare hvote (by rw [hsys]) ?_
  rw [hsys]
  exact ⟨rfl, rfl⟩

end Sys2Proof.Machine


/-! # Changes of named fields in the lanes, and transitions into and out of DARN (R152, R159, R160, R292) -/
namespace Sys2Proof.Machine

/-! ### Fields that share no bit -/

/-- A field of a 32-bit register. -/
def fieldWf (f : Field) : Bool := decide (f.lo ≤ f.hi) && decide (f.hi < 32)

/-- Two fields share no bit. -/
def apart (f g : Field) : Bool := decide (f.addr ≠ g.addr) || decide (f.hi < g.lo) || decide (g.hi < f.lo)

/-- A field that shares no bit with any of the list. -/
def apartFrom (f : Field) (fs : List Field) : Bool := fieldWf f && fs.all (apart f)

/-- A field that lies within one of the list. -/
def within (f : Field) (fs : List Field) : Bool :=
  fieldWf f && fs.any (fun g => decide (f.addr = g.addr) && decide (g.lo ≤ f.lo) && decide (f.hi ≤ g.hi))

/-- A whole register. -/
def wholeReg (a : Nat) : Field := ⟨a, 31, 0⟩

/-- One bit of a register. -/
def bitField (a i : Nat) : Field := ⟨a, i, i⟩

theorem apart_of_within {f g : Field} {fs : List Field} (hf : apartFrom f fs = true) (hg : within g fs = true) :
    fieldWf f = true ∧ fieldWf g = true ∧ apart f g = true := by
  simp only [apartFrom, within, Bool.and_eq_true, List.all_eq_true, List.any_eq_true, decide_eq_true_eq] at hf hg
  obtain ⟨hwf, hall⟩ := hf
  obtain ⟨hwg, k, hk, ⟨haddr, hlo⟩, hhi⟩ := hg
  refine ⟨hwf, hwg, ?_⟩
  have hfk := hall k hk
  simp only [apart, Bool.or_eq_true, decide_eq_true_eq] at hfk ⊢
  rcases hfk with (hne | hlow) | hhigh
  · exact .inl (.inl fun h => hne (h.trans haddr))
  · exact .inl (.inr (by omega))
  · exact .inr (by omega)

/-- A field reads as before when one that shares no bit with it is written. -/
theorem Regs.fld_put_apart (r : Regs) {f g : Field} (v : Nat) (hf : fieldWf f = true) (hg : fieldWf g = true) (h : apart f g = true) :
    (r.put g v).fld f = r.fld f := by
  simp only [fieldWf, apart, Bool.and_eq_true, Bool.or_eq_true, decide_eq_true_eq] at hf hg h
  by_cases ha : f.addr = g.addr
  · refine Regs.fld_put_beside r v ha hg.2 hg.1 hf.1 ?_
    rcases h with (hne | hlow) | hhigh
    · exact absurd ha hne
    · exact .inr hlow
    · exact .inl hhigh
  · exact Regs.fld_put_ne r v ha

/-! ### Register files that differ in the listed fields alone -/

/-- Every field that shares no bit with the listed ones reads as before. -/
def Regs.ChangesIn (fs : List Field) (r s : Regs) : Prop := ∀ f, apartFrom f fs = true → s.fld f = r.fld f

namespace Regs.ChangesIn

variable {fs gs : List Field} {r s t : Regs}

theorem refl (fs : List Field) (r : Regs) : Regs.ChangesIn fs r r := fun _ _ => rfl

theorem trans (h : Regs.ChangesIn fs r s) (g : Regs.ChangesIn fs s t) : Regs.ChangesIn fs r t := fun f hf => (g f hf).trans (h f hf)

theorem mono (h : Regs.ChangesIn fs r s) (hs : fs ⊆ gs) : Regs.ChangesIn gs r s := fun f hf => by
  refine h f ?_
  simp only [apartFrom, Bool.and_eq_true, List.all_eq_true] at hf ⊢
  exact ⟨hf.1, fun g hg => hf.2 g (hs hg)⟩

theorem put (h : Regs.ChangesIn fs r s) {g : Field} (v : Nat) (hg : within g fs = true) : Regs.ChangesIn fs r (s.put g v) := fun f hf => by
  obtain ⟨hwf, hwg, happ⟩ := apart_of_within hf hg
  rw [Regs.fld_put_apart s v hwf hwg happ, h f hf]

theorem inc (h : Regs.ChangesIn fs r s) {g : Field} (hg : within g fs = true) : Regs.ChangesIn fs r (s.inc g) := h.put _ hg

theorem setBit (h : Regs.ChangesIn fs r s) {a i : Nat} (b : Bool) (hg : within (bitField a i) fs = true) :
    Regs.ChangesIn fs r (s.setBit a i b) := h.put (g := bitField a i) (b2n b) hg

/-- Registers that differ at listed addresses alone differ in those registers. -/
theorem of_keeps {as : List Nat} (h : r.Keeps s as) (hs : as.map wholeReg ⊆ fs) : Regs.ChangesIn fs r s := fun f hf => by
  refine h.fld f fun ha => ?_
  simp only [apartFrom, fieldWf, Bool.and_eq_true, List.all_eq_true, decide_eq_true_eq] at hf
  have happ := hf.2 _ (hs (List.mem_map_of_mem ha))
  obtain ⟨⟨hlo, hhi⟩, -⟩ := hf
  simp only [apart, wholeReg, Bool.or_eq_true] at happ
  rcases happ with (hne | hlow) | hhigh
  · exact absurd rfl (of_decide_eq_true hne)
  · exact absurd (of_decide_eq_true hlow) (Nat.not_lt_zero _)
  · exact absurd (of_decide_eq_true hhigh) (by omega)

end Regs.ChangesIn

/-- An interrupt bit as a field of its register. -/
theorem Mach.raised_iff_reads {m : Mach} {b : Blk} {i : Nat} : m.Raised b i ↔ m.Reads (bitField (blkBase b + 0x10) i) 1 := by
  refine forall_congr' fun l => ?_
  have hone : i + 1 - i = 1 := by omega
  unfold bitOf bitField Regs.fld bitsOf
  dsimp only
  rw [hone, Nat.pow_one, decide_eq_true_iff]

/-- A field reads as before where the lanes change in other fields alone. -/
theorem Mach.Reads.kept {m n : Mach} {f : Field} {v : Nat} {fs : List Field} (h : m.Reads f v)
    (hk : ∀ l, Regs.ChangesIn fs (m.lane l).regs (n.lane l).regs) (hf : apartFrom f fs = true) : n.Reads f v := fun l => (hk l f hf).trans (h l)

theorem Mach.Raised.kept {m n : Mach} {b : Blk} {i : Nat} {fs : List Field} (h : m.Raised b i)
    (hk : ∀ l, Regs.ChangesIn fs (m.lane l).regs (n.lane l).regs) (hf : apartFrom (bitField (blkBase b + 0x10) i) fs = true) : n.Raised b i :=
  Mach.raised_iff_reads.mpr ((Mach.raised_iff_reads.mp h).kept hk hf)

/-! ### Changes of lane registers and of nothing else -/

/-- The module beside its lanes, its clocks and what was sent. -/
def Mach.outside (m : Mach) : Sys × Sc × Ph × Fed × Dio × Nat × Nat := (m.sys, m.sc, m.ph, m.fed, m.dio, m.nextSeq, m.lastSeq)

/-- From `m` to `n` the lanes differ in the listed fields of their registers alone, and the module beside them is as before. -/
structure Mach.FieldsOnly (fs : List Field) (m n : Mach) : Prop where
  lane : ∀ l, n.lane l = { m.lane l with regs := (n.lane l).regs }
  regs : ∀ l, Regs.ChangesIn fs (m.lane l).regs (n.lane l).regs
  outside : n.outside = m.outside

namespace Mach.FieldsOnly

variable {fs gs : List Field} {m n o : Mach}

theorem trans (h : m.FieldsOnly fs n) (g : n.FieldsOnly fs o) : m.FieldsOnly fs o :=
  ⟨fun l => by rw [g.lane l, h.lane l], fun l => (h.regs l).trans (g.regs l), g.outside.trans h.outside⟩

theorem mono (h : m.FieldsOnly fs n) (hs : fs ⊆ gs) : m.FieldsOnly gs n := ⟨h.lane, fun l => (h.regs l).mono hs, h.outside⟩

theorem mapLanes (m : Mach) {f : Lane → Regs} (h : ∀ x : Lane, Regs.ChangesIn fs x.regs (f x)) :
    m.FieldsOnly fs (m.mapLanes (fun x => { x with regs := f x })) :=
  ⟨fun l => by rw [Mach.lane_mapLanes], fun l => by rw [Mach.lane_mapLanes]; exact h _, rfl⟩

theorem putAll (m : Mach) {f : Field} (v : Nat) (hf : within f fs = true) : m.FieldsOnly fs (m.putAll f v) :=
  mapLanes m fun x => (Regs.ChangesIn.refl fs x.regs).put v hf

theorem raiseAll (m : Mach) (b : Blk) (i : Nat) (hi : within (bitField (blkBase b + 0x10) i) fs = true) : m.FieldsOnly fs (m.raiseAll b i) := by
  refine ⟨fun l => by rw [Mach.lane_raiseAll], fun l => ?_, by simp [Mach.outside]⟩
  rw [Mach.lane_raiseAll]
  exact (Regs.ChangesIn.refl fs _).setBit true hi

theorem ite {c : Prop} [Decidable c] (g : m.FieldsOnly fs n) (h : m.FieldsOnly fs o) : m.FieldsOnly fs (if c then n else o) := by
  split
  · exact g
  · exact h

theorem sys (h : m.FieldsOnly fs n) : n.sys = m.sys := congrArg (·.1) h.outside

theorem sc (h : m.FieldsOnly fs n) : n.sc = m.sc := congrArg (·.2.1) h.outside

theorem role (h : m.FieldsOnly fs n) (l : LaneId) : (n.lane l).role = (m.lane l).role := by rw [h.lane l]

theorem si (h : m.FieldsOnly fs n) (l : LaneId) : (n.lane l).si = (m.lane l).si := by rw [h.lane l]

/-- A record stands where registers alone change. -/
theorem recorded (h : m.FieldsOnly fs n) {code p0 p1 p2 : Nat} (hr : m.Recorded code p0 p1 p2) : n.Recorded code p0 p1 p2 := fun l hrole hlost => by
  rw [h.lane l] at hrole hlost ⊢
  exact hr l hrole hlost

end Mach.FieldsOnly

theorem Mach.RegsOnly.trans {m n o : Mach} (h : m.RegsOnly n) (g : n.RegsOnly o) : m.RegsOnly o := by
  obtain ⟨hl, hp, hf, hd, hn, ho⟩ := h
  obtain ⟨gl, gp, gf, gd, gn, go⟩ := g
  exact ⟨fun l => (hl l).trans (gl l), gp.trans hp, gf.trans hf, gd.trans hd, gn.trans hn, go.trans ho⟩

theorem Mach.regsOnly_of_outside {m n : Mach} (hl : ∀ l, (m.lane l).RegsOnly (n.lane l)) (ho : n.outside = m.outside) : m.RegsOnly n :=
  ⟨hl, congrArg (·.2.2.1) ho, congrArg (·.2.2.2.1) ho, congrArg (·.2.2.2.2.1) ho, congrArg (·.2.2.2.2.2.1) ho, congrArg (·.2.2.2.2.2.2) ho⟩

theorem Mach.FieldsOnly.regsOnly {fs : List Field} {m n : Mach} (h : m.FieldsOnly fs n) : m.RegsOnly n :=
  Mach.regsOnly_of_outside (fun l => by rw [h.lane l]; exact Lane.regsOnly_regs _ _) h.outside

/-! ### Changes that end or fail Darn leave of a lane -/

/-- A lane keeps all but the listed fields, its event staging, its probation, the snapshot and its own timing of the degraded limit; its role
too, unless it was joining and RED.DARN_STATUS.STEP is among the fields that change. -/
structure Lane.DarnKept (fs : List Field) (x y : Lane) : Prop where
  rest : y = { x with regs := y.regs, events := y.events, evLost := y.evLost, role := y.role, probation := y.probation, snap := y.snap,
                      degUs := y.degUs }
  role : F.RED_DARN_STATUS_STEP ∉ fs ∨ x.role ≠ .joining → y.role = x.role
  regs : Regs.ChangesIn fs x.regs y.regs

namespace Lane.DarnKept

variable {fs : List Field} {x y z : Lane}

theorem refl (fs : List Field) (x : Lane) : x.DarnKept fs x := ⟨rfl, fun _ => rfl, .refl _ _⟩

theorem trans (h : x.DarnKept fs y) (g : y.DarnKept fs z) : x.DarnKept fs z := by
  refine ⟨by rw [g.rest, h.rest], fun hx => ?_, h.regs.trans g.regs⟩
  have hy := h.role hx
  rw [g.role (by rw [hy]; exact hx), hy]

theorem mono {gs : List Field} (h : x.DarnKept fs y) (hs : fs ⊆ gs) : x.DarnKept gs y :=
  ⟨h.rest, fun hx => h.role (hx.imp_left fun hn hm => hn (hs hm)), h.regs.mono hs⟩

theorem si (h : x.DarnKept fs y) : y.si = x.si := by rw [h.rest]

/-- A lane whose registers alone change. -/
theorem withRegs {r : Regs} (h : Regs.ChangesIn fs x.regs r) : x.DarnKept fs { x with regs := r } := ⟨rfl, fun _ => rfl, h⟩

theorem of_keeps {as : List Nat} (h : x.Keeps y as) (hs : as.map wholeReg ⊆ fs) : x.DarnKept fs y :=
  ⟨by rw [h.1], fun _ => by rw [h.1], .of_keeps h.2 hs⟩

end Lane.DarnKept

/-- Every lane keeps as much. -/
def Mach.DarnKept (fs : List Field) (m n : Mach) : Prop := ∀ l, (m.lane l).DarnKept fs (n.lane l)

namespace Mach.DarnKept

variable {fs gs : List Field} {m n o : Mach}

theorem trans (h : m.DarnKept fs n) (g : n.DarnKept fs o) : m.DarnKept fs o := fun l => (h l).trans (g l)

theorem mono (h : m.DarnKept fs n) (hs : fs ⊆ gs) : m.DarnKept gs n := fun l => (h l).mono hs

theorem of_eq (h : ∀ l, n.lane l = m.lane l) : m.DarnKept fs n := fun l => by rw [h]; exact .refl _ _

theorem refl (fs : List Field) (m : Mach) : m.DarnKept fs m := of_eq fun _ => rfl

theorem updSys (m : Mach) (f : Sys → Sys) : m.DarnKept fs (m.updSys f) := of_eq fun l => Mach.lane_updSys m f l

theorem of_fields (h : m.FieldsOnly fs n) : m.DarnKept fs n := fun l => ⟨by rw [h.lane l], fun _ => h.role l, h.regs l⟩

theorem mapLanes {f : Lane → Lane} (m : Mach) (h : ∀ x : Lane, x.DarnKept fs (f x)) : m.DarnKept fs (m.mapLanes f) := fun l => by
  rw [Mach.lane_mapLanes]
  exact h _

theorem putAll (m : Mach) {f : Field} (v : Nat) (hf : within f fs = true) : m.DarnKept fs (m.putAll f v) := of_fields (.putAll m v hf)

theorem raiseAll (m : Mach) (b : Blk) (i : Nat) (hi : within (bitField (blkBase b + 0x10) i) fs = true) : m.DarnKept fs (m.raiseAll b i) :=
  of_fields (.raiseAll m b i hi)

theorem record (m : Mach) (code p0 p1 p2 p3 : Nat) (he : eventRegs.map wholeReg ⊆ fs) : m.DarnKept fs (m.record code p0 p1 p2 p3) :=
  fun l => .of_keeps (Mach.keeps_record m code p0 p1 p2 p3 l) he

theorem stepIf {c : Prop} [Decidable c] (g : n.DarnKept fs o) (h : m.DarnKept fs n) : m.DarnKept fs (if c then o else n) := by
  split
  · exact h.trans g
  · exact h

theorem stepUnless {c : Prop} [Decidable c] (g : n.DarnKept fs o) (h : m.DarnKept fs n) : m.DarnKept fs (if c then n else o) := by
  split
  · exact h
  · exact h.trans g

theorem closeLocks (m : Mach) (h : (laneBlks.map (fun b => blkBase b + 0x28)).map wholeReg ⊆ fs) : m.DarnKept fs m.closeLocks := fun l => by
  rw [Mach.lane_closeLocks]
  exact .withRegs (.of_keeps (Regs.keeps_closeLocks _ _) h)

theorem closeSpan (m : Mach) (us : Nat) : m.DarnKept fs (m.closeSpan us) := by
  refine of_eq fun l => ?_
  unfold Mach.closeSpan
  split
  · rfl
  · refine (foldl_keeps (fun n : Mach => n.lane l) (fun n k => ?_) _ _).trans (Mach.lane_withClk _ _ l)
    split
    · rfl
    · exact Mach.lane_withClk _ _ l

theorem dropSnap (m : Mach) : m.DarnKept fs m.dropSnap := fun l => by
  unfold Mach.dropSnap
  rw [Mach.lane_updSys, Mach.lane_mapLanes]
  exact ⟨rfl, fun _ => rfl, .refl _ _⟩

theorem regs (h : m.DarnKept fs n) (l : LaneId) : Regs.ChangesIn fs (m.lane l).regs (n.lane l).regs := (h l).regs

theorem si (h : m.DarnKept fs n) (l : LaneId) : (n.lane l).si = (m.lane l).si := (h l).si

theorem role (h : m.DarnKept fs n) {l : LaneId} {r : Role} (hr : (m.lane l).role = r) (hj : r ≠ .joining) : (n.lane l).role = r :=
  ((h l).role (.inr (by rw [hr]; exact hj))).trans hr

end Mach.DarnKept

/-! ### A transition out of or into any mode (R292, R156) -/

/-- The fields in which VOT shows the roles. -/
def servingFields : List Field := [wholeReg 0x40005044, wholeReg 0x4000500C]

theorem Mach.FieldsOnly.refreshServing (m : Mach) {fs : List Field} (h : ∀ f ∈ [F.VOT_SERVING_SERVING, F.VOT_SERVING_EXCLUDED, F.VOT_SERVING_JOINING,
    F.VOT_STATUS_SERVING, F.VOT_STATUS_EXCLUDED, F.VOT_STATUS_JOINING, F.VOT_STATUS_PROBATION], within f fs = true) :
    m.FieldsOnly fs m.refreshServing := by
  unfold Mach.refreshServing
  refine .mapLanes m fun x => ?_
  refine .put (.put (.put (.put (.put (.put (.put (.refl _ _) _ ?_) _ ?_) _ ?_) _ ?_) _ ?_) _ ?_) _ ?_
  all_goals exact h _ (by decide)

/-- The fields that a transition changes beside MODE_RESULT, those that show it, and those of Darn. -/
def closingFields : List Field := settleRegs.map wholeReg

/-- The fields that the end of Darn changes with the transition that ends it. -/
def dropFields : List Field := servingFields ++ [F.RED_STATUS_DARN_ACTIVE, F.RED_DARN_STATUS_STEP]

/-- The fields that a transition changes beside MODE_RESULT and those that show it, out of DARN too. -/
def settleFields : List Field := closingFields ++ dropFields

/-- All fields that a transition changes. -/
def transitionFields : List Field := wholeReg 0x40000044 :: entryRegs.map wholeReg ++ settleFields

/-- What a transition closes before a Darn in progress ends. -/
def Mach.modeClosed (m : Mach) (old k : Nat) : Mach :=
  let m := if old = 12 then m.putAll F.BST_STATUS_SESSION 0 else m
  let m := if modeActive k || k == 8 then m else m.putAll F.SDB_ROLE_ROLE 0
  let m := if k == 8 then m else (m.putAll F.SDB_STATUS_CURRENT 0).putAll F.SDB_STATUS_STALE 0
  let m := if modeActive k then m else m.putAll F.SDB_STATUS_GATING 0
  let m := if old = 8 then ({ m with fed := { m.fed with pairOffset := 0 } }).putAll F.TSU_PAIR_OFFSET_OFFSET_NS 0 else m
  if modeLocks k then m.closeLocks else m

/-- What a transition shows after a Darn in progress has ended. -/
def Mach.modeOpened (m : Mach) (k : Nat) : Mach :=
  let m := if modePasses k then m else m.putAll F.ZVL_STATUS_ACTIVE 0
  let m := (m.putAll F.TSU_STATUS_STEP_ALLOWED (b2n (modeSteps k))).putAll F.CRC_STATUS_CHANNELS (b2n (modeSteps k))
  let m := (m.putAll F.RED_PAIR_STATUS_ACTIVE (b2n (modeActive k))).mapLanes
    (fun x => { x with regs := x.regs.put F.RTE_STATUS_RUNNING (b2n (modeActive k && x.follows)) })
  m.raiseAll .sys I.SYS_MODE_CHANGE

theorem Mach.modeSettled_eq (m : Mach) (old k : Nat) :
    m.modeSettled old k = (if old = 10 then (m.modeClosed old k).dropJoiner else m.modeClosed old k).modeOpened k := rfl

/-- A lane as it is when the module leaves DARN: one that was joining is excluded again. -/
def Lane.unjoined (x : Lane) : Lane :=
  { x with role := if x.role == .joining then .excluded else x.role, probation := false,
           regs := (x.regs.put F.RED_STATUS_DARN_ACTIVE 0).put F.RED_DARN_STATUS_STEP 0 }

theorem Mach.dropJoiner_eq (m : Mach) :
    m.dropJoiner = (((m.mapLanes Lane.unjoined).dropSnap).updSys (fun s => { s with track := 0, probRun := 0 })).refreshServing := rfl

theorem Lane.role_unjoined (x : Lane) : x.unjoined.role = if x.role = .joining then .excluded else x.role := by
  unfold Lane.unjoined
  simp only [beq_iff_eq]

theorem Lane.darnKept_unjoined (x : Lane) : x.DarnKept dropFields x.unjoined where
  rest := rfl
  role hx := by rw [Lane.role_unjoined, if_neg (hx.resolve_left (not_not_intro (by decide)))]
  regs := ((Regs.ChangesIn.refl _ _).put _ (by decide)).put _ (by decide)

/-- Leaving DARN, the joining lane is an excluded lane again. -/
theorem Mach.DarnKept.dropJoiner (m : Mach) : m.DarnKept dropFields m.dropJoiner := by
  rw [Mach.dropJoiner_eq]
  have hsnap : m.DarnKept dropFields (m.mapLanes Lane.unjoined).dropSnap := .trans (.mapLanes m Lane.darnKept_unjoined) (.dropSnap _)
  exact hsnap.trans (.trans (.updSys _ _) (.of_fields (.refreshServing _ (by decide))))

theorem Mach.DarnKept.modeLeft (m : Mach) (k : Nat) : m.DarnKept [wholeReg 0x40000044] (m.modeLeft k) := by
  have hsup : m.DarnKept [wholeReg 0x40000044] m.supersede := by
    unfold Mach.supersede
    split
    · exact .refl _ _
    · exact .trans (.putAll m _ (by decide)) (.updSys _ _)
  have hover : m.supersede.DarnKept [wholeReg 0x40000044] m.supersede.overtaken := by
    unfold Mach.overtaken
    split
    · exact .trans (.putAll _ _ (by decide)) (.updSys _ _)
    · exact .refl _ _
  unfold Mach.modeLeft
  exact .stepUnless (.closeSpan _ _) (hsup.trans hover)

/-- A step of a transition, of which both `Mach.Shifts` and `Mach.DarnKept` hold. -/
def Mach.Closes (m n : Mach) : Prop := m.Shifts settleRegs n ∧ m.DarnKept closingFields n

namespace Mach.Closes

variable {m n o : Mach}

theorem trans (h : m.Closes n) (g : n.Closes o) : m.Closes o := ⟨h.1.trans g.1, h.2.trans g.2⟩

theorem stepIf {c : Prop} [Decidable c] (g : n.Closes o) (h : m.Closes n) : m.Closes (if c then o else n) := ⟨.stepIf g.1 h.1, .stepIf g.2 h.2⟩

theorem stepUnless {c : Prop} [Decidable c] (g : n.Closes o) (h : m.Closes n) : m.Closes (if c then n else o) :=
  ⟨.stepUnless g.1 h.1, .stepUnless g.2 h.2⟩

theorem refl (m : Mach) : m.Closes m := ⟨.refl m, .refl _ m⟩

theorem putAll (m : Mach) {f : Field} (v : Nat) (ha : f.addr ∈ settleRegs) (hf : within f closingFields = true) : m.Closes (m.putAll f v) :=
  ⟨.putAll m v ha, .putAll m v hf⟩

end Mach.Closes

theorem Mach.closes_modeClosed (m : Mach) (old k : Nat) : m.Closes (m.modeClosed old k) := by
  unfold Mach.modeClosed
  dsimp only
  refine .stepIf ⟨.closeLocks _ (by decide), .closeLocks _ (by decide)⟩ ?_
  refine .stepIf (.trans ⟨.withFed _ _, .of_eq (Mach.lane_withFed _ _)⟩ (.putAll _ _ (by decide) (by decide))) ?_
  refine .stepUnless (.putAll _ _ (by decide) (by decide)) ?_
  refine .stepUnless (.trans (.putAll _ _ (by decide) (by decide)) (.putAll _ _ (by decide) (by decide))) ?_
  refine .stepUnless (.putAll _ _ (by decide) (by decide)) ?_
  exact .stepIf (.putAll _ _ (by decide) (by decide)) (.refl m)

theorem Mach.closes_modeOpened (m : Mach) (k : Nat) : m.Closes (m.modeOpened k) := by
  unfold Mach.modeOpened
  dsimp only
  refine .trans ?_ ⟨.raiseAll _ _ _ (by decide), .raiseAll _ _ _ (by decide)⟩
  refine .trans ?_ ⟨.mapLanes _ fun _ => ⟨rfl, Regs.keeps_put (.refl _ _) _ (by decide)⟩,
    .mapLanes _ fun x => .withRegs ((Regs.ChangesIn.refl _ _).put _ (by decide))⟩
  refine .trans ?_ (.putAll _ _ (by decide) (by decide))
  refine .trans ?_ (.trans (.putAll _ _ (by decide) (by decide)) (.putAll _ _ (by decide) (by decide)))
  exact .stepUnless (.putAll _ _ (by decide) (by decide)) (.refl m)

theorem Mach.DarnKept.modeSettled (m : Mach) (old k : Nat) : m.DarnKept settleFields (m.modeSettled old k) := by
  have hclosed := (m.closes_modeClosed old k).2.mono (gs := settleFields) (by decide)
  rw [Mach.modeSettled_eq]
  refine .trans ?_ ((Mach.closes_modeOpened _ k).2.mono (by decide))
  exact .stepIf ((Mach.DarnKept.dropJoiner _).mono (by decide)) hclosed

theorem Mach.DarnKept.modeRecorded (m : Mach) (old k p2 : Nat) : m.DarnKept (eventRegs.map wholeReg) (m.modeRecorded old k p2) := fun l => by
  rw [Mach.lane_modeRecorded]
  exact Mach.DarnKept.record _ _ _ _ _ _ (fun _ h => h) l

theorem Mach.DarnKept.modeEnd (m : Mach) (old k p2 : Nat) : m.DarnKept settleFields ((m.modeSettled old k).modeRecorded old k p2) :=
  .trans (.modeSettled m old k) ((Mach.DarnKept.modeRecorded _ old k p2).mono (by decide))

theorem Mach.modeShown_darnKept (m : Mach) (old k : Nat) : m.DarnKept (entryRegs.map wholeReg) (m.modeShown old k) := fun l => by
  rw [Mach.lane_modeShown]
  exact .withRegs (.of_keeps (Regs.keeps_showMode _ _ _) fun _ h => h)

/-- What a transition leaves of the lanes, whatever the modes. -/
theorem Mach.DarnKept.setMode (m : Mach) (k p2 : Nat) : m.DarnKept transitionFields (m.setMode k p2) := by
  have hleft := (DarnKept.modeLeft m k).mono (gs := transitionFields) (by decide)
  have hshown := ((m.modeLeft k).modeShown_darnKept m.sys.mode k).mono (gs := transitionFields) (by decide)
  have hend := (DarnKept.modeEnd ((m.modeLeft k).modeShown m.sys.mode k) m.sys.mode k p2).mono (gs := transitionFields) (by decide)
  rw [Mach.setMode_eq]
  exact (hleft.trans hshown).trans hend

/-- The fields that a transition changes that does not leave DARN. -/
def shownFields : List Field := wholeReg 0x40000044 :: entryRegs.map wholeReg ++ closingFields

/-- What a transition leaves of the lanes that does not leave DARN. -/
theorem Mach.DarnKept.setMode_of_ne {m : Mach} (h : m.sys.mode ≠ 10) (k p2 : Nat) : m.DarnKept shownFields (m.setMode k p2) := by
  have hleft := (DarnKept.modeLeft m k).mono (gs := shownFields) (by decide)
  have hshown := ((m.modeLeft k).modeShown_darnKept m.sys.mode k).mono (gs := shownFields) (by decide)
  have hclosed := (((m.modeLeft k).modeShown m.sys.mode k).closes_modeClosed m.sys.mode k).2
  have hopened := ((((m.modeLeft k).modeShown m.sys.mode k).modeClosed m.sys.mode k).closes_modeOpened k).2
  have hrecorded := (DarnKept.modeRecorded ((((m.modeLeft k).modeShown m.sys.mode k).modeClosed m.sys.mode k).modeOpened k) m.sys.mode k p2).mono
    (gs := closingFields) (by decide)
  rw [Mach.setMode_eq, Mach.modeSettled_eq, if_neg h]
  exact (hleft.trans hshown).trans (((hclosed.trans hopened).trans hrecorded).mono (by decide))

/-! ### A transition out of DARN -/

theorem Regs.shows_showMode (r : Regs) (old k : Nat) : (r.showMode old k).Shows old k := Regs.shows_put r old k

/-- `sys` as a Darn in progress ends. -/
def Sys.darnOver (s : Sys) : Sys := { s with snapLog := [], sinceSnap := 0, track := 0, probRun := 0 }

theorem Mach.sys_dropJoiner (m : Mach) : m.dropJoiner.sys = m.sys.darnOver := rfl

theorem Mach.FieldsOnly.of_refreshServing (m : Mach) : m.FieldsOnly servingFields m.refreshServing := .refreshServing m (by decide)

/-- As a Darn ends its step reads 0. -/
theorem Mach.step_dropJoiner (m : Mach) : m.dropJoiner.Reads F.RED_DARN_STATUS_STEP 0 := fun l => by
  rw [Mach.dropJoiner_eq, (Mach.FieldsOnly.of_refreshServing _).regs l _ (by decide), Mach.lane_updSys, Mach.dropSnap, Mach.lane_updSys,
    Mach.lane_mapLanes, Mach.lane_mapLanes]
  exact Regs.fld_put_same _ _ _ (by decide) (by decide)

section
variable {m : Mach} (h : m.sys.mode = 10) (k p2 : Nat)
include h

theorem Mach.setMode_of_darn : ∃ n : Mach, (m.updSys Sys.overtaken).Shifts [0x40000044] n ∧
    m.setMode k p2 = ((((n.modeShown 10 k).modeClosed 10 k).dropJoiner).modeOpened k).modeRecorded 10 k p2 := by
  obtain ⟨n, hn, he⟩ := m.setMode_shown k p2
  exact ⟨n, hn, by rw [he, h]; rfl⟩

theorem Mach.sys_setMode_of_darn : (m.setMode k p2).sys = { m.sys.overtaken.darnOver with mode := k } := by
  obtain ⟨n, hn, he⟩ := Mach.setMode_of_darn h k p2
  rw [he, Mach.sys_modeRecorded, (Mach.closes_modeOpened _ k).1.sys, Mach.sys_dropJoiner, (Mach.closes_modeClosed _ 10 k).1.sys, Mach.sys_modeShown,
    hn.sys, Mach.updSys_sys]
  rfl

/-- The step that the lanes show of Darn reads 0 after it. -/
theorem Mach.step_setMode_of_darn : (m.setMode k p2).Reads F.RED_DARN_STATUS_STEP 0 := by
  obtain ⟨n, -, he⟩ := Mach.setMode_of_darn h k p2
  have hopened := ((n.modeShown 10 k).modeClosed 10 k).step_dropJoiner.kept (Mach.closes_modeOpened _ k).2.regs (by decide)
  rw [he]
  exact hopened.kept (Mach.DarnKept.modeRecorded _ 10 k p2).regs (by decide)

/-- The module has gone from DARN to mode `k`. -/
theorem Mach.entered_setMode_of_darn : (m.setMode k p2).Entered 10 k p2 := by
  have hsys := Mach.sys_setMode_of_darn h k p2
  have hmode : (m.setMode k p2).sys.mode = k := by rw [hsys]
  have hreq : (m.setMode k p2).sys.pendingReq = none := by rw [hsys]; rfl
  obtain ⟨n, -, he⟩ := m.setMode_shown k p2
  rw [h] at he
  have hraised : (m.setMode k p2).Raised .sys I.SYS_MODE_CHANGE := he ▸ Mach.raised_modeEnd _ _ _ _
  have hrec : (m.setMode k p2).Recorded 0x0001 10 k p2 := he ▸ Mach.recorded_modeRecorded _ _ _ _
  have hshows : ∀ l, ((n.modeShown 10 k).lane l).regs.Shows 10 k := fun l => by
    rw [Mach.regs_modeShown]
    exact Regs.shows_showMode _ _ _
  have hkept : (n.modeShown 10 k).DarnKept settleFields (m.setMode k p2) := he ▸ Mach.DarnKept.modeEnd _ _ _ _
  refine ⟨hmode, hreq, ?_, ?_, ?_, ?_, hraised, hrec⟩
  · exact Mach.Reads.kept (fun l => (hshows l).1) hkept.regs (by decide)
  · exact Mach.Reads.kept (fun l => (hshows l).2.1) hkept.regs (by decide)
  · exact Mach.Reads.kept (fun l => (hshows l).2.2.1) hkept.regs (by decide)
  · exact Mach.Reads.kept (fun l => (hshows l).2.2.2) hkept.regs (by decide)

end

/-- A transition still shows where fields that it does not concern change. -/
theorem Mach.Entered.fields {m n : Mach} {fs : List Field} {old k p2 : Nat} (h : m.Entered old k p2) (g : m.FieldsOnly fs n)
    (hf : [F.SYS_STATUS_MODE, F.SYS_STATUS_PREV_MODE, F.SYS_MODE_HIST_TO, F.SYS_MODE_HIST_FROM,
      bitField (blkBase .sys + 0x10) I.SYS_MODE_CHANGE].all (apartFrom · fs) = true) : n.Entered old k p2 := by
  obtain ⟨hmode, hreq, h1, h2, h3, h4, hraised, hrec⟩ := h
  rw [List.all_eq_true] at hf
  refine ⟨by rw [g.sys, hmode], by rw [g.sys, hreq], ?_, ?_, ?_, ?_, hraised.kept g.regs (hf _ (by simp)), g.recorded hrec⟩
  · exact h1.kept g.regs (hf _ (by simp))
  · exact h2.kept g.regs (hf _ (by simp))
  · exact h3.kept g.regs (hf _ (by simp))
  · exact h4.kept g.regs (hf _ (by simp))

end Sys2Proof.Machine


/-! # The end of Darn (R159, R160) -/
namespace Sys2Proof.Machine

/-! ### An exclusion at the end of Darn (R152) -/

/-- A lane as it is excluded: nothing of it reaches the ports. -/
def Lane.silenced (x : Lane) : Lane :=
  { x with payloads := [], staged := [], dioWord := 0, dioNext := 0, regs := (x.regs.put F.RTE_STATUS_RUNNING 0).put F.ZVL_STATUS_ACTIVE 0 }

/-- The registers that show an exclusion. -/
def Regs.showExclusion (l : LaneId) (cause cluster : Nat) (r : Regs) : Regs :=
  (((r.put F.VOT_EXCLUSION_LANE (laneIx l)).put F.VOT_EXCLUSION_CAUSE cause).inc F.VOT_EXCLUSION_COUNT).put F.RED_EXCL_CLUSTER_LO_CLUSTER cluster

/-- A lane is excluded. -/
def Mach.putOut (m : Mach) (l : LaneId) : Mach := (m.updLane l Lane.silenced).setRole l .excluded

/-- Every lane shows that a lane is excluded. -/
def Mach.exclusionShown (m : Mach) (l : LaneId) (cause : Nat) : Mach :=
  (m.putOut l).mapLanes (fun x => { x with regs := x.regs.showExclusion l cause (m.putOut l).sys.cluster })

/-- The lane waits for its test, and the interrupt is raised. -/
def Mach.exclusionRaised (m : Mach) (l : LaneId) : Mach :=
  (m.updSys (fun s => { s with retest := if s.retest.contains l then s.retest else s.retest ++ [l] })).raiseAll .vot I.VOT_EXCLUSION

theorem Mach.excludeLane_darn (m : Mach) (l : LaneId) (win : Nat) : ∃ p t, m.excludeLane l 12 win =
    (((m.exclusionShown l 12).exclusionRaised l).record 0x1001 (laneIx l) 12 win p).updSys (fun s => { s with darnFrom := t }) := by
  unfold Mach.excludeLane
  dsimp only
  rw [if_pos rfl]
  exact ⟨_, _, rfl⟩

/-- The fields that show an exclusion beside VOT.EXCLUSION. -/
def exclusionFields : List Field := bitField (blkBase .vot + 0x10) I.VOT_EXCLUSION :: eventRegs.map wholeReg

theorem Mach.DarnKept.excludeLane (m : Mach) (l : LaneId) (win : Nat) : (m.exclusionShown l 12).DarnKept exclusionFields (m.excludeLane l 12 win) := by
  obtain ⟨p, t, he⟩ := m.excludeLane_darn l win
  rw [he]
  refine .trans (.trans ?_ (.record _ _ _ _ _ _ (by decide))) (.updSys _ _)
  exact .trans (.updSys _ _) (.raiseAll _ _ _ (by decide))

theorem Mach.reads_exclusionShown (m : Mach) (l : LaneId) :
    (m.exclusionShown l 12).Reads F.VOT_EXCLUSION_LANE (laneIx l) ∧ (m.exclusionShown l 12).Reads F.VOT_EXCLUSION_CAUSE 12 := by
  have hix : laneIx l % 4 = laneIx l := by cases l <;> rfl
  constructor <;> intro k
  all_goals
    unfold Mach.exclusionShown Regs.showExclusion Regs.inc
    rw [Mach.lane_mapLanes]
    simp (disch := decide) only [Regs.fld_put_ne, Regs.fld_put_same, Regs.fld_put_beside]
  · exact hix
  · rfl

/-- The lane that an exclusion names is excluded, and the others have the roles that they had; no State Image changes. -/
theorem Mach.lane_exclusionShown (m : Mach) (l k : LaneId) :
    ((m.exclusionShown l 12).lane k).role = (if k = l then .excluded else (m.lane k).role) ∧ ((m.exclusionShown l 12).lane k).si = (m.lane k).si := by
  have hserving := Mach.FieldsOnly.of_refreshServing ((m.updLane l Lane.silenced).updLane l (fun x => { x with role := .excluded, probation := false }))
  unfold Mach.exclusionShown Mach.putOut Mach.setRole
  rw [Mach.lane_mapLanes]
  dsimp only
  rw [hserving.role, hserving.si]
  by_cases hk : k = l
  · subst hk
    simp [Lane.silenced]
  · simp [Mach.lane_updLane_ne _ _ hk, hk]

theorem Mach.mode_excludeLane_darn (m : Mach) (l : LaneId) (win : Nat) : (m.excludeLane l 12 win).sys.mode = m.sys.mode := by
  obtain ⟨p, t, he⟩ := m.excludeLane_darn l win
  have hshown : (m.exclusionShown l 12).sys = m.sys := by
    rw [Mach.exclusionShown, Mach.mapLanes_sys, Mach.putOut, Mach.setRole, Mach.refreshServing_sys, Mach.updLane_sys, Mach.updLane_sys]
  have hraised : ((m.exclusionShown l 12).exclusionRaised l).sys.mode = m.sys.mode := by
    rw [Mach.exclusionRaised, Mach.raiseAll_sys, Mach.updSys_sys, hshown]
  rw [he, Mach.updSys_sys, Mach.record_sys]
  exact hraised

/-! ### Darn fails or is aborted (R160) -/

/-- The registers that show how Darn ended. -/
def Regs.showDarnEnd (step result : Nat) (r : Regs) : Regs :=
  (((r.put F.RED_DARN_STATUS_FAIL_STEP step).put F.RED_DARN_STATUS_RESULT result).put F.RED_DARN_STATUS_STEP 0).put F.RED_STATUS_DARN_ACTIVE 0

/-- The joining lane is excluded again, and every lane shows that Darn has failed or has been aborted. -/
def Mach.darnEndShown (m : Mach) (aborted : Bool) (win : Nat) (l : LaneId) : Mach :=
  (m.excludeLane l 12 win).mapLanes (fun x => { x with regs := x.regs.showDarnEnd m.darnStep (if aborted then 3 else 2) })

/-- What Darn held is dropped, and its end is raised. -/
def Mach.darnEndRaised (m : Mach) (l : LaneId) : Mach :=
  (m.dropSnap.updSys (fun s => { s with track := 0, probRun := 0, pendingExcl := (s.pendingExcl.filter (fun e => decide (e.1 ≠ l))) })).raiseAll .red
    I.RED_DARN_FAILED

/-- The end of Darn is recorded. -/
def Mach.darnEndRecorded (m : Mach) (l : LaneId) (result step p : Nat) : Mach := (m.darnEndRaised l).record 0x1002 (laneIx l) result step p

/-- The module in SERVICE_2 again after Darn. -/
def Mach.darnReturned (m : Mach) : Mach := ((m.setMode 7 0).raiseAll .red I.RED_DEGRADED).replaceAgain

theorem Mach.darnFail_eq {m : Mach} {l : LaneId} (hj : m.joiner = some l) (hmode : m.sys.mode = 10)
    (hdue : m.sys.boundary = false ∨ m.preempted = false) (aborted : Bool) (win : Nat) : ∃ p, m.darnFail aborted win =
    ((m.darnEndShown aborted win l).darnEndRecorded l (if aborted then 3 else 2) m.darnStep p).darnReturned := by
  have hno : ¬(m.sys.mode ≠ 10 ∨ (m.sys.boundary ∧ m.preempted)) := by
    rcases hdue with hdue | hdue <;> simp [hmode, hdue]
  unfold Mach.darnFail
  rw [hj]
  dsimp only
  rw [if_neg hno]
  exact ⟨_, rfl⟩

theorem Mach.darnFail_idle {m : Mach} (h : m.sys.mode ≠ 10 ∨ (m.sys.boundary = true ∧ m.preempted = true)) (aborted : Bool) (win : Nat) :
    m.darnFail aborted win = m := by
  unfold Mach.darnFail
  split
  · rfl
  · exact if_pos h

/-- The fields that show the replace request. -/
def replaceFields : List Field :=
  [F.RED_REPLACE_CAUSE, F.RED_REPLACE_LANE, F.RED_REPLACE_REQUEST, F.RED_STATUS_REPLACE, F.DIO_REPLACE_PIN_ENERGISED, F.DIO_REPLACE_PIN_SENSED,
   bitField (blkBase .red + 0x10) I.RED_REPLACE]

theorem Mach.FieldsOnly.raiseReplace (m : Mach) (l : LaneId) (cause : Nat) : m.FieldsOnly replaceFields (m.raiseReplace l cause) := by
  unfold Mach.raiseReplace
  refine .trans (.mapLanes m fun x => ?_) (.raiseAll _ _ _ (by decide))
  refine .put (.put (.put (.put (.put (.put (.refl _ _) _ ?_) _ ?_) _ ?_) _ ?_) _ ?_) _ ?_
  all_goals decide

theorem Mach.FieldsOnly.replaceAgain (m : Mach) : m.FieldsOnly replaceFields m.replaceAgain :=
  .ite (.raiseAll _ _ _ (by decide)) (.raiseReplace _ _ _)

/-- The fields that the return to SERVICE_2 changes beside those of a transition. -/
def returnFields : List Field := bitField (blkBase .red + 0x10) I.RED_DEGRADED :: replaceFields

theorem Mach.FieldsOnly.darnReturned (m : Mach) : (m.setMode 7 0).FieldsOnly returnFields m.darnReturned := by
  have hreplace := Mach.FieldsOnly.replaceAgain ((m.setMode 7 0).raiseAll .red I.RED_DEGRADED)
  exact .trans (.raiseAll _ _ _ (by decide)) (hreplace.mono (by decide))

theorem Mach.DarnKept.darnReturned (m : Mach) : m.DarnKept (returnFields ++ transitionFields) m.darnReturned :=
  .trans ((Mach.DarnKept.setMode m 7 0).mono (by decide)) ((of_fields (Mach.FieldsOnly.darnReturned m)).mono (by decide))

/-- The fields that change as the end of Darn is raised and recorded. -/
def darnEndFields : List Field := bitField (blkBase .red + 0x10) I.RED_DARN_FAILED :: eventRegs.map wholeReg

section
variable (m : Mach) (l : LaneId) (result step p : Nat)

theorem Mach.DarnKept.darnEndRecorded : m.DarnKept darnEndFields (m.darnEndRecorded l result step p) :=
  .trans (.trans (.trans (.dropSnap m) (.updSys _ _)) (.raiseAll _ _ _ (by decide))) (.record _ _ _ _ _ _ (by decide))

theorem Mach.raised_darnEndRecorded : (m.darnEndRecorded l result step p).Raised .red I.RED_DARN_FAILED := by
  have hraised : (m.darnEndRaised l).Raised .red I.RED_DARN_FAILED := Mach.raised_raiseAll _ .red (by decide)
  exact hraised.keeps (fun k => (Mach.keeps_record _ _ _ _ _ _ k).2) (by decide)

theorem Mach.mode_darnEndRecorded : (m.darnEndRecorded l result step p).sys.mode = m.sys.mode := by
  simp [Mach.darnEndRecorded, Mach.darnEndRaised, Mach.dropSnap]

end

/-- Darn has failed or has been aborted: the lane is excluded again, and the module is in SERVICE_2. -/
structure Mach.DarnEnded (m n : Mach) (l : LaneId) (result : Nat) : Prop where
  entered : n.Entered 10 7 0
  role : (n.lane l).role = .excluded
  lane : n.Reads F.VOT_EXCLUSION_LANE (laneIx l)
  cause : n.Reads F.VOT_EXCLUSION_CAUSE 12
  result : n.Reads F.RED_DARN_STATUS_RESULT result
  failStep : n.Reads F.RED_DARN_STATUS_FAIL_STEP m.darnStep
  step : n.Reads F.RED_DARN_STATUS_STEP 0
  raised : n.Raised .red I.RED_DARN_FAILED
  si : ∀ k, (n.lane k).si = (m.lane k).si

theorem Mach.darnStep_lt (m : Mach) : m.darnStep < 16 := Nat.mod_lt _ (by decide)

theorem Mach.reads_darnEndShown (m : Mach) (aborted : Bool) (win : Nat) (l : LaneId) :
    (m.darnEndShown aborted win l).Reads F.RED_DARN_STATUS_RESULT (if aborted then 3 else 2) ∧
    (m.darnEndShown aborted win l).Reads F.RED_DARN_STATUS_FAIL_STEP m.darnStep := by
  have hstep : m.darnStep % 16 = m.darnStep := Nat.mod_eq_of_lt m.darnStep_lt
  have hresult : (if aborted then 3 else 2) % 16 = if aborted then 3 else 2 := by cases aborted <;> rfl
  constructor <;> intro k
  all_goals
    unfold Mach.darnEndShown Regs.showDarnEnd
    rw [Mach.lane_mapLanes]
    simp (disch := decide) only [Regs.fld_put_ne, Regs.fld_put_same, Regs.fld_put_beside]
  · exact hresult
  · exact hstep

theorem Mach.DarnKept.darnEndShown (m : Mach) (aborted : Bool) (win : Nat) (l : LaneId) :
    (m.excludeLane l 12 win).DarnKept [wholeReg 0x4000A054, F.RED_STATUS_DARN_ACTIVE] (m.darnEndShown aborted win l) :=
  .mapLanes _ fun _ => .withRegs (.put (.put (.put (.put (.refl _ _) _ (by decide)) _ (by decide)) _ (by decide)) _ (by decide))

/-- The fields that change from the record of its end on. -/
def darnBackFields : List Field := darnEndFields ++ (returnFields ++ transitionFields)

/-- The fields that change from the exclusion on. -/
def darnOverFields : List Field := exclusionFields ++ [wholeReg 0x4000A054, F.RED_STATUS_DARN_ACTIVE] ++ darnBackFields

section
variable {m : Mach} {l : LaneId} (hj : m.joiner = some l) (hmode : m.sys.mode = 10) (hdue : m.sys.boundary = false ∨ m.preempted = false)
include hj hmode hdue

theorem Mach.darnFail_ended (aborted : Bool) (win : Nat) : m.DarnEnded (m.darnFail aborted win) l (if aborted then 3 else 2) := by
  obtain ⟨p, he⟩ := Mach.darnFail_eq hj hmode hdue aborted win
  obtain ⟨hlane, hcause⟩ := m.reads_exclusionShown l
  obtain ⟨hresult, hfail⟩ := m.reads_darnEndShown aborted win l
  have hmode' : (m.darnEndShown aborted win l).sys.mode = 10 := (m.mode_excludeLane_darn l win).trans hmode
  have hshown : (m.exclusionShown l 12).DarnKept darnOverFields (m.darnEndShown aborted win l) :=
    .trans ((Mach.DarnKept.excludeLane m l win).mono (by decide)) ((Mach.DarnKept.darnEndShown m aborted win l).mono (by decide))
  rw [he]
  generalize m.darnEndShown aborted win l = n at hresult hfail hmode' hshown
  have hrecorded := Mach.DarnKept.darnEndRecorded n l (if aborted then 3 else 2) m.darnStep p
  have hraised := Mach.raised_darnEndRecorded n l (if aborted then 3 else 2) m.darnStep p
  have hmode'' := (Mach.mode_darnEndRecorded n l (if aborted then 3 else 2) m.darnStep p).trans hmode'
  generalize n.darnEndRecorded l (if aborted then 3 else 2) m.darnStep p = o at hrecorded hraised hmode''
  have hback := Mach.DarnKept.darnReturned o
  have hrest : n.DarnKept darnBackFields o.darnReturned := .trans (hrecorded.mono (by decide)) (hback.mono (by decide))
  have hall : (m.exclusionShown l 12).DarnKept darnOverFields o.darnReturned := .trans hshown (hrest.mono (by decide))
  have hrole : ((m.exclusionShown l 12).lane l).role = .excluded := by rw [(m.lane_exclusionShown l l).1, if_pos rfl]
  exact {
    entered := (Mach.entered_setMode_of_darn hmode'' 7 0).fields (Mach.FieldsOnly.darnReturned o) (by decide)
    role := hall.role hrole (by decide)
    lane := hlane.kept hall.regs (by decide)
    cause := hcause.kept hall.regs (by decide)
    result := hresult.kept hrest.regs (by decide)
    failStep := hfail.kept hrest.regs (by decide)
    step := (Mach.step_setMode_of_darn hmode'' 7 0).kept (Mach.FieldsOnly.darnReturned o).regs (by decide)
    raised := hraised.kept hback.regs (by decide)
    si := fun k => (hall.si k).trans (m.lane_exclusionShown l k).2 }

end

end Sys2Proof.Machine


namespace Sys2Proof.Machine

/-! ### Re-admission (R159 step 10) -/

/-- The registers that show a re-admission. -/
def Regs.showReadmission (epoch : Nat) (r : Regs) : Regs :=
  (((r.put F.RED_EPOCH_EPOCH epoch).put F.RED_DARN_STATUS_RESULT 1).put F.RED_DARN_STATUS_STEP 0).put F.RED_STATUS_DARN_ACTIVE 0

/-- The lane serves again, and every lane shows it. -/
def Mach.readmissionShown (m : Mach) (l : LaneId) : Mach :=
  (m.setRole l .serving).mapLanes (fun x => { x with regs := x.regs.showReadmission (((m.setRole l .serving).fld F.RED_EPOCH_EPOCH + 1) % 65536) })

/-- What Darn held is dropped, and its success is raised. -/
def Mach.readmissionRaised (m : Mach) : Mach :=
  ((m.stopDegraded.lowerReplace).dropSnap.updSys (fun s => { s with track := 0, probRun := 0 })).raiseAll .red I.RED_DARN_DONE

/-- A re-admission up to its record. -/
def Mach.readmissionRecorded (m : Mach) (l : LaneId) (p : Nat) : Mach := m.readmissionRaised.record 0x1002 (laneIx l) 1 0 p

theorem Mach.readmit_eq (m : Mach) (l : LaneId) : ∃ p, m.readmit l = ((m.readmissionShown l).readmissionRecorded l p).setMode 6 0 := ⟨_, rfl⟩

theorem Lane.darnKept_stopDegraded (x : Lane) : x.DarnKept [wholeReg 0x4000A00C, wholeReg 0x4000A044, wholeReg 0x4000A048]
    { x with degUs := 0, regs := (((x.regs.put F.RED_STATUS_DEGRADED 0).put F.RED_DEGRADED_ELAPSED_SECONDS 0).put F.RED_DEGRADED_REMAIN_SECONDS 0) } where
  rest := rfl
  role _ := rfl
  regs := .put (.put (.put (.refl _ _) _ (by decide)) _ (by decide)) _ (by decide)

theorem Mach.DarnKept.stopDegraded (m : Mach) : m.DarnKept [wholeReg 0x4000A00C, wholeReg 0x4000A044, wholeReg 0x4000A048] m.stopDegraded :=
  .mapLanes m Lane.darnKept_stopDegraded

theorem Mach.FieldsOnly.lowerReplace (m : Mach) : m.FieldsOnly [wholeReg 0x4000A05C, wholeReg 0x4000A00C, wholeReg 0x4000D094] m.lowerReplace := by
  refine .mapLanes m fun x => ?_
  unfold Regs.replacePin
  refine .put (.put (.put (.put (.put (.put (.refl _ _) _ ?_) _ ?_) _ ?_) _ ?_) _ ?_) _ ?_
  all_goals decide

/-- The fields that change as a re-admission is raised and recorded. -/
def readmissionFields : List Field :=
  [wholeReg 0x4000A00C, wholeReg 0x4000A044, wholeReg 0x4000A048, wholeReg 0x4000A05C, wholeReg 0x4000D094,
   bitField (blkBase .red + 0x10) I.RED_DARN_DONE] ++ eventRegs.map wholeReg

theorem Mach.DarnKept.readmissionRaised (m : Mach) : m.DarnKept readmissionFields m.readmissionRaised := by
  have hstop := (Mach.DarnKept.stopDegraded m).mono (gs := readmissionFields) (by decide)
  have hlower := (Mach.FieldsOnly.lowerReplace m.stopDegraded).mono (gs := readmissionFields) (by decide)
  exact .trans (.trans (hstop.trans (.of_fields hlower)) (.trans (.dropSnap _) (.updSys _ _))) (.raiseAll _ _ _ (by decide))

section
variable (m : Mach) (l : LaneId) (p : Nat)

theorem Mach.DarnKept.readmissionRecorded : m.DarnKept readmissionFields (m.readmissionRecorded l p) :=
  .trans (.readmissionRaised m) (.record _ _ _ _ _ _ (by decide))

theorem Mach.raised_readmissionRecorded : (m.readmissionRecorded l p).Raised .red I.RED_DARN_DONE := by
  have hraised : m.readmissionRaised.Raised .red I.RED_DARN_DONE := Mach.raised_raiseAll _ .red (by decide)
  exact hraised.keeps (fun k => (Mach.keeps_record _ _ _ _ _ _ k).2) (by decide)

theorem Mach.mode_readmissionRecorded : (m.readmissionRecorded l p).sys.mode = m.sys.mode := by
  have hraised : m.readmissionRaised.sys.mode = m.sys.mode := by
    have hlower : m.stopDegraded.lowerReplace.sys = m.sys := by rw [Mach.lowerReplace, Mach.mapLanes_sys, Mach.stopDegraded, Mach.mapLanes_sys]
    have hdrop : m.stopDegraded.lowerReplace.dropSnap.sys.mode = m.sys.mode := by
      rw [Mach.dropSnap, Mach.updSys_sys, Mach.mapLanes_sys, hlower]
    rw [Mach.readmissionRaised, Mach.raiseAll_sys, Mach.updSys_sys]
    exact hdrop
  rw [Mach.readmissionRecorded, Mach.record_sys, hraised]

theorem Mach.mode_readmissionShown : (m.readmissionShown l).sys.mode = m.sys.mode := by
  rw [Mach.readmissionShown, Mach.mapLanes_sys, Mach.setRole, Mach.refreshServing_sys, Mach.updLane_sys]

theorem Mach.lane_readmissionShown (k : LaneId) :
    ((m.readmissionShown l).lane k).role = (if k = l then .serving else (m.lane k).role) ∧ ((m.readmissionShown l).lane k).si = (m.lane k).si := by
  have hserving := Mach.FieldsOnly.of_refreshServing (m.updLane l (fun x => { x with role := .serving, probation := false }))
  unfold Mach.readmissionShown Mach.setRole
  rw [Mach.lane_mapLanes]
  dsimp only
  rw [hserving.role, hserving.si]
  by_cases hk : k = l
  · subst hk
    simp
  · simp [Mach.lane_updLane_ne _ _ hk, hk]

end

theorem Mach.setRole_fields (m : Mach) (l : LaneId) (r : Role) (k : LaneId) : Regs.ChangesIn servingFields (m.lane k).regs ((m.setRole l r).lane k).regs := by
  have hregs : ((m.updLane l (fun x => { x with role := r, probation := false })).lane k).regs = (m.lane k).regs := by
    by_cases hk : k = l
    · rw [hk, Mach.lane_updLane_self]
    · rw [Mach.lane_updLane_ne _ _ hk]
  rw [← hregs]
  exact (Mach.FieldsOnly.of_refreshServing _).regs k

theorem Mach.reads_readmissionShown {m : Mach} {e : Nat} (h : m.Reads F.RED_EPOCH_EPOCH e) (l : LaneId) :
    (m.readmissionShown l).Reads F.RED_EPOCH_EPOCH ((e + 1) % 65536) ∧ (m.readmissionShown l).Reads F.RED_DARN_STATUS_RESULT 1 := by
  have hepoch : (m.setRole l .serving).fld F.RED_EPOCH_EPOCH = e := (h.kept (m.setRole_fields l .serving) (by decide)) _
  unfold Mach.readmissionShown Regs.showReadmission
  rw [hepoch]
  constructor <;> intro k
  all_goals
    rw [Mach.lane_mapLanes]
    simp (disch := decide) only [Regs.fld_put_ne, Regs.fld_put_same, Regs.fld_put_beside]
  · exact Nat.mod_mod _ _
  · rfl

/-- The fields that change from the record of the re-admission on. -/
def readmittedFields : List Field := readmissionFields ++ transitionFields

/-- Darn has succeeded: the lane serves, and the module is in SERVICE_3. -/
structure Mach.Readmitted (m n : Mach) (l : LaneId) (epoch : Nat) : Prop where
  entered : n.Entered 10 6 0
  role : (n.lane l).role = .serving
  epoch : n.Reads F.RED_EPOCH_EPOCH epoch
  result : n.Reads F.RED_DARN_STATUS_RESULT 1
  step : n.Reads F.RED_DARN_STATUS_STEP 0
  raised : n.Raised .red I.RED_DARN_DONE
  si : ∀ k, (n.lane k).si = (m.lane k).si

theorem Mach.readmit_readmitted {m : Mach} {e : Nat} (hmode : m.sys.mode = 10) (h : m.Reads F.RED_EPOCH_EPOCH e) (l : LaneId) :
    m.Readmitted (m.readmit l) l ((e + 1) % 65536) := by
  obtain ⟨p, he⟩ := m.readmit_eq l
  obtain ⟨hepoch, hresult⟩ := Mach.reads_readmissionShown h l
  have hlane := m.lane_readmissionShown l
  have hmode' := (m.mode_readmissionShown l).trans hmode
  rw [he]
  generalize m.readmissionShown l = n at hepoch hresult hlane hmode'
  have hrecorded := Mach.DarnKept.readmissionRecorded n l p
  have hraised := n.raised_readmissionRecorded l p
  have hmode'' := (n.mode_readmissionRecorded l p).trans hmode'
  generalize n.readmissionRecorded l p = o at hrecorded hraised hmode''
  have hset := Mach.DarnKept.setMode o 6 0
  have hall : n.DarnKept readmittedFields (o.setMode 6 0) := .trans (hrecorded.mono (by decide)) (hset.mono (by decide))
  exact {
    entered := Mach.entered_setMode_of_darn hmode'' 6 0
    role := hall.role (by rw [(hlane l).1, if_pos rfl]) (by decide)
    epoch := hepoch.kept hall.regs (by decide)
    result := hresult.kept hall.regs (by decide)
    step := Mach.step_setMode_of_darn hmode'' 6 0
    raised := hraised.kept hset.regs (by decide)
    si := fun k => (hall.si k).trans (hlane k).2 }

end Sys2Proof.Machine


/-! # Starts of Darn (R158) -/
namespace Sys2Proof.Machine

/-! ### A start that is asked for -/

/-- A refused start as the lanes show it. -/
def Mach.refusalShown (m : Mach) : Mach := ((m.putAll F.RED_DARN_STATUS_RESULT 4).err .red).raiseAll .red I.RED_DARN_FAILED

/-- A refused start and its record. -/
def Mach.refusalRecorded (m : Mach) (l : LaneId) (p : Nat) : Mach := m.refusalShown.record 0x1002 (laneIx l) 4 0 p

/-- The lane is barred from Darn, and is to be replaced. -/
def Mach.barred (m : Mach) (l : LaneId) (cause : Nat) : Mach := (m.putAll F.RED_STATUS_DARN_BARRED 1).raiseReplace l cause

theorem Mach.darnAsk_refused_eq {m : Mach} {l : LaneId} (hl : m.darnLane = some l) (hr : m.darnRefused l = true) : ∃ p cause,
    m.darnAsk = (m.refusalRecorded l p).barred l cause ∨ m.darnAsk = m.refusalRecorded l p := by
  unfold Mach.darnAsk
  rw [hl]
  dsimp only [Option.getD_some]
  rw [if_pos (.inl hr)]
  split
  · exact ⟨_, _, .inl rfl⟩
  · exact ⟨_, 0, .inr rfl⟩

theorem Mach.darnAsk_granted {m : Mach} {l : LaneId} (hl : m.darnLane = some l) (hr : m.darnRefused l = false) :
    m.darnAsk = m.updSys (fun s => { s with darnDue := true }) := by
  unfold Mach.darnAsk
  rw [hl]
  dsimp only [Option.getD_some]
  exact if_neg (by simp [hr])

/-- The fields that show a refused start. -/
def refusalFields : List Field := [F.RED_DARN_STATUS_RESULT, wholeReg 0x4000A020, bitField (blkBase .red + 0x10) I.RED_DARN_FAILED]

theorem Mach.FieldsOnly.incAllReg (m : Mach) (a : Nat) : m.FieldsOnly [wholeReg a] (m.incAllReg a) :=
  .mapLanes m fun x => .of_keeps (Regs.keeps_set (.refl x.regs [a]) _ List.mem_cons_self) fun _ h => h

theorem Mach.FieldsOnly.refusalShown (m : Mach) : m.FieldsOnly refusalFields m.refusalShown :=
  .trans (.trans (.putAll m _ (by decide)) (.mono (.incAllReg _ 0x4000A020) (by decide))) (.raiseAll _ _ _ (by decide))

theorem Mach.FieldsOnly.barred (m : Mach) (l : LaneId) (cause : Nat) : m.FieldsOnly (F.RED_STATUS_DARN_BARRED :: replaceFields) (m.barred l cause) :=
  .trans (.putAll m _ (by decide)) (.mono (.raiseReplace _ _ _) (by decide))

/-- A start of Darn was refused: RESULT 4, its interrupt and its record, and nothing else but the bar and the replace request. -/
structure Mach.StartRefused (m n : Mach) (l : LaneId) : Prop where
  result : n.Reads F.RED_DARN_STATUS_RESULT 4
  raised : n.Raised .red I.RED_DARN_FAILED
  recorded : n.Recorded 0x1002 (laneIx l) 4 0
  sys : n.sys = m.sys
  sc : n.sc = m.sc
  regsOnly : m.RegsOnly n

namespace Mach.StartRefused

variable {m n o : Mach} {l : LaneId}

theorem fields (h : m.StartRefused n l) {fs : List Field} (g : n.FieldsOnly fs o) (hr : apartFrom F.RED_DARN_STATUS_RESULT fs = true)
    (hi : apartFrom (bitField (blkBase .red + 0x10) I.RED_DARN_FAILED) fs = true) : m.StartRefused o l where
  result := h.result.kept g.regs hr
  raised := h.raised.kept g.regs hi
  recorded := g.recorded h.recorded
  sys := g.sys.trans h.sys
  sc := g.sc.trans h.sc
  regsOnly := h.regsOnly.trans g.regsOnly

end Mach.StartRefused

theorem Mach.regsOnly_record (m : Mach) (code p0 p1 p2 p3 : Nat) : m.RegsOnly (m.record code p0 p1 p2 p3) :=
  Mach.regsOnly_of_outside (fun l => (Mach.keeps_record m code p0 p1 p2 p3 l).regsOnly) (by simp [Mach.outside])

theorem Mach.startRefused_refusalRecorded (m : Mach) (l : LaneId) (p : Nat) : m.StartRefused (m.refusalRecorded l p) l := by
  have hshown := Mach.FieldsOnly.refusalShown m
  have hresult : m.refusalShown.Reads F.RED_DARN_STATUS_RESULT 4 := by
    have hput : (m.putAll F.RED_DARN_STATUS_RESULT 4).Reads F.RED_DARN_STATUS_RESULT 4 := Mach.reads_putAll m F.RED_DARN_STATUS_RESULT 4 (by decide) (by decide)
    have hinc := Mach.FieldsOnly.incAllReg (m.putAll F.RED_DARN_STATUS_RESULT 4) 0x4000A020
    have hraise := Mach.FieldsOnly.raiseAll (fs := [bitField (blkBase .red + 0x10) I.RED_DARN_FAILED])
      ((m.putAll F.RED_DARN_STATUS_RESULT 4).incAllReg 0x4000A020) .red I.RED_DARN_FAILED (by decide)
    exact (hput.kept hinc.regs (by decide)).kept hraise.regs (by decide)
  have hraised : m.refusalShown.Raised .red I.RED_DARN_FAILED := Mach.raised_raiseAll _ .red (by decide)
  have hkeeps := fun k => (Mach.keeps_record m.refusalShown 0x1002 (laneIx l) 4 0 p k).2
  exact {
    result := fun k => ((hkeeps k).fld _ (by decide)).trans (hresult k)
    raised := hraised.keeps hkeeps (by decide)
    recorded := Mach.recorded_record _ _ _ _ _ _
    sys := (Mach.record_sys _ _ _ _ _ _).trans hshown.sys
    sc := (Mach.record_sc _ _ _ _ _ _).trans hshown.sc
    regsOnly := hshown.regsOnly.trans (Mach.regsOnly_record _ _ _ _ _ _) }

/-- A start that R158 refuses. -/
theorem Mach.darnAsk_refused {m : Mach} {l : LaneId} (hl : m.darnLane = some l) (hr : m.darnRefused l = true) : m.StartRefused m.darnAsk l := by
  obtain ⟨p, cause, he⟩ := Mach.darnAsk_refused_eq hl hr
  have hrec := m.startRefused_refusalRecorded l p
  rcases he with he | he <;> rw [he]
  · exact hrec.fields (.barred _ _ _) (by decide) (by decide)
  · exact hrec

/-! ### A start by itself -/

theorem Mach.darnAuto_due {m : Mach} {l : LaneId} (hauto : m.fld F.RED_DARN_CFG_AUTO = 1) (hdue : m.sys.darnDue = false)
    (hrole : (m.lane l).role = .excluded) (hdelay : m.darnDelayOver = true) :
    m.darnAuto = (m.updSys (fun s => { s with darnFrom := none })).darnAsk := by
  have hset : (m.roleSet .excluded != 0) = true := by
    rw [bne_iff_ne]
    intro h
    have hnone := (laneSet_eq_zero_iff _).mp h l
    rw [hrole] at hnone
    exact absurd hnone (by decide)
  exact if_pos (by rw [hauto, hdue, hset, hdelay]; rfl)

theorem Mach.darnAuto_idle {m : Mach} (h : m.darnDelayOver = false ∨ m.fld F.RED_DARN_CFG_AUTO ≠ 1 ∨ m.sys.darnDue = true) : m.darnAuto = m :=
  if_neg (by rcases h with h | h | h <;> simp [h])

end Sys2Proof.Machine


namespace Sys2Proof.Machine

/-! ### A write of RED.DARN_CTRL (R158, R160, R351) -/

/-- RED.DARN_CTRL holds nothing of what is written. -/
theorem findRow_darnCtrl : ∃ row, findRow .red 0x50 = some row ∧ row.acc = .wo := by
  have h : (findRow .red 0x50).map (·.acc) = some .wo := by decide
  exact Option.map_eq_some_iff.mp h

theorem Regs.write_darnCtrl (r : Regs) (v : Nat) : r.write .red 0x50 v = r := by
  obtain ⟨row, hrow, hacc⟩ := findRow_darnCtrl
  unfold Regs.write
  rw [hrow]
  dsimp only
  rw [hacc]
  exact if_pos (by decide)

theorem Mach.lane_takeWrite_darnCtrl (m : Mach) (ls : List LaneId) (v : Nat) (late : Bool) (k : LaneId) :
    (m.takeWrite ls .red 0x50 v late).lane k = m.lane k := by
  have hstep : ∀ (n : Mach) (l : LaneId), (n.updLane l (fun x => { x with regs := x.regs.take .red 0x50 v (m.lockBarred .red) })).lane k = n.lane k :=
    fun n l => by
      by_cases hk : k = l
      · rw [hk, Mach.lane_updLane_self, Regs.take_of_plain _ _ _ _ (by decide), Regs.write_darnCtrl]
      · rw [Mach.lane_updLane_ne _ _ hk]
  have hsh : (decide (0x800 ≤ 0x50) || (decide (0x50 = 0x2C) && bitOf v 0)) = false := by simp
  unfold Mach.takeWrite
  dsimp only
  rw [hsh, if_neg (by decide), Mach.lane_vectorIf]
  exact foldl_keeps (fun n : Mach => n.lane k) hstep ls m

/-- No register shows a write of RED.DARN_CTRL. -/
theorem Mach.laneTake_darnCtrl (m : Mach) (v : Nat) (late : Bool) : ∃ n : Mach, (∀ k, n.lane k = m.lane k) ∧ n.sys = m.sys ∧ n.fed = m.fed ∧
    m.laneTake .red 0x50 v late = n.ownEffect m.participants .red 0x50 v := by
  have hwritten := Mach.written_takeWrite m m.participants (b := .red) (off := 0x50) v late (by decide) (by decide) (by decide) (by decide)
  have hlane := fun k => m.lane_takeWrite_darnCtrl m.participants v late k
  unfold Mach.laneTake
  dsimp only
  rw [if_neg (c := Blk.red = .dma ∧ 0x400 ≤ 0x50) (by decide), if_neg (c := Blk.red = .bst ∧ 0x50 = 0x40) (by decide), if_pos (c := 0x50 < 0x800) (by decide)]
  generalize m.takeWrite m.participants .red 0x50 v late = o at hwritten hlane
  refine ⟨o.storeSetting (blkBase .red + 0x50) (o.leadLane.regs.get (blkBase .red + 0x50)), fun k => ?_, ?_, ?_, rfl⟩
  · rw [Mach.lane_storeSetting, hlane]
  · rw [Mach.storeSetting_sys, hwritten.sys]
  · rw [Mach.storeSetting_eq]
    exact hwritten.fed

/-- What decides on a start of Darn stands in the lanes, in `sys` and in the standby test. -/
theorem Mach.lead_of_alike {m n : Mach} (hl : ∀ k, n.lane k = m.lane k) (hs : n.sys = m.sys) (hf : n.fed = m.fed) : n.lead = m.lead :=
  Mach.lead_congr (fun k => by rw [hl]) (fun k => by rw [hl]) (by rw [hs]) (by rw [hf])

theorem Mach.darnRefused_of_alike {m n : Mach} (hl : ∀ k, n.lane k = m.lane k) (hs : n.sys = m.sys) (hf : n.fed = m.fed) (l : LaneId) :
    n.darnRefused l = m.darnRefused l := by
  unfold Mach.darnRefused Mach.recentExclusions Mach.serving Mach.fld Mach.leadLane
  rw [Mach.lead_of_alike hl hs hf]
  simp only [hl, hs]

theorem Mach.darnLane_of_alike {m n : Mach} (hl : ∀ k, n.lane k = m.lane k) : n.darnLane = m.darnLane := by
  unfold Mach.darnLane
  simp only [hl]

/-- The answer of a lane to DARN_CTRL.START is R158's own. -/
theorem Mach.regJudge_darnStart (m : Mach) (k : LaneId) (late : Bool) :
    (m.regJudge k .red 0x50 1 late).1 = if m.darnRefused (m.darnLane.getD .a) || m.darnLane.isNone then 7 else 1 := by
  obtain ⟨row, hrow, hacc⟩ := findRow_darnCtrl
  have hrange : m.inRange (blkBase .red + 0x50) 1 = true := rfl
  have hown : m.ownRefuses k .red 0x50 1 late = (m.darnRefused (m.darnLane.getD .a) || m.darnLane.isNone) := rfl
  unfold Mach.regJudge
  dsimp only
  rw [if_neg (by decide), if_neg (by decide), if_neg (by decide), if_neg (by decide), if_neg (by decide), hrow]
  dsimp only
  rw [hacc, hrange, hown]
  dsimp only
  cases m.darnRefused (m.darnLane.getD .a) || m.darnLane.isNone <;> rfl

/-- A start that the lanes take is one that R158 grants. -/
theorem Mach.granted_of_takes {m : Mach} {q : BitVec 3} (h : m.Takes .red 0x50 1 ⟨q, 0⟩) : ∃ l, m.darnLane = some l ∧ m.darnRefused l = false := by
  obtain ⟨hp, hall, -⟩ := h
  obtain ⟨k, hk⟩ := List.exists_mem_of_ne_nil _ hp
  have hone := (hall k hk).2
  rw [Mach.regJudge_darnStart] at hone
  have hfree : (m.darnRefused (m.darnLane.getD .a) || m.darnLane.isNone) = false := by
    by_contra h
    rw [Bool.not_eq_false] at h
    rw [if_pos h] at hone
    exact absurd hone (by decide)
  rw [Bool.or_eq_false_iff] at hfree
  obtain ⟨l, hl⟩ := Option.isSome_iff_exists.mp (by simpa using hfree.2)
  exact ⟨l, hl, by simpa [hl] using hfree.1⟩

section
variable {m : Mach} {v st : Nat} {q : BitVec 3} (hp : m.participants ≠ [])
  (hall : ∀ k ∈ m.participants, m.mute q k = false ∧ ∀ late, (m.regJudge k .red 0x50 v late).1 = st)
include hp hall

/-- A write of RED.DARN_CTRL that every lane answers alike. -/
theorem Mach.anyWrite_darnCtrl : ∃ clk n late, n = ({ m with clk := clk } : Mach) ∧
    (st = 1 → m.anyWrite .red 0x50 v ⟨q, 0⟩ = (n.laneTake .red 0x50 v late).complete (9 + m.regsWindow) (statusWord 1 m.partSet 0x50) true) ∧
    (st = 7 → m.anyWrite .red 0x50 v ⟨q, 0⟩ = (n.laneRefuse .red 0x50 v).complete (9 + m.regsWindow) (statusWord 7 0 0x50) false) := by
  obtain ⟨clk, hclk⟩ := m.wakeLanes_eq m.participants
  obtain ⟨n, hn⟩ : ∃ n, n = ({ m with clk := clk } : Mach) := ⟨_, rfl⟩
  have hwake : n.participants = m.participants := by rw [hn]; rfl
  have hset : n.partSet = m.partSet := by rw [hn]; rfl
  have hall' : ∀ k ∈ n.participants, n.mute q k = false ∧ (n.regJudge k .red 0x50 v (isLate 0 k)).1 = st := by
    rw [hwake, hn]
    exact fun k hk => ⟨(hall k hk).1, (hall k hk).2 _⟩
  have hst := Mach.verdict_of_alike (hwake ▸ hp) hall'
  have hmod : (blkBase .red + 0x50) % 0x1000 = 0x50 := rfl
  have hpage : pageOf (blkBase .red + 0x50) = some .red := by decide
  have hwrite : m.anyWrite .red 0x50 v ⟨q, 0⟩ = m.laneRegs (9 + m.regsWindow) (blkBase .red + 0x50) v ⟨q, 0⟩ := rfl
  have hhub : ∀ c : Prop, ¬(blkHome .red = .hub ∧ c) := fun c hh => absurd hh.1 (by decide)
  refine ⟨clk, n, n.participants.any (isLate 0), hn, ?_⟩
  rw [hwrite]
  unfold Mach.laneRegs
  dsimp only
  rw [hclk, ← hn, hmod, hpage]
  cases hcons : n.participants with
  | nil => exact absurd (hwake ▸ hcons) hp
  | cons l t =>
    dsimp only
    rw [hst, if_neg (hhub _), if_neg (hhub _)]
    refine ⟨fun h => ?_, fun h => ?_⟩
    · rw [if_pos h, ← hset]
      subst h
      rw [Mach.acceptors_of_alike hall']
    · rw [if_neg (by rw [h]; decide), if_pos h]

end

theorem Mach.ownEffect_darnStart (m : Mach) (ls : List LaneId) : m.ownEffect ls .red 0x50 1 = m.darnAsk := by
  unfold Mach.ownEffect
  dsimp only
  rw [if_pos rfl, if_neg (by decide), if_pos (by decide)]

theorem Mach.ownEffect_darnAbort (m : Mach) (ls : List LaneId) : m.ownEffect ls .red 0x50 2 = m.darnFail true 0 := by
  unfold Mach.ownEffect
  dsimp only
  rw [if_pos rfl, if_pos (by decide)]

theorem Mach.laneRefuse_darnStart (m : Mach) : m.laneRefuse .red 0x50 1 = m.darnAsk := by
  have hdarn : (decide (Blk.red = .red) && decide (0x50 = 0x50) && bitOf 1 0 && !bitOf 1 1) = true := by decide
  unfold Mach.laneRefuse
  dsimp only
  rw [hdarn, if_pos rfl, if_neg (by decide), if_pos rfl]

/-- A start that the lanes take falls due. -/
theorem Mach.anyWrite_darnStart {m : Mach} {q : BitVec 3} (h : m.Takes .red 0x50 1 ⟨q, 0⟩) : ∃ n o : Mach, m.anyWrite .red 0x50 1 ⟨q, 0⟩ = n ∧
    o.CtlOnly n ∧ (∀ k, o.lane k = m.lane k) ∧ o.sys = { m.sys with darnDue := true } ∧ m.SlotAccepted n (9 + m.regsWindow) 0x50 := by
  obtain ⟨l, hl, hr⟩ := Mach.granted_of_takes h
  obtain ⟨hp, hall, -⟩ := h
  have hanswer : ∀ k ∈ m.participants, m.mute q k = false ∧ ∀ late, (m.regJudge k .red 0x50 1 late).1 = 1 := fun k hk =>
    ⟨(hall k hk).1, fun late => by rw [Mach.regJudge_darnStart, hl]; simp [hr]⟩
  obtain ⟨clk, n, late, hn, hone, -⟩ := Mach.anyWrite_darnCtrl hp hanswer
  have hlane : ∀ k, n.lane k = m.lane k := fun k => by rw [hn, Mach.lane_withClk]
  obtain ⟨o, holane, hosys, hofed, htake⟩ := n.laneTake_darnCtrl 1 late
  have halike : ∀ k, o.lane k = m.lane k := fun k => (holane k).trans (hlane k)
  have hsys : o.sys = m.sys := by rw [hosys, hn]
  have hfed : o.fed = m.fed := by rw [hofed, hn]
  have hgranted := Mach.darnAsk_granted (m := o) (l := l) (by rw [Mach.darnLane_of_alike halike, hl])
    (by rw [Mach.darnRefused_of_alike halike hsys hfed, hr])
  obtain ⟨honly, hslot⟩ := (o.updSys (fun s => { s with darnDue := true })).complete_spec (9 + m.regsWindow) (statusWord 1 m.partSet 0x50) true
  refine ⟨_, o.updSys (fun s => { s with darnDue := true }), rfl, ?_, fun k => ?_, ?_, ?_⟩
  · rw [hone rfl, htake, Mach.ownEffect_darnStart, hgranted]
    exact honly
  · rw [Mach.lane_updSys, halike]
  · rw [Mach.updSys_sys, hsys]
  · rw [hone rfl, htake, Mach.ownEffect_darnStart, hgranted]
    exact hslot

theorem completes_darnStartRequest {s : State} {q : BitVec 3} (h : s.m.Takes .red 0x50 1 ⟨q, 0⟩) : Completes (.darnStartRequest q) s (fun m =>
    m.sys = { s.m.sys with darnDue := true } ∧ s.m.SlotAccepted m (9 + s.m.regsWindow) 0x50 ∧ ∀ k, m.lane k = s.m.lane k) := by
  obtain ⟨n, o, he, ⟨hlane, hsys, -⟩, holane, hosys, hslot⟩ := Mach.anyWrite_darnStart h
  refine completes_of_run (·.anyWrite .red 0x50 1 ⟨q, 0⟩) rfl ?_ ?_ <;> rw [he]
  · rw [hsys, hosys]
  · exact ⟨hsys.trans hosys, hslot, fun k => (hlane k).trans (holane k)⟩

theorem Mach.lastSeq_complete (m : Mach) (slot v : Nat) (accepted : Bool) : (m.complete slot v accepted).lastSeq = m.lastSeq := by
  unfold Mach.complete
  dsimp only
  split
  · rw [Mach.incSc_lastSeq, Mach.emit_lastSeq]
  · rw [Mach.raiseSc_lastSeq, Mach.incSc_lastSeq, Mach.emit_lastSeq]

theorem Mach.CtlOnly.regsOnly {m n : Mach} (h : m.CtlOnly n) (hl : n.lastSeq = m.lastSeq) : m.RegsOnly n := by
  obtain ⟨hlane, -, hph, hfed, hdio, hseq⟩ := h
  exact ⟨fun l => by rw [hlane]; exact .refl _, hph, hfed, hdio, hseq, hl⟩

/-- The write that asked for a refused start is refused itself. -/
theorem completes_darnStartRequest_refused {s : State} {l : LaneId} (hl : s.m.darnLane = some l) (hr : s.m.darnRefused l = true)
    (hp : s.m.participants ≠ []) (hmute : ∀ k ∈ s.m.participants, s.m.mute 0 k = false) : Completes (.darnStartRequest 0) s (fun m =>
    m.Reads F.RED_DARN_STATUS_RESULT 4 ∧ m.Raised .red I.RED_DARN_FAILED ∧ m.Recorded 0x1002 (laneIx l) 4 0 ∧ m.sys = s.m.sys ∧
    Store.get noDone m.sc.done (9 + s.m.regsWindow) = BitVec.ofNat 64 (statusWord 7 0 0x50) ∧ s.m.RegsOnly m) := by
  have hanswer : ∀ k ∈ s.m.participants, s.m.mute 0 k = false ∧ ∀ late, (s.m.regJudge k .red 0x50 1 late).1 = 7 := fun k hk =>
    ⟨hmute k hk, fun late => by rw [Mach.regJudge_darnStart, hl]; simp [hr]⟩
  obtain ⟨clk, n, late, hn, -, hseven⟩ := Mach.anyWrite_darnCtrl hp hanswer
  have hlane : ∀ k, n.lane k = s.m.lane k := fun k => by rw [hn, Mach.lane_withClk]
  have hnsys : n.sys = s.m.sys := by rw [hn]
  have hwoken : s.m.RegsOnly n := Mach.regsOnly_of_outside (fun k => by rw [hlane]; exact .refl _) (by rw [hn]; rfl)
  have hasked := Mach.darnAsk_refused (m := n) (l := l) (by rw [Mach.darnLane_of_alike hlane, hl])
    (by rw [Mach.darnRefused_of_alike hlane hnsys (by rw [hn]), hr])
  obtain ⟨honly, hslot⟩ := n.darnAsk.complete_spec (9 + s.m.regsWindow) (statusWord 7 0 0x50) false
  have hlast := n.darnAsk.lastSeq_complete (9 + s.m.regsWindow) (statusWord 7 0 0x50) false
  have hsys : (n.darnAsk.complete (9 + s.m.regsWindow) (statusWord 7 0 0x50) false).sys = s.m.sys := by rw [honly.2.1, hasked.sys, hnsys]
  have hregs := (hwoken.trans hasked.regsOnly).trans (honly.regsOnly hlast)
  obtain ⟨hkept, -⟩ := honly
  refine completes_of_run (·.anyWrite .red 0x50 1 ⟨0, 0⟩) rfl ?_ ?_ <;> rw [hseven rfl, Mach.laneRefuse_darnStart]
  · rw [hsys]
  · refine ⟨fun k => ?_, fun k => ?_, fun k => ?_, hsys, hslot, hregs⟩
    · rw [hkept]; exact hasked.result k
    · rw [hkept]; exact hasked.raised k
    · rw [hkept]; exact hasked.recorded k

theorem Mach.regsOnly_updSys (m : Mach) (f : Sys → Sys) : m.RegsOnly (m.updSys f) :=
  ⟨fun l => by rw [Mach.lane_updSys]; exact .refl _, rfl, rfl, rfl, rfl, rfl⟩

/-- DARN_AUTO_START with a start that R158 grants, and with one that it refuses. -/
theorem completes_darnAutoStart {s : State} {l : LaneId} (hauto : s.m.fld F.RED_DARN_CFG_AUTO = 1) (hdue : s.m.sys.darnDue = false)
    (hl : s.m.darnLane = some l) (hrole : (s.m.lane l).role = .excluded) (hdelay : s.m.darnDelayOver = true) :
    (s.m.darnRefused l = false → Completes .darnAutoStart s (fun m => m = { s.m with sys := { s.m.sys with darnDue := true, darnFrom := none } })) ∧
    (s.m.darnRefused l = true → Completes .darnAutoStart s (fun m =>
      m.Reads F.RED_DARN_STATUS_RESULT 4 ∧ m.Raised .red I.RED_DARN_FAILED ∧ m.Recorded 0x1002 (laneIx l) 4 0 ∧
      m.sys = { s.m.sys with darnFrom := none } ∧ m.sc = s.m.sc ∧ s.m.RegsOnly m)) := by
  have heq := Mach.darnAuto_due hauto hdue hrole hdelay
  have hlane := fun k => Mach.lane_updSys s.m (fun t => { t with darnFrom := none }) k
  have hl' : (s.m.updSys (fun t => { t with darnFrom := none })).darnLane = some l := by rw [Mach.darnLane_of_alike hlane, hl]
  have hr' : (s.m.updSys (fun t => { t with darnFrom := none })).darnRefused l = s.m.darnRefused l := by
    unfold Mach.darnRefused Mach.recentExclusions Mach.serving Mach.fld Mach.leadLane
    rw [Mach.lead_congr (n := s.m.updSys (fun t => { t with darnFrom := none })) (fun k => by rw [hlane]) (fun k => by rw [hlane]) rfl rfl]
    simp only [hlane]
    rfl
  constructor <;> intro hr
  · have hgranted := heq.trans (Mach.darnAsk_granted hl' (hr'.trans hr))
    refine completes_of_run Mach.darnAuto rfl ?_ hgranted
    rw [hgranted]
    rfl
  · have hrefused := Mach.darnAsk_refused hl' (hr'.trans hr)
    rw [← heq] at hrefused
    have hregs : s.m.RegsOnly s.m.darnAuto :=
      (s.m.regsOnly_updSys _).trans hrefused.regsOnly
    refine completes_of_run Mach.darnAuto rfl ?_ ⟨hrefused.result, hrefused.raised, hrefused.recorded, ?_, ?_, hregs⟩
    · rw [hrefused.sys, Mach.updSys_sys]
    · rw [hrefused.sys, Mach.updSys_sys]
    · rw [hrefused.sc, Mach.updSys_sc]

end Sys2Proof.Machine


/-! # The lane that Darn resets, and DARN_START (R158, R159) -/
namespace Sys2Proof.Machine

/-! ### Commands that leave the module in an active mode -/

/-- A command that leaves the module in an active mode brings no restart of R407 with it. -/
theorem completes_of_active {c : Instr} {s : State} {P : Mach → Prop} (f : Mach → Mach) (hc : exec c s = s.run f)
    (hmode : modeActive (f s.m).sys.mode = true) (h : P (f s.m)) : Completes c s P := by
  refine ⟨f s.m, ?_, h⟩
  rw [hc]
  unfold State.run Mach.settle
  rw [hmode, Bool.not_true, Bool.and_false, Bool.false_and, if_neg Bool.false_ne_true]

/-- What a transition shows stands in the lanes and in `sys`. -/
theorem Mach.Entered.of_alike {m n : Mach} {old k p2 : Nat} (h : m.Entered old k p2) (hl : ∀ l, n.lane l = m.lane l) (hs : n.sys = m.sys) :
    n.Entered old k p2 := by
  unfold Mach.Entered Mach.Reads Mach.Raised Mach.Recorded at *
  simpa only [hl, hs] using h

/-! ### A domain reset -/

/-- A register of another page is not among those that a page's reset takes. -/
theorem Regs.get_dropPage_ne (r : Regs) {a base : Nat} (h : a / 0x1000 ≠ base / 0x1000) : (r.dropPage base).get a = r.get a := by
  unfold Regs.dropPage Regs.get
  induction r with
  | nil => rfl
  | cons e t ih =>
    by_cases ha : a = e.1
    · have hkeep : (decide (e.1 / 0x1000 ≠ base / 0x1000) || decide (e.1 % 0x1000 = 0)) = true := by
        rw [← ha, decide_eq_true h, Bool.true_or]
      rw [List.filter_cons_of_pos (by exact hkeep)]
      simp only [Store.get, ha, if_pos]
    · rw [List.filter_cons]
      split
      · simp only [Store.get, if_neg ha]
        exact ih
      · rw [ih]
        simp only [Store.get, if_neg ha]

/-- The pages of the fast and the ZVL domain. -/
def domainBases : List Nat := [blkBase .rte, blkBase .zvl, blkBase .crc, blkBase .dma]

theorem Lane.fld_domainReset (x : Lane) {f : Field} (h : ∀ b ∈ domainBases, f.addr / 0x1000 ≠ b / 0x1000) : x.domainReset.regs.fld f = x.regs.fld f := by
  have hget : x.domainReset.regs.get f.addr = x.regs.get f.addr := by
    unfold Lane.domainReset
    dsimp only
    rw [Regs.get_dropPage_ne _ (h _ (by simp [domainBases])), Regs.get_dropPage_ne _ (h _ (by simp [domainBases])),
      Regs.get_dropPage_ne _ (h _ (by simp [domainBases])), Regs.get_dropPage_ne _ (h _ (by simp [domainBases]))]
  unfold Regs.fld
  rw [hget]

/-! ### The registers that a lane is filled with (R429) -/

theorem Regs.keeps_fillSettings (s : Store (Option W32)) (as : List Nat) (r : Regs) : r.Keeps (fillSettings s as r) as := by
  refine List.foldlRecOn (motive := fun q : Regs => r.Keeps q as) as _ (.refl r as) fun q hq a ha => ?_
  split
  · exact Regs.keeps_set hq _ ha
  · exact hq

/-- The fields that a lane's fill writes. -/
def fillFields : List Field := laneSettings.map wholeReg ++ [F.RTE_RULE_IF_MIN, F.RTE_RULE_IF_MAX]

theorem Mach.darnKept_fillLane (m : Mach) (x : Lane) : x.DarnKept fillFields (m.fillLane x) := by
  have hfill : Regs.ChangesIn fillFields x.regs (Machine.fillSettings m.sc.settingsNow laneSettings x.regs) :=
    .of_keeps (Regs.keeps_fillSettings _ _ _) (by decide)
  exact .withRegs (.put (hfill.put _ (by decide)) _ (by decide))

/-! ### DARN_START -/

/-- The joining lane's registers are filled, and VOT shows the roles. -/
def Mach.darnFilled (m : Mach) (l : LaneId) : Mach := (m.updLane l m.fillLane).refreshServing

/-- No snapshot and no matches stand, and the joining lane's start-up CRC channels are offered. -/
def Mach.darnOpened (m : Mach) (l : LaneId) : Mach :=
  (m.dropSnap.updSys (fun s => { s with track := 0, probRun := 0, darnFrom := none })).updLane l
    (fun x => { x with regs := x.regs.put F.CRC_STATUS_CHANNELS 1 })

/-- The registers that show the start of Darn for lane `l`. -/
def Regs.showDarnStart (attempts : Nat) (l : LaneId) (r : Regs) : Regs :=
  (((r.put F.RED_DARN_STATUS_ATTEMPTS attempts).put F.RED_DARN_STATUS_LANE (laneIx l)).put F.RED_DARN_STATUS_STEP 2).put F.RED_STATUS_DARN_ACTIVE 1

/-- DARN is entered, and the joining lane is reset. -/
def Mach.darnEntered (m : Mach) (l : LaneId) : Mach := ((m.updSys (fun s => { s with darnDue := false })).setMode 10 0).updLane l Lane.domainReset

theorem Mach.darnStart_eq {m : Mach} {l : LaneId} (hb : m.sys.boundary = true) (hdue : m.sys.darnDue = true) (hpre : m.preempted = false)
    (hmode : m.sys.mode = 7) (hl : m.darnLane = some l) : ∃ p, m.darnStart =
    (((m.darnEntered l).darnFilled l).darnOpened l).mapLanes (fun x => { x with regs := x.regs.showDarnStart p l }) := by
  have hl' : (m.updSys (fun s => { s with darnDue := false })).darnLane = some l := (Mach.darnLane_of_alike (Mach.lane_updSys _ _)).trans hl
  unfold Mach.darnStart
  dsimp only
  rw [if_neg (by simp [hb, hdue, hpre]), hl']
  dsimp only
  rw [if_neg (by rw [Mach.updSys_sys]; exact not_not_intro hmode)]
  exact ⟨_, rfl⟩

theorem Mach.darnStart_idle {m : Mach} (h : m.sys.boundary = false ∨ m.sys.darnDue = false ∨ m.preempted = true) : m.darnStart = m :=
  if_pos (by rcases h with h | h | h <;> simp [h])

/-- A change of one lane that keeps what `Lane.DarnKept` names. -/
theorem Mach.DarnKept.updLane {fs : List Field} (m : Mach) (l : LaneId) {f : Lane → Lane} (h : (m.lane l).DarnKept fs (f (m.lane l))) :
    m.DarnKept fs (m.updLane l f) := fun k => by
  by_cases hk : k = l
  · subst hk
    rw [Mach.lane_updLane_self]
    exact h
  · rw [Mach.lane_updLane_ne _ _ hk]
    exact .refl _ _

/-- The fields that change between the joining lane's reset and the registers that show the start. -/
def openedFields : List Field := fillFields ++ servingFields ++ [F.CRC_STATUS_CHANNELS]

theorem Mach.DarnKept.darnOpened (m : Mach) (l : LaneId) : m.DarnKept openedFields ((m.darnFilled l).darnOpened l) := by
  have hfill : m.DarnKept openedFields (m.updLane l m.fillLane) := .updLane m l ((m.darnKept_fillLane _).mono (by decide))
  have hserving : m.DarnKept openedFields (m.darnFilled l) := hfill.trans (.of_fields (.refreshServing _ (by decide)))
  have hdrop : m.DarnKept openedFields (m.darnFilled l).dropSnap := hserving.trans (.dropSnap _)
  exact hdrop.trans (.trans (.updSys _ _) (.updLane _ l (.withRegs (.put (.refl _ _) _ (by decide)))))

/-- Darn starts for lane `l`. -/
structure Mach.DarnStarted (m n : Mach) (l : LaneId) : Prop where
  mode : n.sys.mode = 10
  due : n.sys.darnDue = false
  shown : n.Reads F.SYS_STATUS_MODE 10
  step : n.Reads F.RED_DARN_STATUS_STEP 2
  lane : n.Reads F.RED_DARN_STATUS_LANE (laneIx l)
  active : n.Reads F.RED_STATUS_DARN_ACTIVE 1
  role : (n.lane l).role = .joining
  si : (n.lane l).si = []
  rte : (n.lane l).rte = Rte.reset
  zvl : (n.lane l).zvl = Zvl.reset
  loaded : (n.lane l).loaded = false
  others : ∀ k, k ≠ l → (n.lane k).role = (m.lane k).role ∧ (n.lane k).si = (m.lane k).si ∧ (n.lane k).rte = (m.lane k).rte ∧
    (n.lane k).zvl = (m.lane k).zvl

theorem Mach.sys_darnOpened (m : Mach) (l : LaneId) : ((m.darnFilled l).darnOpened l).sys.mode = m.sys.mode ∧
    ((m.darnFilled l).darnOpened l).sys.darnDue = m.sys.darnDue := by
  have hsys : (m.darnFilled l).sys = m.sys := by rw [Mach.darnFilled, Mach.refreshServing_sys, Mach.updLane_sys]
  have hdrop : (m.darnFilled l).dropSnap.sys.mode = m.sys.mode ∧ (m.darnFilled l).dropSnap.sys.darnDue = m.sys.darnDue := by
    rw [Mach.dropSnap, Mach.updSys_sys, Mach.mapLanes_sys, hsys]
    exact ⟨rfl, rfl⟩
  rw [Mach.darnOpened, Mach.updLane_sys, Mach.updSys_sys]
  exact hdrop

theorem Mach.reads_showDarnStart (m : Mach) (p : Nat) (l : LaneId) :
    let n := m.mapLanes (fun x => { x with regs := x.regs.showDarnStart p l })
    n.Reads F.RED_DARN_STATUS_STEP 2 ∧ n.Reads F.RED_DARN_STATUS_LANE (laneIx l) ∧ n.Reads F.RED_STATUS_DARN_ACTIVE 1 := by
  have hix : laneIx l % 2 ^ (F.RED_DARN_STATUS_LANE.hi + 1 - F.RED_DARN_STATUS_LANE.lo) = laneIx l := by cases l <;> rfl
  refine ⟨?_, ?_, ?_⟩ <;> intro k
  all_goals
    unfold Regs.showDarnStart
    rw [Mach.lane_mapLanes]
    simp (disch := decide) only [Regs.fld_put_ne, Regs.fld_put_same, Regs.fld_put_beside]
  · rfl
  · exact hix
  · rfl

theorem Mach.darnStart_started {m : Mach} {l : LaneId} (hb : m.sys.boundary = true) (hdue : m.sys.darnDue = true) (hpre : m.preempted = false)
    (hmode : m.sys.mode = 7) (hl : m.darnLane = some l) : m.DarnStarted m.darnStart l := by
  obtain ⟨p, he⟩ := Mach.darnStart_eq hb hdue hpre hmode hl
  have hne : (m.updSys (fun s => { s with darnDue := false })).sys.mode ≠ 10 := by
    rw [Mach.updSys_sys]
    exact fun h => absurd (hmode.symm.trans h) (by decide)
  have hsys := Mach.sys_setMode 10 0 hne
  obtain ⟨-, -, hshown, -⟩ := Mach.entered_setMode 10 0 hne
  have hset : m.DarnKept shownFields _ := .trans (.updSys m _) (Mach.DarnKept.setMode_of_ne hne 10 0)
  have hother : ∀ k, k ≠ l → (m.darnEntered l).lane k = ((m.updSys (fun s => { s with darnDue := false })).setMode 10 0).lane k := fun k hk =>
    Mach.lane_updLane_ne _ _ hk
  have hself : (m.darnEntered l).lane l = (((m.updSys (fun s => { s with darnDue := false })).setMode 10 0).lane l).domainReset :=
    Mach.lane_updLane_self _ _ _
  have hesys : (m.darnEntered l).sys = ((m.updSys (fun s => { s with darnDue := false })).setMode 10 0).sys := Mach.updLane_sys _ _ _
  generalize (m.updSys (fun s => { s with darnDue := false })).setMode 10 0 = n at hsys hshown hset hother hself hesys
  obtain ⟨hstep, hlane, hactive⟩ := Mach.reads_showDarnStart (((m.darnEntered l).darnFilled l).darnOpened l) p l
  have hopened := Mach.DarnKept.darnOpened (m.darnEntered l) l
  obtain ⟨hmode', hdue'⟩ := (m.darnEntered l).sys_darnOpened l
  have hmodeShown : (m.darnEntered l).Reads F.SYS_STATUS_MODE 10 := fun k => by
    by_cases hk : k = l
    · rw [hk, hself, Lane.fld_domainReset _ (by decide)]
      exact hshown l
    · rw [hother k hk]
      exact hshown k
  have hend := Mach.FieldsOnly.mapLanes (fs := [wholeReg 0x4000A054, F.RED_STATUS_DARN_ACTIVE]) (((m.darnEntered l).darnFilled l).darnOpened l)
    (f := fun x => x.regs.showDarnStart p l)
    (fun x => .put (.put (.put (.put (.refl _ _) _ (by decide)) _ (by decide)) _ (by decide)) _ (by decide))
  rw [← he] at hstep hlane hactive hend
  generalize ((m.darnEntered l).darnFilled l).darnOpened l = o at hopened hmode' hdue' hend
  have hrole : ∀ k, (m.darnStart.lane k).role = ((m.darnEntered l).lane k).role := fun k =>
    (hend.role k).trans ((hopened k).role (.inl (by decide)))
  have hkept : ∀ k, (m.darnStart.lane k).si = ((m.darnEntered l).lane k).si ∧ (m.darnStart.lane k).rte = ((m.darnEntered l).lane k).rte ∧
      (m.darnStart.lane k).zvl = ((m.darnEntered l).lane k).zvl ∧ (m.darnStart.lane k).loaded = ((m.darnEntered l).lane k).loaded := fun k => by
    rw [hend.lane k, (hopened k).rest]
    exact ⟨rfl, rfl, rfl, rfl⟩
  obtain ⟨hsi, hrte, hzvl, hloaded⟩ := hkept l
  exact {
    mode := by rw [hend.sys, hmode', hesys, hsys]
    due := by rw [hend.sys, hdue', hesys, hsys]; rfl
    shown := (hmodeShown.kept hopened.regs (by decide)).kept hend.regs (by decide)
    step := hstep
    lane := hlane
    active := hactive
    role := by rw [hrole, hself]; rfl
    si := by rw [hsi, hself]; rfl
    rte := by rw [hrte, hself]; rfl
    zvl := by rw [hzvl, hself]; rfl
    loaded := by rw [hloaded, hself]; rfl
    others := fun k hk => by
      obtain ⟨hsi, hrte, hzvl, -⟩ := hkept k
      have hrest := (hset k).rest
      rw [hrole, hsi, hrte, hzvl, hother k hk, (hset k).role (.inl (by decide)), hrest]
      exact ⟨rfl, rfl, rfl, rfl⟩ }

/-! ### DARN_ABORT (R160) -/

/-- The lane that joins, and what goes before any other transition, stand in the roles and in `sys`. -/
theorem Mach.joiner_of_roles {m n : Mach} (h : ∀ k, (n.lane k).role = (m.lane k).role) : n.joiner = m.joiner := by
  unfold Mach.joiner
  simp only [h]

theorem Mach.preempted_of_roles {m n : Mach} (h : ∀ k, (n.lane k).role = (m.lane k).role) (hs : n.sys = m.sys) : n.preempted = m.preempted := by
  unfold Mach.preempted Mach.exclHalts Mach.exclDue Mach.servingLeft Mach.serving Lane.isServing Mach.resetDue Mach.upUs
  simp only [h, hs]

theorem completes_darnAbort {s : State} {l : LaneId} {q : BitVec 3} (h : s.m.Takes .red 0x50 2 ⟨q, 0⟩) (hmode : s.m.sys.mode = 10)
    (hj : s.m.joiner = some l) (hdue : s.m.sys.boundary = false ∨ s.m.preempted = false) : Completes (.darnAbort q) s (fun m =>
    m.Entered 10 7 0 ∧ (m.lane l).role = .excluded ∧ m.Reads F.RED_DARN_STATUS_RESULT 3 ∧ m.Reads F.RED_DARN_STATUS_STEP 0 ∧
    ∀ k, (m.lane k).si = (s.m.lane k).si) := by
  obtain ⟨n, slot, w, hn, he⟩ := Mach.anyWrite_of_takes h (by decide) (by decide) rfl rfl (by decide) (by decide)
  have hroles : ∀ k, (n.lane k).role = (s.m.lane k).role := fun k => by rw [(hn.lane k).1]
  have hended := Mach.darnFail_ended (m := n) (l := l) (by rw [Mach.joiner_of_roles hroles, hj]) (by rw [hn.sys, hmode])
    (by rw [hn.sys, Mach.preempted_of_roles hroles hn.sys]; exact hdue) true 0
  rw [Mach.ownEffect_darnAbort] at he
  obtain ⟨hlane, hsys, -⟩ := ((n.darnFail true 0).complete_spec slot w true).1
  generalize (n.darnFail true 0).complete slot w true = o at he hlane hsys
  have hentered := hended.entered.of_alike hlane hsys
  refine completes_of_active (·.anyWrite .red 0x50 2 ⟨q, 0⟩) rfl ?_ ?_ <;> rw [he]
  · rw [hentered.1]
    rfl
  · refine ⟨hentered, by rw [hlane, hended.role], fun k => ?_, fun k => ?_, fun k => ?_⟩
    · rw [hlane]
      exact hended.result k
    · rw [hlane]
      exact hended.step k
    · rw [hlane, hended.si, hn.si]

/-! ### Starts, refusals and aborts of Darn -/

theorem completes_darnStart {s : State} {l : LaneId} (hb : s.m.sys.boundary = true) (hdue : s.m.sys.darnDue = true) (hpre : s.m.preempted = false)
    (hmode : s.m.sys.mode = 7) (hl : s.m.darnLane = some l) : Completes .darnStart s (s.m.DarnStarted · l) := by
  have hstarted := Mach.darnStart_started hb hdue hpre hmode hl
  exact completes_of_active Mach.darnStart rfl (by rw [hstarted.mode]; rfl) hstarted

/-- Settles O30: the lanes, `sys` and the standby test decide alike on a start before and after the write that asks for it, which no register
shows; DARN_START and DARN_ABORT end in modes of service, so that no restart of R407 follows. -/
theorem darnStarts : Obligations.DarnStarts := by
  unfold Obligations.DarnStarts
  intro s l
  refine ⟨fun hauto hdue hl hrole hdelay => completes_darnAutoStart hauto hdue hl hrole hdelay,
    fun h => completes_unchanged Mach.darnAuto rfl (Mach.darnAuto_idle h), fun q h => completes_darnStartRequest h,
    fun hl hr hp hmute => completes_darnStartRequest_refused hl hr hp hmute, fun hb hdue hpre hmode hl => ?_,
    fun h => completes_unchanged Mach.darnStart rfl (Mach.darnStart_idle h),
    fun q h hmode hj hdue => completes_darnAbort h hmode hj hdue⟩
  obtain ⟨m, he, h⟩ := completes_darnStart hb hdue hpre hmode hl
  exact ⟨m, he, h.mode, h.due, h.shown, h.step, h.lane, h.active, h.role, h.si, h.rte, h.zvl, h.loaded, h.others⟩

end Sys2Proof.Machine


/-! # The steps of Darn (R159) -/
namespace Sys2Proof.Machine

/-! ### The serving lanes beside a step -/

/-- Beside lane `l` a step changes registers and event staging of the lanes alone. -/
def Mach.OthersKept (m n : Mach) (l : LaneId) : Prop := ∀ k, k ≠ l → (m.lane k).RegsOnly (n.lane k) ∧ (n.lane k).role = (m.lane k).role

namespace Mach.OthersKept

variable {m n o : Mach} {l : LaneId}

theorem trans (h : m.OthersKept n l) (g : n.OthersKept o l) : m.OthersKept o l := fun k hk =>
  ⟨(h k hk).1.trans (g k hk).1, (g k hk).2.trans (h k hk).2⟩

theorem of_eq (h : ∀ k, k ≠ l → n.lane k = m.lane k) : m.OthersKept n l := fun k hk => by
  rw [h k hk]
  exact ⟨.refl _, rfl⟩

theorem of_fields {fs : List Field} (h : m.FieldsOnly fs n) (l : LaneId) : m.OthersKept n l := fun k _ => ⟨h.regsOnly.1 k, h.role k⟩

end Mach.OthersKept

/-! ### A step follows the one before it -/

theorem Mach.atStep_eq {m : Mach} {l : LaneId} {k : Nat} (hmode : m.sys.mode = 10) (hj : m.joiner = some l) (hk : m.darnStep = k) : m.atStep k = some l :=
  (if_pos ⟨hmode, hk⟩).trans hj

/-- The fields that show a step. -/
def stepFields : List Field := [F.RED_DARN_STATUS_STEP, F.CRC_STATUS_CHANNELS]

section
variable (m : Mach) (k : Nat)

/-- The joining lane's CRC channels, and the fields beside them. -/
theorem Mach.lane_darnTo (l : LaneId) : (m.darnTo k).lane l = { m.lane l with regs := ((m.darnTo k).lane l).regs } ∧
    Regs.ChangesIn [F.CRC_STATUS_CHANNELS] ((m.lane l).regs.put F.RED_DARN_STATUS_STEP k) ((m.darnTo k).lane l).regs := by
  unfold Mach.darnTo Mach.mapIf Mach.putAll
  rw [Mach.lane_mapLanes, Mach.lane_mapLanes]
  split
  · exact ⟨rfl, .put (.refl _ _) _ (by decide)⟩
  · exact ⟨rfl, .refl _ _⟩

theorem Mach.FieldsOnly.darnTo : m.FieldsOnly stepFields (m.darnTo k) where
  lane l := (m.lane_darnTo k l).1
  regs l := .trans (.put (.refl _ _) _ (by decide)) ((m.lane_darnTo k l).2.mono (by decide))
  outside := rfl

theorem Mach.darnStep_of_reads {m : Mach} {k : Nat} (h : m.Reads F.RED_DARN_STATUS_STEP k) : m.darnStep = k := h m.lead

theorem Mach.reads_darnTo {k : Nat} (hk : k < 16) : (m.darnTo k).Reads F.RED_DARN_STATUS_STEP k := fun l => by
  rw [(m.lane_darnTo k l).2 _ (by decide), Regs.fld_put_same _ _ _ (by decide) (by decide)]
  exact Nat.mod_eq_of_lt hk

end

/-- A step that shows itself and changes nothing else. -/
theorem completes_darnTo {c : Instr} {s : State} {k : Nat} (f : Mach → Mach) (hc : exec c s = s.run f) (he : f s.m = s.m.darnTo k) (hk : k < 16) :
    Completes c s (fun m => m.darnStep = k ∧ m.sys = s.m.sys ∧ m.sc = s.m.sc ∧ s.m.RegsOnly m) := by
  have hfields := Mach.FieldsOnly.darnTo s.m k
  refine completes_of_run f hc ?_ ?_ <;> rw [he]
  · rw [hfields.sys]
  · exact ⟨Mach.darnStep_of_reads (s.m.reads_darnTo hk), hfields.sys, hfields.sc, hfields.regsOnly⟩

/-! ### The joining lane after its own change -/

/-- A step ends: lane `l` has changed as `f` says, and every lane shows the next step. -/
structure Mach.Stepped (m n : Mach) (l : LaneId) (k : Nat) (f : Lane → Lane) : Prop where
  step : n.Reads F.RED_DARN_STATUS_STEP k
  mode : n.sys.mode = m.sys.mode
  lane : ∃ r, n.lane l = { f (m.lane l) with regs := r }
  others : m.OthersKept n l

namespace Mach.Stepped

variable {m n o : Mach} {l : LaneId} {k : Nat} {f : Lane → Lane} {fs : List Field}

theorem fields (h : m.Stepped n l k f) (g : n.FieldsOnly fs o) (hf : apartFrom F.RED_DARN_STATUS_STEP fs = true) : m.Stepped o l k f where
  step := h.step.kept g.regs hf
  mode := by rw [g.sys, h.mode]
  lane := by
    obtain ⟨r, hr⟩ := h.lane
    exact ⟨(o.lane l).regs, by rw [g.lane l, hr]⟩
  others := h.others.trans (.of_fields g l)

/-- A lane changed, and the step shown. -/
theorem of_lane (hl : n.lane l = f (m.lane l)) (hothers : ∀ j, j ≠ l → n.lane j = m.lane j) (hmode : n.sys.mode = m.sys.mode) (hk : k < 16) :
    m.Stepped (n.darnTo k) l k f where
  step := n.reads_darnTo hk
  mode := by rw [(Mach.FieldsOnly.darnTo n k).sys, hmode]
  lane := ⟨((n.darnTo k).lane l).regs, by rw [← hl]; exact (Mach.FieldsOnly.darnTo n k).lane l⟩
  others := .trans (.of_eq hothers) (.of_fields (Mach.FieldsOnly.darnTo n k) l)

theorem darnStep (h : m.Stepped n l k f) : n.darnStep = k := Mach.darnStep_of_reads h.step

end Mach.Stepped

/-! ### The stored seal as a word (R33) -/

theorem Mem.length_readFrom (m : Mem) (a n : Nat) : (Mem.readFrom m a n).length = n := by
  induction m, a, n using Mem.readFrom.induct with
  | case1 => simp [Mem.readFrom]
  | case2 a n ih => simp [Mem.readFrom, ih]
  | case3 v t a n ih => simp [Mem.readFrom, ih]
  | case4 k v t a n h ih => simp [Mem.readFrom, h, ih]

theorem ofBe_lt (l : List Byte) : ofBe l < 256 ^ l.length := by
  induction l using List.reverseRecOn with
  | nil => decide
  | append_singleton l b ih =>
    have hlast : ofBe (l ++ [b]) = ofBe l * 256 + b.toNat := List.foldl_append ..
    have hb : b.toNat < 256 := b.isLt
    rw [hlast, List.length_append, List.length_singleton, pow_succ]
    omega

theorem Img.storedSeal_lt (i : Img) : i.storedSeal < 2 ^ 64 := by
  have h := ofBe_lt (i.mem.read (i.base + (i.length - 8)) 8)
  rw [Mem.read, Mem.length_readFrom] at h
  exact h

/-! ### Zero fill with the start of the isolated BIST, and the image -/

/-- The joining lane with its memories zero. -/
def Lane.zeroFilled (x : Lane) : Lane :=
  { x.zeroSram with dram := [], own := [], zeroDram := true, events := [], evLost := 0, regs := x.regs.put F.EVL_STAGED_KBYTES 0 }

/-- A lane as its test begins, and the others. -/
theorem Mach.bistBegin_begun (m : Mach) (l : LaneId) : .lane l ∈ (m.bistBegin (.lane l) false).sys.bistRun ∧
    (m.bistBegin (.lane l) false).sys.mode = m.sys.mode ∧ (∀ k, k ≠ l → (m.bistBegin (.lane l) false).lane k = m.lane k) ∧
    ∃ r, (m.bistBegin (.lane l) false).lane l = { m.lane l with regs := r } ∧
      Regs.ChangesIn [F.BST_STATUS_RUNNING, F.BST_STATUS_ISOLATED, F.CLK_STATUS_BIST_CLOCK] (m.lane l).regs r := by
  unfold Mach.bistBegin
  split
  next h => exact ⟨List.contains_iff_mem.mp h, rfl, fun _ _ => rfl, (m.lane l).regs, rfl, .refl _ _⟩
  next h =>
    dsimp only
    rw [Mach.updSys_sys, Mach.lane_updSys, Mach.lane_updLane_self]
    refine ⟨List.mem_append_right _ List.mem_cons_self, by rw [Mach.updLane_sys], fun k hk => ?_, _, rfl, ?_⟩
    · rw [Mach.lane_updSys, Mach.lane_updLane_ne _ _ hk]
    · exact .put (.put (.put (.refl _ _) _ (by decide)) _ (by decide)) _ (by decide)

theorem Mach.Reads.one_lane {m n : Mach} {f : Field} {v : Nat} {l : LaneId} {fs : List Field} (h : m.Reads f v) (hothers : ∀ k, k ≠ l → n.lane k = m.lane k)
    (hl : Regs.ChangesIn fs (m.lane l).regs (n.lane l).regs) (hf : apartFrom f fs = true) : n.Reads f v := fun k => by
  by_cases hk : k = l
  · rw [hk, hl f hf]
    exact h l
  · rw [hothers k hk]
    exact h k

/-- The joining lane with the image that it has streamed and built. -/
def Lane.imaged (w : W64) (x : Lane) : Lane :=
  { ((x.buildTables w).copyOnDie) with loaded := true, time := { x.time with stepped := false, good := 0, err := none } }

theorem Lane.imaged_spec (w : W64) (x : Lane) : (x.imaged w).loaded = true ∧ (x.imaged w).wtSeal = w ∧ (x.imaged w).time.good = 0 := by
  have hseal := ((x.built_buildTables w).copyOnDie).wtSeal
  unfold Lane.imaged
  generalize (x.buildTables w).copyOnDie = y at hseal
  exact ⟨rfl, hseal, rfl⟩

section
variable {m : Mach} {l : LaneId} (hmode : m.sys.mode = 10) (hj : m.joiner = some l)
include hmode hj

theorem Mach.darnZeroFill_eq (hk : m.darnStep = 2) : m.darnZeroFill = ((m.updLane l Lane.zeroFilled).darnTo 3).bistBegin (.lane l) false := by
  unfold Mach.darnZeroFill
  rw [Mach.atStep_eq hmode hj hk]
  rfl

theorem Mach.darnZeroFill_stepped (hk : m.darnStep = 2) : m.Stepped m.darnZeroFill l 3 Lane.zeroFilled ∧ .lane l ∈ m.darnZeroFill.sys.bistRun := by
  have hstepped := Mach.Stepped.of_lane (m := m) (k := 3) (Mach.lane_updLane_self m l Lane.zeroFilled) (fun j hj => Mach.lane_updLane_ne m _ hj)
    (by rw [Mach.updLane_sys]) (by decide)
  obtain ⟨hrun, hmode', hothers, r, hlane, hregs⟩ := ((m.updLane l Lane.zeroFilled).darnTo 3).bistBegin_begun l
  rw [Mach.darnZeroFill_eq hmode hj hk]
  refine ⟨⟨hstepped.step.one_lane hothers (by rw [hlane]; exact hregs) (by decide), hmode'.trans hstepped.mode, ?_,
    hstepped.others.trans (.of_eq hothers)⟩, hrun⟩
  obtain ⟨q, hq⟩ := hstepped.lane
  exact ⟨r, by rw [hlane, hq]⟩

theorem Mach.darnImage_eq (hk : m.darnStep = 4) (w : W64) (ds : List (Nat × Byte))
    (ho : let x := (m.lane l).stream (m.slotOf (m.sc.regs.fld F.UPD_IMG_SELECT_SLOT)) ds
      x.stagingImg.outcome (x.regs.fld F.RTE_RULE_IF_MIN) (x.regs.fld F.RTE_RULE_IF_MAX) =
        (0, m.leadLane.img.imageId, BitVec.ofNat 64 m.leadLane.img.storedSeal)) (hw : w = m.leadLane.wtSeal) :
    m.darnImage w ds =
      ((m.updLane l (fun x => x.stream (m.slotOf (m.sc.regs.fld F.UPD_IMG_SELECT_SLOT)) ds)).updLane l (Lane.imaged w)).darnTo 5 := by
  have hseal : (BitVec.ofNat 64 m.leadLane.img.storedSeal).toNat = m.leadLane.img.storedSeal := by
    rw [BitVec.toNat_ofNat]
    exact Nat.mod_eq_of_lt (Img.storedSeal_lt _)
  unfold Mach.darnImage
  rw [Mach.atStep_eq hmode hj hk]
  dsimp only at ho ⊢
  rw [Mach.lane_updLane_self, ho, if_pos ⟨rfl, rfl, hseal, hw⟩]
  rfl

theorem Mach.darnImage_stepped (hk : m.darnStep = 4) (w : W64) (ds : List (Nat × Byte))
    (ho : let x := (m.lane l).stream (m.slotOf (m.sc.regs.fld F.UPD_IMG_SELECT_SLOT)) ds
      x.stagingImg.outcome (x.regs.fld F.RTE_RULE_IF_MIN) (x.regs.fld F.RTE_RULE_IF_MAX) =
        (0, m.leadLane.img.imageId, BitVec.ofNat 64 m.leadLane.img.storedSeal)) (hw : w = m.leadLane.wtSeal) :
    m.Stepped (m.darnImage w ds) l 5 (fun x => (x.stream (m.slotOf (m.sc.regs.fld F.UPD_IMG_SELECT_SLOT)) ds).imaged w) := by
  rw [Mach.darnImage_eq hmode hj hk w ds ho hw]
  refine .of_lane ?_ (fun j hj => ?_) ?_ (by decide)
  · rw [Mach.lane_updLane_self, Mach.lane_updLane_self]
  · rw [Mach.lane_updLane_ne _ _ hj, Mach.lane_updLane_ne _ _ hj]
  · rw [Mach.updLane_sys, Mach.updLane_sys]

end

/-! ### The snapshot -/

/-- The joining lane with a snapshot after which no write list has come. -/
def Lane.snapped (n : Snap) (lead x : Lane) : Lane := (x.restore n []).takeNodes lead

theorem Lane.snapped_spec (n : Snap) (lead x : Lane) : (Lane.snapped n lead x).si = n.si ∧
    (Lane.snapped n lead x).live.node = lead.live.node ∧ (Lane.snapped n lead x).rte.queue = n.rte.queue ++ x.rte.queue ∧
    (Lane.snapped n lead x).rte.deferred = n.rte.deferred := ⟨rfl, rfl, rfl, rfl⟩

/-- The joining lane at the cut-over: its ZVL state comes in halves from two serving lanes. -/
def Lane.cutOver (lead other x : Lane) : Lane :=
  Lane.zvlRegs { x with zvl := lead.zvl.halves other.zvl, rte := x.rte.atCutOver lead.rte, probation := true, regs := x.regs.put F.RTE_STATUS_RUNNING 1 }

theorem Lane.cutOver_spec (lead other x : Lane) : (Lane.cutOver lead other x).probation = true ∧
    (Lane.cutOver lead other x).zvl = lead.zvl.halves other.zvl ∧ (Lane.cutOver lead other x).live = x.live ∧ (Lane.cutOver lead other x).si = x.si ∧
    (Lane.cutOver lead other x).rte.queue = x.rte.queue := ⟨rfl, rfl, rfl, rfl, rfl⟩

theorem Mach.sys_vectored_rte (m n : Mach) : (m.vectored [.rte] n).sys = n.sys := Mach.vectorIf_sys m n .rte

section
variable {m : Mach} {l : LaneId} (hmode : m.sys.mode = 10) (hj : m.joiner = some l)
include hmode hj

theorem Mach.darnSnapshot_stepped {n : Snap} (hk : m.darnStep = 6) (hsnap : m.leadLane.snap = some n)
    (hall : ∀ k ∈ m.serving, sameSnapshot (m.lane k) m.leadLane = true) (hlog : m.sys.snapLog = []) :
    m.Stepped m.darnSnapshot l 7 (Lane.snapped n m.leadLane) := by
  obtain ⟨clk, hclk⟩ := m.wakeLanes_eq m.serving
  unfold Mach.darnSnapshot
  rw [Mach.atStep_eq hmode hj hk]
  dsimp only
  rw [hsnap]
  dsimp only
  rw [if_pos (List.all_eq_true.mpr hall), hclk]
  dsimp only
  rw [hlog]
  refine .of_lane ?_ (fun j hj => ?_) ?_ (by decide)
  · rw [Mach.lane_updSys, Mach.lane_vectored, Mach.lane_updLane_self, Mach.lane_withClk]
    rfl
  · rw [Mach.lane_updSys, Mach.lane_vectored, Mach.lane_updLane_ne _ _ hj, Mach.lane_withClk]
  · rw [Mach.updSys_sys, Mach.sys_vectored_rte, Mach.updLane_sys]

theorem Mach.darnSnapshot_waiting (hk : m.darnStep = 6) (hsnap : m.leadLane.snap = none) : m.darnSnapshot = m := by
  unfold Mach.darnSnapshot
  rw [Mach.atStep_eq hmode hj hk]
  dsimp only
  rw [hsnap]

theorem Mach.darnSnapshot_failed (hk : m.darnStep = 6) (hsnap : m.leadLane.snap ≠ none)
    (hne : ∃ k ∈ m.serving, sameSnapshot (m.lane k) m.leadLane = false) : m.darnSnapshot = m.darnFail false 0 := by
  obtain ⟨n, hn⟩ := Option.ne_none_iff_exists'.mp hsnap
  obtain ⟨k, hmem, hsame⟩ := hne
  unfold Mach.darnSnapshot
  rw [Mach.atStep_eq hmode hj hk]
  dsimp only
  rw [hn]
  dsimp only
  rw [if_neg]
  exact fun hall => by simpa [hsame] using List.all_eq_true.mp hall k hmem

theorem Mach.darnCutOver_stepped (hk : m.darnStep = 8) (hb : m.sys.boundary = true) :
    m.Stepped m.darnCutOver l 9 (Lane.cutOver m.leadLane (m.lane (m.serving.getD 1 m.lead))) ∧ m.darnCutOver.sys.probRun = 0 := by
  obtain ⟨clk, hclk⟩ := m.wakeLanes_eq m.serving
  unfold Mach.darnCutOver
  rw [Mach.atStep_eq hmode hj hk]
  dsimp only
  rw [if_neg (by rw [hb]; decide), hclk]
  have hstepped : m.Stepped ((((({ m with clk := clk } : Mach).updLane l (Lane.cutOver m.leadLane (m.lane (m.serving.getD 1 m.lead)))).updSys
      (fun s => { s with probRun := 0 })).darnTo 9)) l 9 (Lane.cutOver m.leadLane (m.lane (m.serving.getD 1 m.lead))) := by
    refine .of_lane ?_ (fun j hj => ?_) ?_ (by decide)
    · rw [Mach.lane_updSys, Mach.lane_updLane_self]
      exact congrArg (Lane.cutOver _ _) (m.lane_withClk clk l)
    · rw [Mach.lane_updSys, Mach.lane_updLane_ne _ _ hj, Mach.lane_withClk]
    · rw [Mach.updSys_sys, Mach.updLane_sys]
  exact ⟨hstepped.fields (.of_refreshServing _) (by decide), by rw [Mach.refreshServing_sys]; rfl⟩

theorem Mach.darnCutOver_waiting (hk : m.darnStep = 8) (hb : m.sys.boundary = false) : m.darnCutOver = m := by
  unfold Mach.darnCutOver
  rw [Mach.atStep_eq hmode hj hk]
  dsimp only
  exact if_pos (by rw [hb]; rfl)

/-! ### The steps that only show the next one, and the last -/

theorem Mach.darnAligned_eq (hk : m.darnStep = 5) (hgood : 16 ≤ (m.lane l).time.good) : m.darnAligned = m.darnTo 6 := by
  unfold Mach.darnAligned
  rw [Mach.atStep_eq hmode hj hk]
  exact if_pos hgood

theorem Mach.darnTracked_eq (hk : m.darnStep = 7) (htrack : 16 ≤ m.sys.track) (hsince : m.sys.sinceSnap ≤ 64) : m.darnTracked = m.darnTo 8 := by
  unfold Mach.darnTracked
  rw [Mach.atStep_eq hmode hj hk]
  dsimp only
  rw [if_pos htrack, if_pos hsince]

theorem Mach.darnReadmission_eq (hk : m.darnStep = 9) (hb : m.sys.boundary = true) (hrun : 256 ≤ m.sys.probRun) (hpre : m.preempted = false) :
    m.darnReadmission = m.readmit l := by
  unfold Mach.darnReadmission
  rw [Mach.atStep_eq hmode hj hk]
  dsimp only
  exact if_pos (by simp [hb, hrun, hpre])

end

end Sys2Proof.Machine


/-! # The isolated BIST of Darn (R159 step 3, R302) -/
namespace Sys2Proof.Machine

/-! ### Changes of one lane's registers -/

/-- From `m` to `n` only the listed fields of lane `l`'s registers differ. -/
structure Mach.LaneFields (fs : List Field) (l : LaneId) (m n : Mach) : Prop where
  others : ∀ k, k ≠ l → n.lane k = m.lane k
  lane : n.lane l = { m.lane l with regs := (n.lane l).regs }
  regs : Regs.ChangesIn fs (m.lane l).regs (n.lane l).regs
  sys : n.sys = m.sys
  fed : n.fed = m.fed

namespace Mach.LaneFields

variable {fs : List Field} {l : LaneId} {m n o : Mach}

theorem trans (h : Mach.LaneFields fs l m n) (g : Mach.LaneFields fs l n o) : Mach.LaneFields fs l m o where
  others k hk := (g.others k hk).trans (h.others k hk)
  lane := by rw [g.lane, h.lane]
  regs := h.regs.trans g.regs
  sys := g.sys.trans h.sys
  fed := g.fed.trans h.fed

theorem raiseLane (m : Mach) (l : LaneId) (b : Blk) (i : Nat) (hi : within (bitField (blkBase b + 0x10) i) fs = true) :
    Mach.LaneFields fs l m (m.raiseLane l b i) where
  others k hk := Mach.lane_raiseLane_ne m b i hk
  lane := by rw [Mach.lane_raiseLane_self]
  regs := by rw [Mach.lane_raiseLane_self]; exact (Regs.ChangesIn.refl _ _).setBit true hi
  sys := Mach.raiseLane_sys m l b i
  fed := by simp

end Mach.LaneFields

/-- A change made under a condition. -/
theorem Regs.ChangesIn.stepIf {fs : List Field} {r s t : Regs} {c : Prop} [Decidable c] (g : Regs.ChangesIn fs s t) (h : Regs.ChangesIn fs r s) :
    Regs.ChangesIn fs r (if c then t else s) := by
  split
  · exact h.trans g
  · exact h

/-! ### The registers of a run -/

/-- The fields that a run shows beside its result. -/
def bistFields : List Field :=
  [F.BST_RESULT_SOURCE, F.BST_RESULT_DURATION_MS, F.BST_MISR_LO_MISR, F.BST_MISR_HI_MISR, F.BST_MEM_FAIL_COUNT, F.BST_MEM_FAIL_WORD,
   F.BST_LIMITS_V_VMAX_MV, F.BST_LIMITS_V_VMIN_MV, F.BST_LIMITS_F_FMAX, F.BST_LIMITS_F_FMIN, F.BST_RUNS_RUNS, F.BST_RUNS_VOIDS,
   F.BST_STATUS_RUNNING, F.BST_STATUS_ISOLATED, F.BST_CTRL_START, F.CLK_STATUS_BIST_CLOCK, wholeReg (blkBase .bst + 0x10)]

theorem Regs.changesIn_bist (r : Regs) (b : BistRun) (source scope result : Nat) :
    Regs.ChangesIn bistFields (r.put F.BST_RESULT_RESULT result) (r.bist b source scope result) := by
  unfold Regs.bist
  dsimp only
  refine .stepIf (.inc (.refl _ _) (by decide)) (.inc ?_ (by decide))
  refine .put (.put (.put (.put ?_ _ (by decide)) _ (by decide)) _ (by decide)) _ (by decide)
  refine .stepIf (.put (.put (.refl _ _) _ (by decide)) _ (by decide)) ?_
  refine .stepIf (.put (.put (.refl _ _) _ (by decide)) _ (by decide)) ?_
  exact .put (.put (.refl _ _) _ (by decide)) _ (by decide)

/-- The registers of a lane after its run. -/
def Regs.showRun (b : BistRun) (result : Nat) (r : Regs) : Regs :=
  ((((r.bist b 3 3 result).put F.BST_STATUS_RUNNING 0).put F.BST_STATUS_ISOLATED 0).put F.BST_CTRL_START 0).put F.CLK_STATUS_BIST_CLOCK 0

theorem Regs.changesIn_showRun (r : Regs) (b : BistRun) (result : Nat) :
    Regs.ChangesIn bistFields (r.put F.BST_RESULT_RESULT result) (r.showRun b result) :=
  .put (.put (.put (.put (r.changesIn_bist b 3 3 result) _ (by decide)) _ (by decide)) _ (by decide)) _ (by decide)

/-- A lane's run ends with its result. -/
theorem Mach.bistKeep_lane (m : Mach) (l : LaneId) (b : BistRun) : Mach.LaneFields [wholeReg (blkBase .bst + 0x10)] l
    (m.updLane l (fun x => { x with regs := x.regs.showRun b (m.bistOf (.lane l) b 3) })) (m.bistKeep (.lane l) b 3 3) := by
  have hkeep : m.bistKeep (.lane l) b 3 3 =
      (m.updLane l (fun x => { x with regs := x.regs.showRun b (m.bistOf (.lane l) b 3) })).bistRaise (.lane l) (m.bistOf (.lane l) b 3) := rfl
  rw [hkeep]
  generalize m.updLane l (fun x => { x with regs := x.regs.showRun b (m.bistOf (.lane l) b 3) }) = n
  have hdone := Mach.LaneFields.raiseLane (fs := [wholeReg (blkBase .bst + 0x10)]) n l .bst I.BST_DONE (by decide)
  unfold Mach.bistRaise
  dsimp only
  split
  · exact hdone.trans (.raiseLane _ l .bst I.BST_FAIL (by decide))
  · split
    · exact hdone.trans (.raiseLane _ l .bst I.BST_VOID (by decide))
    · exact hdone

/-! ### The lane re-initialised (R302, R304) -/

/-- A lane whose tested domains are initialised again. -/
def Lane.reinitialised (m : Mach) (l : LaneId) (x : Lane) : Lane := m.fillLane (Lane.fillFuses (laneIx l) x.domainReset.zeroSram)

/-- The fields that the initialisation writes beside the pages that it resets. -/
def reinitFields : List Field :=
  fillFields ++ [wholeReg 0x4000D094, F.SYS_STATUS_LIFECYCLE, F.SYS_SERIAL_LO_SERIAL, F.SYS_SERIAL_HI_SERIAL, F.VOT_LANE_LANE, F.BST_GOLDEN_LO_GOLDEN,
    F.BST_GOLDEN_HI_GOLDEN]

theorem Lane.fillFuses_eq (ix : Nat) (x : Lane) : ∃ r, x.fillFuses ix = { x with regs := r } ∧ Regs.ChangesIn reinitFields x.regs r := by
  have hpin : Regs.ChangesIn reinitFields x.regs x.regs.replacePin := .put (.put (.refl _ _) _ (by decide)) _ (by decide)
  unfold Lane.fillFuses
  refine ⟨_, rfl, ?_⟩
  exact .put (.put (.put (.put (.put (.put hpin _ (by decide)) _ (by decide)) _ (by decide)) _ (by decide)) _ (by decide)) _ (by decide)

theorem Mach.fillLane_eq (m : Mach) (x : Lane) : ∃ r, m.fillLane x = { x with regs := r } ∧ Regs.ChangesIn reinitFields x.regs r :=
  ⟨_, rfl, (m.darnKept_fillLane x).regs.mono (by decide)⟩

theorem Lane.reinitialised_eq (m : Mach) (l : LaneId) (x : Lane) : ∃ r, x.reinitialised m l = { x.domainReset.zeroSram with regs := r } ∧
    Regs.ChangesIn reinitFields x.domainReset.regs r := by
  obtain ⟨r, hr, hfuses⟩ := x.domainReset.zeroSram.fillFuses_eq (laneIx l)
  obtain ⟨q, hq, hfill⟩ := m.fillLane_eq { x.domainReset.zeroSram with regs := r }
  refine ⟨q, ?_, hfuses.trans hfill⟩
  unfold Lane.reinitialised
  rw [hr, hq]

/-- The joining lane initialised again. -/
def Mach.joinerReset (m : Mach) (l : LaneId) : Mach :=
  (m.updLane l Lane.domainReset).updLane l (fun x => m.fillLane (Lane.fillFuses (laneIx l) x.zeroSram))

theorem Mach.joinerReset_ne (m : Mach) {l k : LaneId} (hk : k ≠ l) : (m.joinerReset l).lane k = m.lane k := by
  rw [Mach.joinerReset, Mach.lane_updLane_ne _ _ hk, Mach.lane_updLane_ne _ _ hk]

theorem Mach.joinerReset_self (m : Mach) (l : LaneId) : (m.joinerReset l).lane l = (m.lane l).reinitialised m l := by
  rw [Mach.joinerReset, Mach.lane_updLane_self, Mach.lane_updLane_self, Lane.reinitialised]

theorem Mach.sys_joinerReset (m : Mach) (l : LaneId) : (m.joinerReset l).sys = m.sys := by rw [Mach.joinerReset, Mach.updLane_sys, Mach.updLane_sys]

theorem Mach.fed_joinerReset (m : Mach) (l : LaneId) : (m.joinerReset l).fed = m.fed := by rw [Mach.joinerReset, Mach.updLane_fed, Mach.updLane_fed]

/-- The module after the joining lane's test and re-initialisation. -/
def Mach.darnTested (m : Mach) (l : LaneId) (r : BistRun) : Mach :=
  (((m.joinerReset l).bistKeep (.lane l) r 3 3).refreshServing).bistEnd (.lane l)

theorem Mach.darnBist_eq {m : Mach} {l : LaneId} (hmode : m.sys.mode = 10) (hj : m.joiner = some l) (hk : m.darnStep = 3) (r : BistRun) :
    m.darnBist r = if m.bistOf (.lane l) r 3 = 1 then (m.darnTested l r).darnTo 4 else (m.darnTested l r).darnFail false 0 := by
  unfold Mach.darnBist
  rw [Mach.atStep_eq hmode hj hk]
  rfl

/-- The joining lane has been tested and initialised again: its registers show the result, and no lane's step of Darn has changed. -/
structure Mach.Tested (m n : Mach) (l : LaneId) (result : Nat) : Prop where
  others : m.OthersKept n l
  lane : ∃ q, n.lane l = { (m.lane l).domainReset.zeroSram with regs := q }
  step : ∀ k, (n.lane k).regs.fld F.RED_DARN_STATUS_STEP = (m.lane k).regs.fld F.RED_DARN_STATUS_STEP
  result : (n.lane l).regs.fld F.BST_RESULT_RESULT = result % 16
  sys : n.sys = { m.sys with bistRun := m.sys.bistRun.filter (fun e => decide (e ≠ .lane l)),
                             bistHost := m.sys.bistHost.filter (fun e => decide (e ≠ .lane l)) }
  fed : n.fed = m.fed

theorem Mach.darnTested_tested (m : Mach) (l : LaneId) (r : BistRun) : m.Tested (m.darnTested l r) l (m.bistOf (.lane l) r 3) := by
  obtain ⟨q, hinit, hregs⟩ := (m.lane l).reinitialised_eq m l
  have hlane1 := (m.joinerReset_self l).trans hinit
  have hothers1 := fun k (hk : k ≠ l) => m.joinerReset_ne hk
  have hsys1 := m.sys_joinerReset l
  have hfed1 := m.fed_joinerReset l
  unfold Mach.darnTested
  generalize m.joinerReset l = n at hlane1 hothers1 hsys1 hfed1
  have hres : n.bistOf (.lane l) r 3 = m.bistOf (.lane l) r 3 := by
    unfold Mach.bistOf
    dsimp only
    rw [hlane1]
    rfl
  have hkeep := n.bistKeep_lane l r
  rw [hres] at hkeep
  generalize n.bistKeep (.lane l) r 3 3 = o at hkeep
  have hserving := Mach.FieldsOnly.of_refreshServing o
  have holane : ∃ p, o.lane l = { (m.lane l).domainReset.zeroSram with regs := p } ∧
      Regs.ChangesIn [wholeReg (blkBase .bst + 0x10)] (q.showRun r (m.bistOf (.lane l) r 3)) p := by
    have hl := hkeep.lane
    have hr := hkeep.regs
    rw [Mach.lane_updLane_self, hlane1] at hl hr
    dsimp only at hl hr
    exact ⟨_, hl, hr⟩
  obtain ⟨p, hp, hpregs⟩ := holane
  have hothers : ∀ k, k ≠ l → o.lane k = m.lane k := fun k hk => by
    rw [hkeep.others k hk, Mach.lane_updLane_ne _ _ hk, hothers1 k hk]
  have hlane : ∀ k, (o.refreshServing.bistEnd (.lane l)).lane k = o.refreshServing.lane k := fun k => Mach.lane_updSys _ _ k
  have hrun := q.changesIn_showRun r (m.bistOf (.lane l) r 3)
  refine ⟨fun k hk => ?_, ⟨(o.refreshServing.lane l).regs, ?_⟩, fun k => ?_, ?_, ?_, ?_⟩
  · rw [hlane, ← hothers k hk]
    exact ⟨hserving.regsOnly.1 k, hserving.role k⟩
  · rw [hlane, hserving.lane, hp]
  · rw [hlane, hserving.regs k _ (by decide)]
    by_cases hk : k = l
    · subst hk
      rw [hp, hpregs _ (by decide), hrun _ (by decide), Regs.fld_put_ne _ _ (by decide), hregs _ (by decide), Lane.fld_domainReset _ (by decide)]
    · rw [hothers k hk]
  · rw [hlane, hserving.regs l _ (by decide), hp, hpregs _ (by decide), hrun _ (by decide), Regs.fld_put_same _ _ _ (by decide) (by decide)]
    rfl
  · rw [Mach.bistEnd, Mach.updSys_sys, Mach.refreshServing_sys, hkeep.sys, Mach.updLane_sys, hsys1]
  · rw [Mach.bistEnd, Mach.updSys_fed, Mach.refreshServing_fed, hkeep.fed, Mach.updLane_fed, hfed1]

/-! ### The lead lane and what goes first -/

section
variable {m n : Mach} {l : LaneId} {res : Nat} (h : m.Tested n l res) (hj : (m.lane l).role = .joining)
include h hj

theorem Mach.Tested.role (k : LaneId) : (n.lane k).role = (m.lane k).role := by
  by_cases hk : k = l
  · obtain ⟨q, hq⟩ := h.lane
    rw [hk, hq, hj]
    rfl
  · exact (h.others k hk).2

theorem Mach.Tested.voters : n.voters = m.voters := by
  have hs := h.sys
  have hserving : n.serving = m.serving := List.filter_congr fun k _ => by rw [Lane.isServing, Lane.isServing, h.role hj]
  unfold Mach.voters
  rw [hserving]
  refine List.filter_congr fun k hk => ?_
  have hne : k ≠ l := fun hkl => by
    have hrole := (List.mem_filter.mp hk).2
    rw [hkl, Lane.isServing, hj] at hrole
    exact absurd hrole (by decide)
  have hrun : n.sys.bistRun.contains (.lane k) = m.sys.bistRun.contains (.lane k) := by
    rw [hs, Bool.eq_iff_iff, List.contains_iff_mem, List.contains_iff_mem, List.mem_filter]
    exact ⟨fun h => h.1, fun h => ⟨h, by simpa using hne⟩⟩
  rw [Mach.laneTested, Mach.laneTested, hrun, h.fed]

/-- The lead lane is the same one: it is none that joins. -/
theorem Mach.Tested.lead : n.lead = m.lead := by
  have hserving : n.serving = m.serving := List.filter_congr fun k _ => by rw [Lane.isServing, Lane.isServing, h.role hj]
  have hloaded : m.voters.filter (fun k => (n.lane k).loaded) = m.voters.filter (fun k => (m.lane k).loaded) := List.filter_congr fun k hk => by
    have hne : k ≠ l := fun hkl => by
      have hrole := Mach.role_of_mem_voters hk
      rw [hkl, hj] at hrole
      exact absurd hrole (by decide)
    exact (h.others k hne).1.loaded
  unfold Mach.lead
  rw [h.voters hj, hserving, hloaded]

theorem Mach.Tested.darnStep : n.darnStep = m.darnStep := by
  unfold Mach.darnStep Mach.fld Mach.leadLane
  rw [h.lead hj, h.step]

theorem Mach.Tested.preempted : n.preempted = m.preempted := by
  have hs := h.sys
  have hroles := h.role hj
  unfold Mach.preempted Mach.exclHalts Mach.exclDue Mach.servingLeft Mach.serving Lane.isServing Mach.resetDue Mach.upUs
  simp only [hroles, hs]

end

end Sys2Proof.Machine


namespace Sys2Proof.Machine

/-! ### Each step in its own step of R159 -/

/-- What R160 leaves of the module when Darn fails by itself. -/
def Mach.Failed (m n : Mach) (l : LaneId) : Prop :=
  n.Entered 10 7 0 ∧ (n.lane l).role = .excluded ∧ n.Reads F.VOT_EXCLUSION_LANE (laneIx l) ∧ n.Reads F.VOT_EXCLUSION_CAUSE 12 ∧
  n.Reads F.RED_DARN_STATUS_RESULT 2 ∧ n.Reads F.RED_DARN_STATUS_FAIL_STEP m.darnStep ∧ n.Raised .red I.RED_DARN_FAILED ∧
  ∀ k, k ≠ l → (n.lane k).si = (m.lane k).si

theorem Mach.DarnEnded.failed {m n : Mach} {l : LaneId} (h : m.DarnEnded n l 2) : m.Failed n l :=
  ⟨h.entered, h.role, h.lane, h.cause, h.result, h.failStep, h.raised, fun k _ => h.si k⟩

theorem completes_failed {c : Instr} {s : State} {l : LaneId} (f : Mach → Mach) (hc : exec c s = s.run f) (h : s.m.Failed (f s.m) l) :
    Completes c s (s.m.Failed · l) :=
  completes_of_active f hc (by rw [h.1.1]; rfl) h

theorem Mach.role_joiner {m : Mach} {l : LaneId} (hj : m.joiner = some l) : (m.lane l).role = .joining := by
  simpa using List.find?_some hj

section
variable {s : State} {l : LaneId} (hmode : s.m.sys.mode = 10) (hj : s.m.joiner = some l)
include hmode hj

theorem completes_darnZeroFillDone (hk : s.m.darnStep = 2) : Completes .darnZeroFillDone s (fun m => m.darnStep = 3 ∧ (m.lane l).dram = [] ∧
    (m.lane l).sram = [] ∧ .lane l ∈ m.sys.bistRun ∧ s.m.OthersKept m l) := by
  obtain ⟨hstepped, hrun⟩ := Mach.darnZeroFill_stepped hmode hj hk
  obtain ⟨r, hr⟩ := hstepped.lane
  exact completes_of_run Mach.darnZeroFill rfl hstepped.mode ⟨hstepped.darnStep, by rw [hr]; rfl, by rw [hr]; rfl, hrun, hstepped.others⟩

theorem completes_darnBistDone {r : BistRun} (hk : s.m.darnStep = 3) (hres : s.m.bistOf (.lane l) r 3 = 1) : Completes (.darnBistDone r) s (fun m =>
    m.darnStep = 4 ∧ m.sys.mode = 10 ∧ (m.lane l).role = .joining ∧ (m.lane l).si = [] ∧ (m.lane l).sram = [] ∧ (m.lane l).rte = Rte.reset ∧
    (m.lane l).zvl = Zvl.reset ∧ (m.lane l).loaded = false ∧ (m.lane l).regs.fld F.BST_RESULT_RESULT = 1 ∧ s.m.OthersKept m l) := by
  have htested := s.m.darnTested_tested l r
  have heq := Mach.darnBist_eq hmode hj hk r
  rw [if_pos hres] at heq
  rw [hres] at htested
  have hfields := Mach.FieldsOnly.darnTo (s.m.darnTested l r) 4
  have hmode' : (s.m.darnBist r).sys.mode = 10 := by rw [heq, hfields.sys, htested.sys]; exact hmode
  obtain ⟨q, hq⟩ := htested.lane
  have hlane := hfields.lane l
  rw [hq] at hlane
  have hresult := hfields.regs l F.BST_RESULT_RESULT (by decide)
  refine completes_of_run (·.darnBist r) rfl (hmode'.trans hmode.symm) ?_
  rw [heq] at hmode' ⊢
  refine ⟨Mach.darnStep_of_reads (Mach.reads_darnTo _ (by decide)), hmode', ?_, ?_, ?_, ?_, ?_, ?_, ?_, htested.others.trans (.of_fields hfields l)⟩
  · rw [hlane]; rfl
  · rw [hlane]; rfl
  · rw [hlane]; rfl
  · rw [hlane]; rfl
  · rw [hlane]; rfl
  · rw [hlane]; rfl
  · rw [hresult, htested.result]

theorem completes_darnImageDone {w : W64} (hk : s.m.darnStep = 4)
    (ho : let x := (s.m.lane l).stream (s.m.slotOf (s.m.sc.regs.fld F.UPD_IMG_SELECT_SLOT)) []
      x.stagingImg.outcome (x.regs.fld F.RTE_RULE_IF_MIN) (x.regs.fld F.RTE_RULE_IF_MAX) =
        (0, s.m.leadLane.img.imageId, BitVec.ofNat 64 s.m.leadLane.img.storedSeal)) (hw : w = s.m.leadLane.wtSeal) :
    Completes (.darnImageDone w []) s (fun m => m.darnStep = 5 ∧ (m.lane l).loaded = true ∧ (m.lane l).wtSeal = w ∧ (m.lane l).time.good = 0 ∧
      s.m.OthersKept m l) := by
  have hstepped := Mach.darnImage_stepped hmode hj hk w [] ho hw
  obtain ⟨r, hr⟩ := hstepped.lane
  obtain ⟨hloaded, hseal, hgood⟩ := ((s.m.lane l).stream (s.m.slotOf (s.m.sc.regs.fld F.UPD_IMG_SELECT_SLOT)) []).imaged_spec w
  refine completes_of_run (·.darnImage w []) rfl hstepped.mode ⟨hstepped.darnStep, ?_, ?_, ?_, hstepped.others⟩ <;> rw [hr]
  · exact hloaded
  · exact hseal
  · exact hgood

theorem completes_darnSnapshotReceived {n : Snap} (hk : s.m.darnStep = 6) (hsnap : s.m.leadLane.snap = some n)
    (hall : ∀ k ∈ s.m.serving, sameSnapshot (s.m.lane k) s.m.leadLane = true) (hlog : s.m.sys.snapLog = []) :
    Completes .darnSnapshotReceived s (fun m => m.darnStep = 7 ∧ (m.lane l).si = n.si ∧ (m.lane l).live.node = s.m.leadLane.live.node ∧
      (m.lane l).rte.queue = n.rte.queue ++ (s.m.lane l).rte.queue ∧ (m.lane l).rte.deferred = n.rte.deferred ∧ s.m.OthersKept m l) := by
  have hstepped := Mach.darnSnapshot_stepped hmode hj hk hsnap hall hlog
  obtain ⟨r, hr⟩ := hstepped.lane
  obtain ⟨hsi, hnode, hqueue, hdeferred⟩ := Lane.snapped_spec n s.m.leadLane (s.m.lane l)
  refine completes_of_run Mach.darnSnapshot rfl hstepped.mode ⟨hstepped.darnStep, ?_, ?_, ?_, ?_, hstepped.others⟩ <;> rw [hr]
  · exact hsi
  · exact hnode
  · exact hqueue
  · exact hdeferred

theorem completes_darnCutOver (hk : s.m.darnStep = 8) (hb : s.m.sys.boundary = true) : Completes .darnCutOver s (fun m => m.darnStep = 9 ∧
    (m.lane l).probation = true ∧ (m.lane l).zvl = s.m.leadLane.zvl.halves (s.m.lane (s.m.serving.getD 1 s.m.lead)).zvl ∧
    (m.lane l).live = (s.m.lane l).live ∧ (m.lane l).si = (s.m.lane l).si ∧ (m.lane l).rte.queue = (s.m.lane l).rte.queue ∧
    m.sys.probRun = 0 ∧ s.m.OthersKept m l) := by
  obtain ⟨hstepped, hrun⟩ := Mach.darnCutOver_stepped hmode hj hk hb
  obtain ⟨r, hr⟩ := hstepped.lane
  obtain ⟨hprob, hzvl, hlive, hsi, hqueue⟩ := Lane.cutOver_spec s.m.leadLane (s.m.lane (s.m.serving.getD 1 s.m.lead)) (s.m.lane l)
  refine completes_of_run Mach.darnCutOver rfl hstepped.mode ⟨hstepped.darnStep, ?_, ?_, ?_, ?_, ?_, hrun, hstepped.others⟩ <;> rw [hr]
  · exact hprob
  · exact hzvl
  · exact hlive
  · exact hsi
  · exact hqueue

theorem completes_darnReadmission {e : Nat} (hk : s.m.darnStep = 9) (hb : s.m.sys.boundary = true) (hrun : 256 ≤ s.m.sys.probRun)
    (hpre : s.m.preempted = false) (he : s.m.Reads F.RED_EPOCH_EPOCH e) : Completes .darnReadmission s (fun m =>
    m.Entered 10 6 0 ∧ (m.lane l).role = .serving ∧ m.Reads F.RED_EPOCH_EPOCH ((e + 1) % 65536) ∧ m.Reads F.RED_DARN_STATUS_RESULT 1 ∧
    m.Reads F.RED_DARN_STATUS_STEP 0 ∧ m.Raised .red I.RED_DARN_DONE ∧ ∀ k, (m.lane k).si = (s.m.lane k).si) := by
  have hdone := Mach.readmit_readmitted hmode he l
  rw [← Mach.darnReadmission_eq hmode hj hk hb hrun hpre] at hdone
  exact completes_of_active Mach.darnReadmission rfl (by rw [hdone.entered.1]; rfl)
    ⟨hdone.entered, hdone.role, hdone.epoch, hdone.result, hdone.step, hdone.raised, hdone.si⟩

/-! ### What fails (R160) -/

section
variable (hdue : s.m.sys.boundary = false ∨ s.m.preempted = false)
include hdue

theorem completes_darnStepTimeout : Completes .darnStepTimeout s (s.m.Failed · l) :=
  completes_failed (·.darnFail false 0) rfl (Mach.darnFail_ended hj hmode hdue false 0).failed

/-- A BIST that fails: the joining lane is initialised again all the same, which changes neither the lead lane nor the step that it shows. -/
theorem completes_darnBistDone_failed {r : BistRun} (hk : s.m.darnStep = 3) (hres : s.m.bistOf (.lane l) r 3 ≠ 1) :
    Completes (.darnBistDone r) s (s.m.Failed · l) := by
  have htested := s.m.darnTested_tested l r
  have hrole := Mach.role_joiner hj
  have heq := Mach.darnBist_eq hmode hj hk r
  rw [if_neg hres] at heq
  have hended := Mach.darnFail_ended (m := s.m.darnTested l r) (l := l) ((Mach.joiner_of_roles (htested.role hrole)).trans hj)
    (by rw [htested.sys]; exact hmode) (by rw [htested.preempted hrole, htested.sys]; exact hdue) false 0
  rw [← heq] at hended
  obtain ⟨hentered, hexcl, hlane, hcause, hresult, hfail, hraised, hsi⟩ := hended.failed
  refine completes_failed (·.darnBist r) rfl ⟨hentered, hexcl, hlane, hcause, hresult, ?_, hraised, fun k hk => ?_⟩
  · rw [← htested.darnStep hrole]
    exact hfail
  · rw [hsi k hk, (htested.others k hk).1.si]

theorem completes_darnSnapshotReceived_failed (hk : s.m.darnStep = 6) (hsnap : s.m.leadLane.snap ≠ none)
    (hne : ∃ k ∈ s.m.serving, sameSnapshot (s.m.lane k) s.m.leadLane = false) : Completes .darnSnapshotReceived s (s.m.Failed · l) := by
  have hended := (Mach.darnFail_ended hj hmode hdue false 0).failed
  rw [← Mach.darnSnapshot_failed hmode hj hk hsnap hne] at hended
  exact completes_failed Mach.darnSnapshot rfl hended

end

end

/-- Settles O31: each step shows the next one in every lane and changes the joining lane as it says; an end of Darn excludes that lane, or
lets it serve, before the transition that leaves DARN, which then finds no lane joining. -/
theorem darnSteps : Obligations.DarnSteps := by
  unfold Obligations.DarnSteps
  refine ⟨fun s l hmode hj => ⟨fun hk => completes_darnZeroFillDone hmode hj hk, fun r hk hres => completes_darnBistDone hmode hj hk hres,
    fun w hk ho hw => completes_darnImageDone hmode hj hk ho hw,
    fun hk hgood => completes_darnTo Mach.darnAligned rfl (Mach.darnAligned_eq hmode hj hk hgood) (by decide),
    fun n hk hsnap hall hlog => completes_darnSnapshotReceived hmode hj hk hsnap hall hlog,
    fun hk hsnap => completes_unchanged Mach.darnSnapshot rfl (Mach.darnSnapshot_waiting hmode hj hk hsnap),
    fun hk htrack hsince => completes_darnTo Mach.darnTracked rfl (Mach.darnTracked_eq hmode hj hk htrack hsince) (by decide),
    fun hk hb => completes_darnCutOver hmode hj hk hb,
    fun hk hb => completes_unchanged Mach.darnCutOver rfl (Mach.darnCutOver_waiting hmode hj hk hb),
    fun e hk hb hrun hpre he => completes_darnReadmission hmode hj hk hb hrun hpre he⟩, fun s l => ⟨fun hmode hj hdue => ?_, fun h => ?_⟩⟩
  · exact ⟨completes_darnStepTimeout hmode hj hdue, fun r hk hres => completes_darnBistDone_failed hmode hj hdue hk hres,
      fun hk hsnap hne => completes_darnSnapshotReceived_failed hmode hj hdue hk hsnap hne⟩
  · exact completes_unchanged (·.darnFail false 0) rfl (Mach.darnFail_idle h false 0)

end Sys2Proof.Machine


/-! # The Port Hub's ports and nodes: what each of its operations leaves as it was (R165 to R172, R183, R226 to R229) -/
namespace Sys2Proof.Machine

/-! ### Changes inside the Port Hub -/

/-- Beside the Port Hub, the clocks, the MSI-X structures and what was sent, all of the module is as before. -/
structure Mach.HubOnly (m n : Mach) : Prop where
  lane : ∀ l, n.lane l = m.lane l
  sys : n.sys = m.sys
  sc : n.sc = m.sc
  fed : n.fed = m.fed
  dio : n.dio = m.dio

namespace Mach.HubOnly

variable {m n o : Mach}

theorem refl (m : Mach) : m.HubOnly m := ⟨fun _ => rfl, rfl, rfl, rfl, rfl⟩

theorem trans (h : m.HubOnly n) (g : n.HubOnly o) : m.HubOnly o :=
  ⟨fun l => (g.lane l).trans (h.lane l), g.sys.trans h.sys, g.sc.trans h.sc, g.fed.trans h.fed, g.dio.trans h.dio⟩

theorem ite {c : Prop} [Decidable c] (g : m.HubOnly n) (h : m.HubOnly o) : m.HubOnly (if c then n else o) := by
  split
  · exact g
  · exact h

theorem foldl {α : Type} {f : Mach → α → Mach} (h : ∀ (m : Mach) a, m.HubOnly (f m a)) (l : List α) (m : Mach) : m.HubOnly (l.foldl f m) :=
  List.foldlRecOn l f (refl m) (fun n hn a _ => hn.trans (h n a))

theorem withHub (m : Mach) (p : Ph) : m.HubOnly { m with ph := p } := ⟨Mach.lane_withPh m p, rfl, rfl, rfl, rfl⟩

theorem withClk (m : Mach) (c : Clks) : m.HubOnly { m with clk := c } := ⟨Mach.lane_withClk m c, rfl, rfl, rfl, rfl⟩

theorem putPh (m : Mach) (f : Field) (v : Nat) : m.HubOnly (m.putPh f v) := withHub m _

theorem incPh (m : Mach) (f : Field) : m.HubOnly (m.incPh f) := withHub m _

theorem updPort (m : Mach) (p : Nat) (f : Port → Port) : m.HubOnly (m.updPort p f) := withHub m _

theorem updNode (m : Mach) (a : Nat) (f : Node → Node) : m.HubOnly (m.updNode a f) := withHub m _

theorem queueOwn (m : Mach) (p cls dest type : Nat) (pay : List Byte) : m.HubOnly (m.queueOwn p cls dest type pay) := withHub m _

theorem portRegs (m : Mach) (p : Nat) : m.HubOnly (m.portRegs p) := withHub m _

theorem emit (m : Mach) (o : Output) : m.HubOnly (m.emit o) :=
  ⟨Mach.lane_emit m o, Mach.emit_sys m o, Mach.emit_sc m o, Mach.emit_fed m o, Mach.emit_dio m o⟩

theorem raisePh (m : Mach) (b : Blk) (i : Nat) : m.HubOnly (m.raisePh b i) :=
  ⟨Mach.lane_raisePh m b i, Mach.raisePh_sys m b i, Mach.raisePh_sc m b i, Mach.raisePh_fed m b i, Mach.raisePh_dio m b i⟩

/-- The lead lane is the same one, and holds the same. -/
theorem leadLane (h : m.HubOnly n) : n.leadLane = m.leadLane := by
  have hlead : n.lead = m.lead := Mach.lead_congr (fun l => by rw [h.lane]) (fun l => by rw [h.lane]) (by rw [h.sys]) (by rw [h.fed])
  unfold Mach.leadLane
  rw [hlead, h.lane]

theorem portImg (h : m.HubOnly n) : n.portImg = m.portImg := congrArg Lane.img h.leadLane

theorem fld (h : m.HubOnly n) (f : Field) : n.fld f = m.fld f := congrArg (fun x : Lane => x.regs.fld f) h.leadLane

theorem comm (h : m.HubOnly n) (a : Nat) : n.comm a = m.comm a := congrArg (fun x : Lane => Store.get NodeComm.absent x.live.node a) h.leadLane

theorem nodesOf (h : m.HubOnly n) (p : Nat) : n.nodesOf p = m.nodesOf p := by
  unfold Mach.nodesOf
  rw [h.portImg]

end Mach.HubOnly

/-- Beside the Port Hub, the lanes have changed in event staging and the registers of the event logger alone, and `sys`, the Service Controller and
the federation are as before. -/
structure Mach.HubTells (m n : Mach) : Prop where
  lane : ∀ l, (m.lane l).Keeps (n.lane l) eventRegs
  sys : n.sys = m.sys
  sc : n.sc = m.sc
  fed : n.fed = m.fed

namespace Mach.HubTells

variable {m n o : Mach}

theorem trans (h : m.HubTells n) (g : n.HubTells o) : m.HubTells o :=
  ⟨fun l => (h.lane l).trans (g.lane l), g.sys.trans h.sys, g.sc.trans h.sc, g.fed.trans h.fed⟩

theorem record (m : Mach) (code p0 p1 p2 p3 : Nat) : m.HubTells (m.record code p0 p1 p2 p3) :=
  ⟨Mach.keeps_record m code p0 p1 p2 p3, Mach.record_sys m code p0 p1 p2 p3, Mach.record_sc m code p0 p1 p2 p3,
    Mach.record_fed m code p0 p1 p2 p3⟩

/-- State Images and inputs stay. -/
theorem tables (h : m.HubTells n) (l : LaneId) : (n.lane l).si = (m.lane l).si ∧ (n.lane l).live = (m.lane l).live := by
  rw [(h.lane l).1]
  exact ⟨rfl, rfl⟩

end Mach.HubTells

theorem Mach.HubOnly.tells {m n : Mach} (h : m.HubOnly n) : m.HubTells n := ⟨fun l => by rw [h.lane]; exact .refl _ _, h.sys, h.sc, h.fed⟩

theorem Mach.HubTells.ite {m n o : Mach} {c : Prop} [Decidable c] (g : m.HubTells n) (h : m.HubTells o) : m.HubTells (if c then n else o) := by
  split
  · exact g
  · exact h

/-- A record stands while the Port Hub alone changes. -/
theorem Mach.Recorded.hubOnly {m n : Mach} {code p0 p1 p2 : Nat} (h : m.Recorded code p0 p1 p2) (hn : m.HubOnly n) :
    n.Recorded code p0 p1 p2 := fun l => by
  rw [hn.lane]
  exact h l

/-! ### A port, and the table of nodes, after each operation -/

/-- What mirrors a port touches registers of the Port Hub alone. -/
theorem Mach.portRegs_eq (m : Mach) (p : Nat) : ∃ r, m.portRegs p = m.setPhRegs r := ⟨_, rfl⟩

section
variable (m : Mach) (p k a : Nat)

theorem Mach.port_of_ports {n : Mach} (h : n.ph.ports = m.ph.ports) : n.port p = m.port p := by
  unfold Mach.port
  rw [h]

theorem Mach.node_of_nodes {n : Mach} (h : n.ph.nodes = m.ph.nodes) : n.node a = m.node a := by
  unfold Mach.node
  rw [h]

@[simp] theorem Mach.port_updPort_self (f : Port → Port) : (m.updPort p f).port p = f (m.port p) := Store.get_set_self _ _ _ _
@[simp] theorem Mach.port_putPh (f : Field) (v : Nat) : (m.putPh f v).port p = m.port p := rfl
@[simp] theorem Mach.port_incPh (f : Field) : (m.incPh f).port p = m.port p := rfl
@[simp] theorem Mach.port_portRegs : (m.portRegs k).port p = m.port p := by
  obtain ⟨r, h⟩ := m.portRegs_eq k
  rw [h]
  rfl
@[simp] theorem Mach.out_portRegs : (m.portRegs k).out = m.out := by
  obtain ⟨r, h⟩ := m.portRegs_eq k
  rw [h]
  rfl
@[simp] theorem Mach.port_updNode (f : Node → Node) : (m.updNode a f).port p = m.port p := rfl
@[simp] theorem Mach.port_emit (o : Output) : (m.emit o).port p = m.port p := rfl
@[simp] theorem Mach.port_raisePh (b : Blk) (i : Nat) : (m.raisePh b i).port p = m.port p := m.port_of_ports p (by rw [Mach.raisePh_ph])
@[simp] theorem Mach.port_record (code p0 p1 p2 p3 : Nat) : (m.record code p0 p1 p2 p3).port p = m.port p :=
  m.port_of_ports p (by rw [Mach.record_ph])

@[simp] theorem Mach.nodes_updPort (f : Port → Port) : (m.updPort p f).ph.nodes = m.ph.nodes := rfl
@[simp] theorem Mach.nodes_portRegs : (m.portRegs k).ph.nodes = m.ph.nodes := by
  obtain ⟨r, h⟩ := m.portRegs_eq k
  rw [h]
  rfl
@[simp] theorem Mach.ports_portRegs : (m.portRegs k).ph.ports = m.ph.ports := by
  obtain ⟨r, h⟩ := m.portRegs_eq k
  rw [h]
  rfl
@[simp] theorem Mach.ports_updNode (f : Node → Node) : (m.updNode a f).ph.ports = m.ph.ports := rfl
@[simp] theorem Mach.regs_updPort (f : Port → Port) : (m.updPort p f).ph.regs = m.ph.regs := rfl
@[simp] theorem Mach.regs_updNode (f : Node → Node) : (m.updNode a f).ph.regs = m.ph.regs := rfl

end

/-! ### Registers of the Port Hub -/

/-- The registers that mirror a port, and the rings and quarantines of all ports. -/
def mirrorRegs (p : Nat) : List Nat :=
  [ttpBase p + 0xC, ttpBase p + 0x4C, ttpBase p + 0x5C, ttpBase p + 0x60, ttpBase p + 0x64, ttpBase p + 0x68, ttpBase p + 0x74, 0x4001000C,
    0x40010054, 0x40010058, 0x4002000C, 0x4002008C, 0x400200A0, 0x400200A4, 0x400200B4, 0x400200B8]

theorem Mach.keeps_portRegs (m : Mach) (p : Nat) : m.ph.regs.Keeps (m.portRegs p).ph.regs (mirrorRegs p) := by
  unfold Mach.portRegs
  dsimp only
  repeat' refine Regs.keeps_put ?_ _ (by
    simp [mirrorRegs, F.TTP_STATUS_RUNNING, F.TTP_STATUS_COMMANDING, F.TTP_STATUS_EAST_UP, F.TTP_STATUS_WEST_UP, F.TTP_STATUS_ANNOUNCING,
      F.TTP_JOINED_LO_NODES, F.TTP_JOINED_HI_NODES, F.TTP_LOST_LO_NODES, F.TTP_LOST_HI_NODES, F.TTP_NODE_STATUS_STATE,
      F.TTP_NODE_STATUS_LOST_COUNT, F.TTP_NODE_STATUS_RESTORE, F.TTP_NODE_STATUS_NODE_STATE, F.TTP_NODE_STATUS_JOIN_RESULT,
      F.TTP_SCHED_ACTIVE, F.PHB_PORTS_RUNNING, F.PHB_PORTS_COMMANDING, F.PHB_STATUS_RUNNING, F.PHB_LINKS_EAST_UP, F.PHB_LINKS_WEST_UP,
      F.STG_RING_SPLIT, F.STG_RING_HEALING, F.STG_STATUS_SPLIT, F.STG_QUAR_LO_NODES, F.STG_QUAR_HI_NODES, F.STG_POLL_WEST_LO_NODES,
      F.STG_POLL_WEST_HI_NODES, F.STG_STATUS_GUARDING, F.STG_STATUS_QUARANTINE])
  exact .refl _ _

end Sys2Proof.Machine


/-! # What a port sends: beacons, commands, polls and delays (R169, R183, R184, R217, R232) -/
namespace Sys2Proof.Machine

/-! ### Frames of the module (R167 to R171, R210) -/

theorem length_be (n v : Nat) : (be n v).length = n := by
  induction n with
  | zero => rfl
  | succ n ih => simp [be, ih]

/-- A Husk has 24 bytes (R169). -/
theorem length_huskBytes (h : HuskEnv) (type : Nat) (all : Bool) (dest source len : Nat) :
    (huskBytes h type all dest source len).length = 24 := by
  simp [huskBytes, length_be]

/-- What a receiver reads as the payload is what was sent. -/
theorem framePayload_frameBytes {husk : List Byte} (h : husk.length = 24) (pay : List Byte) : framePayload (frameBytes husk pay) = pay := by
  have hlen : (frameBytes husk pay).length - 28 = pay.length := by
    simp only [frameBytes, List.length_append, length_be, h]
    omega
  unfold framePayload
  rw [hlen, frameBytes, List.append_assoc, List.drop_left' h, List.take_left' rfl]

/-- What the Husks of a port's frames carry in the present port basic cycle. -/
def Mach.huskEnv (m : Mach) (p launch : Nat) : HuskEnv :=
  let q := m.port p
  let i := m.portImg
  ⟨q.sched, q.announcing, if q.announcing then q.next else 0, if q.announcing then q.target else 0, q.bc, m.fld F.RED_EPOCH_EPOCH,
    moduleSeq m.sys.cluster (i.perCluster p) q.bc, i.imageId, launch⟩

/-- The bytes of a frame of the module on a port. -/
def Mach.ownFrame (m : Mach) (p type : Nat) (all : Bool) (dest launch : Nat) (pay : List Byte) : List Byte :=
  frameBytes (huskBytes (m.huskEnv p launch) type all dest (p * 128) pay.length) pay

/-- Frames of the module go out on a port, the last of the list first. -/
def Mach.sendAll (m : Mach) (p : Nat) (fs : List (List Byte)) : Mach :=
  { m with out := fs.map (Output.frame p true (m.port p).both) ++ m.out }

theorem Mach.sendFrame_eq (m : Mach) (p type : Nat) (all : Bool) (dest launch : Nat) (pay : List Byte) :
    m.sendFrame p type all dest launch pay = m.sendAll p [m.ownFrame p type all dest launch pay] := rfl

theorem framePayload_ownFrame (m : Mach) (p type : Nat) (all : Bool) (dest launch : Nat) (pay : List Byte) :
    framePayload (m.ownFrame p type all dest launch pay) = pay := framePayload_frameBytes (length_huskBytes _ _ _ _ _ _) pay

theorem Mach.sendAll_nil (m : Mach) (p : Nat) : m.sendAll p [] = m := rfl

theorem Mach.sendAll_sendAll (m : Mach) (p : Nat) (fs gs : List (List Byte)) : (m.sendAll p fs).sendAll p gs = m.sendAll p (gs ++ fs) := by
  unfold Mach.sendAll
  rw [List.map_append, List.append_assoc]
  rfl

@[simp] theorem Mach.sendAll_ph (m : Mach) (p : Nat) (fs : List (List Byte)) : (m.sendAll p fs).ph = m.ph := rfl

@[simp] theorem Mach.port_sendAll (m : Mach) (p k : Nat) (fs : List (List Byte)) : (m.sendAll k fs).port p = m.port p := rfl

theorem Mach.HubOnly.sendAll (m : Mach) (p : Nat) (fs : List (List Byte)) : m.HubOnly (m.sendAll p fs) :=
  ⟨Mach.lane_congr rfl rfl rfl, rfl, rfl, rfl, rfl⟩

theorem Mach.HubOnly.sending {m n : Mach} (h : m.HubOnly n) : n.sending = m.sending := by
  have hserving : n.serving = m.serving := by
    unfold Mach.serving
    simp only [h.lane]
  unfold Mach.sending
  rw [h.leadLane, h.sys, hserving, h.fld]

theorem Mach.HubOnly.cycleStart {m n : Mach} (h : m.HubOnly n) {p : Nat} (hbc : (n.port p).bc = (m.port p).bc) :
    n.cycleStart p = m.cycleStart p := by
  unfold Mach.cycleStart Mach.boundaryNs
  rw [h.leadLane, h.sys, hbc, h.portImg]

/-- The beacon's payload stands while JOIN_OPEN and the port but for its waiting frames do. -/
theorem Mach.HubOnly.beaconPayload {m n : Mach} (h : m.HubOnly n) {p : Nat} {own : List (Nat × Nat × Nat × List Byte)}
    (hport : n.port p = { m.port p with own := own })
    (hjoin : n.ph.regs.fld (F.TTP_PORT_CFG_JOIN_OPEN p) = m.ph.regs.fld (F.TTP_PORT_CFG_JOIN_OPEN p)) : n.beaconPayload p = m.beaconPayload p := by
  have hbc : (n.port p).bc = (m.port p).bc := by rw [hport]
  unfold Mach.beaconPayload
  rw [h.cycleStart hbc, h.sys, h.portImg, hport, hjoin]

/-! ### The start of a port basic cycle (R183) -/

/-- A port as its basic cycle `bc` begins. -/
def Port.begun (q : Port) (bc : Nat) (sending : Bool) (seen : RingSeen) : Port :=
  { q with bc := bc, commanding := sending, started := q.started + 1, sinceChange := min (q.sinceChange + 1) 65535,
           good := if q.split && q.ringGood seen then q.good + 1 else 0, both := q.split, healing := q.healing && !q.split,
           returned := false, grants := [], joinIndex := 0, joinStart := 0, leaves := q.leaves - 1,
           eastUp := q.eastUp || seen.eastSync, westUp := q.westUp || seen.westSync }

section
variable (q : Port) (bc : Nat) (sending : Bool) (seen : RingSeen)

@[simp] theorem Port.begun_bc : (q.begun bc sending seen).bc = bc := rfl
@[simp] theorem Port.begun_commanding : (q.begun bc sending seen).commanding = sending := rfl
@[simp] theorem Port.begun_started : (q.begun bc sending seen).started = q.started + 1 := rfl
@[simp] theorem Port.begun_both : (q.begun bc sending seen).both = q.split := rfl
@[simp] theorem Port.begun_own : (q.begun bc sending seen).own = q.own := rfl
@[simp] theorem Port.begun_grants : (q.begun bc sending seen).grants = [] := rfl
@[simp] theorem Port.begun_splitDue : (q.begun bc sending seen).splitDue = q.splitDue := rfl

end

/-- A port with what the beacon of the cycle offers: the frames that still wait, the grants, the join index. -/
def Port.offering (q : Port) (own : List (Nat × Nat × Nat × List Byte)) (gs : List Grant) (ptr : Store Nat) (idx joinPtr start : Nat) : Port :=
  { q with own := own, grants := gs, arbPtr := ptr, joinIndex := idx, joinPtr := joinPtr, joinStart := start }

theorem Port.offering_self (q : Port) : q.offering q.own q.grants q.arbPtr q.joinIndex q.joinPtr q.joinStart = q := rfl

section
variable (q : Port) (own : List (Nat × Nat × Nat × List Byte)) (gs : List Grant) (ptr : Store Nat) (idx joinPtr start : Nat)

@[simp] theorem Port.offering_bc : (q.offering own gs ptr idx joinPtr start).bc = q.bc := rfl
@[simp] theorem Port.offering_commanding : (q.offering own gs ptr idx joinPtr start).commanding = q.commanding := rfl
@[simp] theorem Port.offering_started : (q.offering own gs ptr idx joinPtr start).started = q.started := rfl
@[simp] theorem Port.offering_both : (q.offering own gs ptr idx joinPtr start).both = q.both := rfl
@[simp] theorem Port.offering_splitDue : (q.offering own gs ptr idx joinPtr start).splitDue = q.splitDue := rfl

end

/-- The Port Hub's counters and links as a port basic cycle begins. -/
def Mach.cycleBegun (m : Mach) (p : Nat) (seen : RingSeen) (bc : Nat) : Mach :=
  let leaves := (m.port p).leaves
  let m := m.mapPortNodes p (fun n => { n with copies := [], charged := [], quarWin := none })
  let m := m.updPort p (fun q => { q with
    bc := bc, commanding := m.sending, started := q.started + 1, sinceChange := min (q.sinceChange + 1) 65535,
    good := if q.split && q.ringGood seen then q.good + 1 else 0, both := q.split, healing := q.healing && !q.split,
    returned := false, grants := [], joinIndex := 0, joinStart := 0, leaves := leaves - 1 })
  m.linksBack p seen

/-- A LEAVE to all waits while the port's takeover lasts (R287). -/
def Mach.leaveToAll (m : Mach) (p leaves : Nat) : Mach := if leaves = 0 then m else m.queueOwn p 4 (p * 128) 9 (leavePayload 1)

/-- The grants and the join index that the beacon will carry. -/
def Mach.granted (m : Mach) (p : Nat) (gs : List Grant) (ptr : Store Nat) (idx start demand sum : Nat) : Mach :=
  ((m.updPort p (fun q => { q with grants := gs, arbPtr := ptr, joinIndex := idx, joinPtr := if idx = 0 then q.joinPtr else idx,
                                   joinStart := start })).putPh (F.TTP_ARB_DEMAND p) demand).putPh (F.TTP_ARB_GRANTED p) sum

/-- The beacon goes out. -/
def Mach.beaconed (m : Mach) (p : Nat) : Mach := m.sendFrame p 1 true (p * 128) (m.cycleStart p) (m.beaconPayload p)

/-- The module as a port basic cycle finds it: a ring that R229 restores, and a split that is told. -/
def Mach.noticed (m : Mach) (p : Nat) (seen : RingSeen) : Mach := (if m.portNext p = 0 then m.ringRestored p seen else m).splitNotice p

/-- A port basic cycle: what befell the ring, the start, and on a matrix port grants, beacon and the module's own frames. -/
theorem Mach.portBasic_eq {m n b : Mach} {p : Nat} {seen : RingSeen} (hn : n = m.noticed p seen)
    (hb : b = n.cycleBegun p seen (m.portNext p)) :
    ∃ gs ptr idx start demand sum, m.portBasic p seen = if b.portImg.portMode p = 2 then b
      else ((((b.leaveToAll p (n.port p).leaves).granted p gs ptr idx start demand sum).beaconed p).sendOwn p).portRegs p := by
  unfold Mach.portBasic
  extract_lets bc n1 leaves n2 n3 n4 n5 g q join idx n6 total n7 n8
  have h1 : n1 = n := hn.symm
  have h4 : n4 = n1.cycleBegun p seen bc := rfl
  have h5 : n5 = n4.leaveToAll p leaves := rfl
  obtain ⟨gs, ptr, ix, start, demand, sum, h7⟩ : ∃ gs ptr ix start demand sum, n7 = n5.granted p gs ptr ix start demand sum := by
    clear_value g join idx total
    exact ⟨_, _, _, _, _, _, rfl⟩
  have h8 : n8 = n7.beaconed p := rfl
  exact ⟨gs, ptr, ix, start, demand, sum, by
    rw [hb, ← h1, ← show leaves = (n1.port p).leaves from rfl, ← show bc = m.portNext p from rfl, ← h4, ← h5, ← h7, ← h8]⟩

namespace Mach.HubOnly

theorem mapPortNodes (m : Mach) (p : Nat) (f : Node → Node) : m.HubOnly (m.mapPortNodes p f) := withHub m _

theorem linksBack (m : Mach) (p : Nat) (seen : RingSeen) : m.HubOnly (m.linksBack p seen) := (updPort m _ _).trans (portRegs _ _)

theorem cycleBegun (m : Mach) (p : Nat) (seen : RingSeen) (bc : Nat) : m.HubOnly (m.cycleBegun p seen bc) :=
  ((mapPortNodes m _ _).trans (updPort _ _ _)).trans (linksBack _ _ _)

theorem leaveToAll (m : Mach) (p leaves : Nat) : m.HubOnly (m.leaveToAll p leaves) := ite (refl m) (queueOwn m _ _ _ _ _)

theorem granted (m : Mach) (p : Nat) (gs : List Grant) (ptr : Store Nat) (idx start demand sum : Nat) :
    m.HubOnly (m.granted p gs ptr idx start demand sum) := ((updPort m _ _).trans (putPh _ _ _)).trans (putPh _ _ _)

theorem sendFrame (m : Mach) (p type : Nat) (all : Bool) (dest launch : Nat) (pay : List Byte) :
    m.HubOnly (m.sendFrame p type all dest launch pay) := by
  rw [Mach.sendFrame_eq]
  exact sendAll m p _

end Mach.HubOnly

theorem Mach.port_linksBack (m : Mach) (p : Nat) (seen : RingSeen) : (m.linksBack p seen).port p =
    { m.port p with eastUp := (m.port p).eastUp || seen.eastSync, westUp := (m.port p).westUp || seen.westSync } := by
  rw [Mach.linksBack, Mach.port_portRegs, Mach.port_updPort_self]

theorem Mach.port_cycleBegun (m : Mach) (p : Nat) (seen : RingSeen) (bc : Nat) :
    (m.cycleBegun p seen bc).port p = (m.port p).begun bc m.sending seen := by
  unfold Mach.cycleBegun
  extract_lets leaves n o
  have hn : n.port p = m.port p := rfl
  have hsending : n.sending = m.sending := (Mach.HubOnly.mapPortNodes m p _).sending
  rw [Mach.port_linksBack, Mach.port_updPort_self, hn, hsending]
  rfl

theorem Mach.out_cycleBegun (m : Mach) (p : Nat) (seen : RingSeen) (bc : Nat) : (m.cycleBegun p seen bc).out = m.out := by
  rw [Mach.cycleBegun, Mach.linksBack, Mach.out_portRegs]
  rfl

theorem Mach.port_leaveToAll (m : Mach) (p leaves : Nat) :
    ∃ own, (m.leaveToAll p leaves).port p = { m.port p with own := own } ∧ (leaves = 0 → own = (m.port p).own) := by
  unfold Mach.leaveToAll
  split
  next => exact ⟨_, rfl, fun _ => rfl⟩
  next h => exact ⟨_, Mach.port_updPort_self _ _ _, fun h0 => absurd h0 h⟩

theorem Mach.port_granted (m : Mach) (p : Nat) (gs : List Grant) (ptr : Store Nat) (idx start demand sum : Nat) :
    (m.granted p gs ptr idx start demand sum).port p = { m.port p with
      grants := gs, arbPtr := ptr, joinIndex := idx, joinPtr := if idx = 0 then (m.port p).joinPtr else idx, joinStart := start } := by
  rw [Mach.granted, Mach.port_putPh, Mach.port_putPh, Mach.port_updPort_self]

theorem Mach.out_leaveToAll (m : Mach) (p leaves : Nat) : (m.leaveToAll p leaves).out = m.out := by
  rw [Mach.leaveToAll, apply_ite Mach.out]
  exact ite_self _

theorem Mach.out_granted (m : Mach) (p : Nat) (gs : List Grant) (ptr : Store Nat) (idx start demand sum : Nat) :
    (m.granted p gs ptr idx start demand sum).out = m.out := by
  rw [Mach.granted, Mach.putPh_out, Mach.putPh_out]
  rfl

/-! ### The module's own frames in their grants -/

/-- One waiting frame and the grants that are left: it goes out in the first that fits, or waits on. -/
def Mach.ownStep (m : Mach) (p : Nat) (acc : Mach × List Grant × List (Nat × Nat × Nat × List Byte)) (e : Nat × Nat × Nat × List Byte) :
    Mach × List Grant × List (Nat × Nat × Nat × List Byte) :=
  match acc.2.1.find? (fun g => decide (g.cls = e.1) && decide (g.len = frameUnits e.2.2.2.length)) with
  | some g =>
    if e.2.2.1 = 8 ∨ e.2.2.1 = 10 then (acc.1, acc.2.1.erase g, acc.2.2 ++ [e])
    else (acc.1.sendFrame p e.2.2.1 (decide (e.2.1 = p * 128)) e.2.1 (m.cycleStart p + 8 * g.start) e.2.2.2, acc.2.1.erase g, acc.2.2)
  | none => (acc.1, acc.2.1, acc.2.2 ++ [e])

theorem Mach.sendOwn_eq (m : Mach) (p : Nat) : ∃ gs, m.sendOwn p =
    ((m.port p).own.foldl (m.ownStep p) (m, gs, [])).1.updPort p
      (fun q => { q with own := ((m.port p).own.foldl (m.ownStep p) (m, gs, [])).2.2 }) := ⟨_, rfl⟩

/-- A step sends the one frame or none. -/
theorem Mach.ownStep_sends (m : Mach) (p : Nat) (acc : Mach × List Grant × List (Nat × Nat × Nat × List Byte))
    (e : Nat × Nat × Nat × List Byte) : ∃ fs, (m.ownStep p acc e).1 = acc.1.sendAll p fs := by
  unfold Mach.ownStep
  split
  · split
    · exact ⟨[], rfl⟩
    · exact ⟨_, Mach.sendFrame_eq _ _ _ _ _ _ _⟩
  · exact ⟨[], rfl⟩

theorem Mach.foldl_ownStep_sends (m : Mach) (p : Nat) (es : List (Nat × Nat × Nat × List Byte))
    (acc : Mach × List Grant × List (Nat × Nat × Nat × List Byte)) :
    ∃ fs, (es.foldl (m.ownStep p) acc).1 = acc.1.sendAll p fs ∧ (es = [] → fs = []) := by
  induction es generalizing acc with
  | nil => exact ⟨[], rfl, fun _ => rfl⟩
  | cons e es ih =>
    obtain ⟨fs, hfs, -⟩ := ih (m.ownStep p acc e)
    obtain ⟨gs, hgs⟩ := m.ownStep_sends p acc e
    exact ⟨fs ++ gs, by rw [List.foldl_cons, hfs, hgs, Mach.sendAll_sendAll], fun h => absurd h (List.cons_ne_nil _ _)⟩

/-- At most frames of the module's own that waited go out, and what waits of them changes. -/
theorem Mach.sendOwn_spec (m : Mach) (p : Nat) : ∃ own fs, m.sendOwn p = (m.sendAll p fs).updPort p (fun q => { q with own := own }) ∧
    ((m.port p).own = [] → fs = []) := by
  obtain ⟨gs, h⟩ := m.sendOwn_eq p
  obtain ⟨fs, hfs, hnone⟩ := m.foldl_ownStep_sends p (m.port p).own (m, gs, [])
  exact ⟨_, fs, by rw [h, hfs], hnone⟩

/-! ### PORT_BASIC_CYCLE (R183) -/

/-- JOIN_OPEN is no mirror of the port. -/
theorem joinOpen_not_mirrored (p : Fin 16) : (F.TTP_PORT_CFG_JOIN_OPEN p.val).addr ∉ mirrorRegs p.val := by
  revert p
  decide

/-- The beacon goes out, after it at most frames of the module's own, and of the port only what waits changes. -/
theorem Mach.beaconed_spec (g : Mach) (p : Fin 16) {n : Mach} (hn : n = ((g.beaconed p.val).sendOwn p.val).portRegs p.val) :
    g.HubOnly n ∧ (∃ own, n.port p.val = { g.port p.val with own := own }) ∧
    ∃ (h : HuskEnv) (later : List (List Byte)), h.basic = (g.port p.val).bc ∧ h.launch = n.cycleStart p.val ∧
      ((g.port p.val).own = [] → later = []) ∧
      n.out = later.map (Output.frame p.val true (g.port p.val).both) ++ Output.frame p.val true (g.port p.val).both
        (frameBytes (huskBytes h 1 true (p.val * 128) (p.val * 128) (n.beaconPayload p.val).length) (n.beaconPayload p.val)) :: g.out := by
  obtain ⟨own, fs, hown, hnone⟩ := (g.beaconed p.val).sendOwn_spec p.val
  rw [Mach.beaconed, Mach.sendFrame_eq, Mach.port_sendAll] at hnone
  rw [hown, Mach.beaconed, Mach.sendFrame_eq, Mach.sendAll_sendAll] at hn
  have honly : g.HubOnly n := by
    rw [hn]
    exact ((Mach.HubOnly.sendAll g _ _).trans (.updPort _ _ _)).trans (.portRegs _ _)
  have hport : n.port p.val = { g.port p.val with own := own } := by
    rw [hn, Mach.port_portRegs, Mach.port_updPort_self, Mach.port_sendAll]
  have hjoin : n.ph.regs.fld (F.TTP_PORT_CFG_JOIN_OPEN p.val) = g.ph.regs.fld (F.TTP_PORT_CFG_JOIN_OPEN p.val) := by
    rw [hn, (Mach.keeps_portRegs _ p.val).fld _ (joinOpen_not_mirrored p), Mach.regs_updPort, Mach.sendAll_ph]
  have hstart : n.cycleStart p.val = g.cycleStart p.val := honly.cycleStart (by rw [hport])
  refine ⟨honly, ⟨own, hport⟩, g.huskEnv p.val (g.cycleStart p.val), fs, rfl, hstart.symm, hnone, ?_⟩
  rw [honly.beaconPayload hport hjoin, hn, Mach.out_portRegs]
  simp [Mach.updPort, Mach.sendAll, Mach.ownFrame]

/-- The offers of a matrix port: of the port only grants, join index and what waits change. -/
theorem Mach.offers_spec (b : Mach) (p : Fin 16) (leaves : Nat) (gs : List Grant) (ptr : Store Nat) (idx start demand sum : Nat) {n : Mach}
    (hn : n = ((((b.leaveToAll p.val leaves).granted p.val gs ptr idx start demand sum).beaconed p.val).sendOwn p.val).portRegs p.val) :
    b.HubOnly n ∧
    (∃ own joinPtr, n.port p.val = (b.port p.val).offering own gs ptr idx joinPtr start) ∧
    ∃ (h : HuskEnv) (later : List (List Byte)), h.basic = (b.port p.val).bc ∧ h.launch = n.cycleStart p.val ∧
      ((b.port p.val).own = [] → leaves = 0 → later = []) ∧
      n.out = later.map (Output.frame p.val true (b.port p.val).both) ++ Output.frame p.val true (b.port p.val).both
        (frameBytes (huskBytes h 1 true (p.val * 128) (p.val * 128) (n.beaconPayload p.val).length) (n.beaconPayload p.val)) :: b.out := by
  obtain ⟨waits, hleave, hnoleave⟩ := b.port_leaveToAll p.val leaves
  have hg := (b.leaveToAll p.val leaves).port_granted p.val gs ptr idx start demand sum
  rw [hleave] at hg
  obtain ⟨honly, ⟨own, hport⟩, h, later, hbasic, hlaunch, hnone, hout⟩ := Mach.beaconed_spec _ p hn
  rw [hg] at hport hbasic hnone hout
  refine ⟨((Mach.HubOnly.leaveToAll b _ _).trans (.granted _ _ _ _ _ _ _ _)).trans honly, ⟨own, _, hport⟩, h, later, hbasic, hlaunch,
    fun hown hleaves => hnone ((hnoleave hleaves).trans hown), ?_⟩
  rw [hout, Mach.out_granted, Mach.out_leaveToAll]

end Sys2Proof.Machine


/-! # PORT_BASIC_CYCLE, COMMAND_WINDOW, POLL_WINDOW and DELAY_SEND (R183, R184, R217, R232) -/
namespace Sys2Proof.Machine

/-! ### What befell the ring before a port basic cycle (R226, R229) -/

theorem Mach.splitNotice_of_none {m : Mach} {p : Nat} (h : (m.port p).splitDue = 0) : m.splitNotice p = m := by
  unfold Mach.splitNotice
  exact if_pos h

theorem Mach.ringRestored_of_whole {m : Mach} {p : Nat} (h : (m.port p).split = false) (seen : RingSeen) : m.ringRestored p seen = m := by
  unfold Mach.ringRestored
  dsimp only
  rw [if_pos (by simp [h])]

theorem Mach.noticed_of_whole {m : Mach} {p : Nat} (hdue : (m.port p).splitDue = 0) (h : m.portNext p ≠ 0 ∨ (m.port p).split = false)
    (seen : RingSeen) : m.noticed p seen = m := by
  have hring : (if m.portNext p = 0 then m.ringRestored p seen else m) = m := by
    split
    next hnext => exact Mach.ringRestored_of_whole (h.resolve_left (fun hne => hne hnext)) seen
    next => rfl
  rw [Mach.noticed, hring, Mach.splitNotice_of_none hdue]

section
variable {m n : Mach} {p : Fin 16} {seen : RingSeen} (hn : n = m.noticed p.val seen)
include hn

/-- A port basic cycle changes the Port Hub alone after what it tells of the ring, and of the port what begins and what the beacon offers. -/
theorem Mach.portBasic_port : n.HubOnly (m.portBasic p.val seen) ∧
    ∃ own gs ptr idx joinPtr start, (m.portBasic p.val seen).port p.val =
      ((n.port p.val).begun (m.portNext p.val) n.sending seen).offering own gs ptr idx joinPtr start := by
  generalize hb : n.cycleBegun p.val seen (m.portNext p.val) = b
  obtain ⟨gs, ptr, idx, start, demand, sum, h⟩ := Mach.portBasic_eq hn hb.symm
  have hbegun : n.HubOnly b := hb ▸ Mach.HubOnly.cycleBegun n p.val seen (m.portNext p.val)
  have hport : b.port p.val = (n.port p.val).begun (m.portNext p.val) n.sending seen := hb ▸ n.port_cycleBegun p.val seen (m.portNext p.val)
  rw [h]
  split
  next => exact ⟨hbegun, _, _, _, _, _, _, hport.trans (Port.offering_self _).symm⟩
  next =>
    obtain ⟨honly, ⟨own, joinPtr, ho⟩, -⟩ := Mach.offers_spec b p (n.port p.val).leaves gs ptr idx start demand sum rfl
    exact ⟨hbegun.trans honly, own, gs, ptr, idx, joinPtr, start, by rw [ho, hport]⟩

/-- A matrix port sends its beacon at the start of the cycle, and after it frames of its own that waited. -/
theorem Mach.portBasic_beacon {o : Mach} (ho : o = m.portBasic p.val seen) (hmode : n.portImg.portMode p.val = 1) :
    ∃ (h : HuskEnv) (later : List (List Byte)), h.basic = m.portNext p.val ∧ h.launch = o.cycleStart p.val ∧
      ((n.port p.val).own = [] → (n.port p.val).leaves = 0 → later = []) ∧
      o.out = later.map (Output.frame p.val true (n.port p.val).split) ++ Output.frame p.val true (n.port p.val).split
        (frameBytes (huskBytes h 1 true (p.val * 128) (p.val * 128) (o.beaconPayload p.val).length) (o.beaconPayload p.val)) :: n.out := by
  generalize hb : n.cycleBegun p.val seen (m.portNext p.val) = b
  obtain ⟨gs, ptr, idx, start, demand, sum, h⟩ := Mach.portBasic_eq hn hb.symm
  have hbegun : n.HubOnly b := hb ▸ Mach.HubOnly.cycleBegun n p.val seen (m.portNext p.val)
  have hport : b.port p.val = (n.port p.val).begun (m.portNext p.val) n.sending seen := hb ▸ n.port_cycleBegun p.val seen (m.portNext p.val)
  have hout : b.out = n.out := hb ▸ n.out_cycleBegun p.val seen (m.portNext p.val)
  rw [if_neg (by rw [hbegun.portImg, hmode]; decide)] at h
  obtain ⟨-, -, hsent⟩ := Mach.offers_spec b p (n.port p.val).leaves gs ptr idx start demand sum (ho.trans h)
  rw [hport, hout, Port.begun_bc, Port.begun_own, Port.begun_both] at hsent
  exact hsent

/-- A poll-mode port sends nothing and offers nothing (R231). -/
theorem Mach.portBasic_poll (hmode : n.portImg.portMode p.val = 2) :
    (m.portBasic p.val seen).out = n.out ∧ ((m.portBasic p.val seen).port p.val).grants = [] := by
  obtain ⟨gs, ptr, idx, start, demand, sum, h⟩ := Mach.portBasic_eq hn rfl
  rw [if_pos (by rw [(Mach.HubOnly.cycleBegun n p.val seen (m.portNext p.val)).portImg, hmode])] at h
  rw [h, Mach.port_cycleBegun, Mach.out_cycleBegun]
  exact ⟨rfl, Port.begun_grants _ _ _ _⟩

end

/-- The module beside the Port Hub, the clocks and what was sent is as before. -/
theorem Mach.HubOnly.quiet {m n : Mach} (h : m.HubOnly n) :
    (∀ l, n.lane l = m.lane l) ∧ n.sys = m.sys ∧ n.sc = m.sc ∧ n.fed = m.fed ∧ n.dio = m.dio := ⟨h.lane, h.sys, h.sc, h.fed, h.dio⟩

/-- A command whose meaning gives `n`, with `sys` as before, completes with it. -/
theorem completes_to {c : Instr} {s : State} {P : Mach → Prop} {n : Mach} (f : Mach → Mach) (hc : exec c s = s.run f) (he : f s.m = n)
    (hsys : n.sys = s.m.sys) (h : P n) : Completes c s P := by
  subst he
  exact completes_of_run f hc (by rw [hsys]) h

section
variable {s : State} {p : Fin 16} {k : Nat} {seen : RingSeen}

theorem exec_portBasicCycle (p : Fin 16) (seen : RingSeen) (s : State) : exec (.portBasicCycle p seen) s =
    s.run (fun m => if (m.port p.val).running then m.portBasic p.val seen else m.linksBack p.val seen) := rfl

theorem completes_portBasicCycle_stopped (hrun : (s.m.port p.val).running = false) : Completes (.portBasicCycle p seen) s (fun m =>
    s.m.HubOnly m ∧ m.out = s.m.out ∧ m.ph.nodes = s.m.ph.nodes ∧ m.port p.val = { s.m.port p.val with
      eastUp := (s.m.port p.val).eastUp || seen.eastSync, westUp := (s.m.port p.val).westUp || seen.westSync }) := by
  have hback := Mach.HubOnly.linksBack s.m p.val seen
  exact completes_to _ (exec_portBasicCycle p seen s) (if_neg (by simp [hrun])) hback.sys
    ⟨hback, Mach.out_portRegs _ _, Mach.nodes_portRegs _ _, s.m.port_linksBack p.val seen⟩

/-- A port that runs begins its next basic cycle; a matrix port sends its beacon, and what follows it waited in the port. -/
theorem completes_portBasicCycle (hrun : (s.m.port p.val).running = true) (hdue : (s.m.port p.val).splitDue = 0)
    (hring : s.m.portNext p.val ≠ 0 ∨ (s.m.port p.val).split = false) : Completes (.portBasicCycle p seen) s (fun m => s.m.HubOnly m ∧
      (m.port p.val).bc = s.m.portNext p.val ∧ (m.port p.val).started = (s.m.port p.val).started + 1 ∧
      (m.port p.val).both = (s.m.port p.val).split ∧ (m.port p.val).commanding = s.m.sending ∧
      (s.m.portImg.portMode p.val = 1 → ∃ (h : HuskEnv) (later : List (List Byte)), h.basic = s.m.portNext p.val ∧
        h.launch = m.cycleStart p.val ∧ ((s.m.port p.val).own = [] → (s.m.port p.val).leaves = 0 → later = []) ∧
        m.out = later.map (Output.frame p.val true (s.m.port p.val).split) ++ Output.frame p.val true (s.m.port p.val).split
          (frameBytes (huskBytes h 1 true (p.val * 128) (p.val * 128) (m.beaconPayload p.val).length) (m.beaconPayload p.val)) :: s.m.out) ∧
      (s.m.portImg.portMode p.val = 2 → m.out = s.m.out ∧ (m.port p.val).grants = [])) := by
  have hn : s.m = s.m.noticed p.val seen := (Mach.noticed_of_whole hdue hring seen).symm
  obtain ⟨honly, own, gs, ptr, idx, joinPtr, start, hport⟩ := Mach.portBasic_port hn
  refine completes_to _ (exec_portBasicCycle p seen s) (if_pos hrun) honly.sys
    ⟨honly, ?_, ?_, ?_, ?_, Mach.portBasic_beacon hn rfl, Mach.portBasic_poll hn⟩
  · rw [hport, Port.offering_bc, Port.begun_bc]
  · rw [hport, Port.offering_started, Port.begun_started]
  · rw [hport, Port.offering_both, Port.begun_both]
  · rw [hport, Port.offering_commanding, Port.begun_commanding]

/-! ### Command and poll frames (R184, R217, R232) -/

/-- What goes out in a window of a port that sends commands. -/
theorem Mach.sendCommand_eq {m : Mach} {p k launch : Nat} {part : List Byte} {codes : List W32} (h : m.assembled p k = some (part, launch, codes)) :
    m.sendCommand p k = m.sendAll p [m.ownFrame p 2 false (nodeAddr p k) launch
      (commandPayload codes part ((m.node (nodeAddr p k)).correctionAt (m.cycleNo p)))] := by
  unfold Mach.sendCommand
  rw [h]
  rfl

theorem Mach.sendPoll_eq {m : Mach} {p k launch : Nat} {part : List Byte} {codes : List W32} (h : m.assembled p k = some (part, launch, codes)) :
    ∃ husk, husk.length = 24 ∧ m.sendPoll p k = m.emit (.frame p (!(m.node (nodeAddr p k)).pollWest) (m.node (nodeAddr p k)).pollWest
      (frameBytes husk (commandPayload codes part 0x8000))) := by
  unfold Mach.sendPoll
  rw [h]
  exact ⟨_, length_huskBytes _ _ _ _ _ _, rfl⟩

theorem exec_commandWindow (p : Fin 16) (k : Nat) (s : State) : exec (.commandWindow p k) s =
    s.run (fun m => if (m.port p.val).running && (m.port p.val).commanding && decide (m.portImg.portMode p.val = 1)
      then m.sendCommand p.val k else m) := rfl

theorem exec_pollWindow (p : Fin 16) (k : Nat) (s : State) : exec (.pollWindow p k) s =
    s.run (fun m => if (m.port p.val).running && (m.port p.val).commanding && decide (m.portImg.portMode p.val = 2)
      then m.sendPoll p.val k else m) := rfl

theorem completes_commandWindow_stopped (hrun : (s.m.port p.val).running = false) : Completes (.commandWindow p k) s (fun m => m = s.m) :=
  completes_unchanged _ (exec_commandWindow p k s) (if_neg (by simp [hrun]))

theorem completes_pollWindow_stopped (hrun : (s.m.port p.val).running = false) : Completes (.pollWindow p k) s (fun m => m = s.m) :=
  completes_unchanged _ (exec_pollWindow p k s) (if_neg (by simp [hrun]))

section
variable {part : List Byte} {launch : Nat} {codes : List W32} (hrun : (s.m.port p.val).running = true)
  (hcmd : (s.m.port p.val).commanding = true) (h : s.m.assembled p.val k = some (part, launch, codes))
include hrun hcmd h

theorem completes_commandWindow (hmode : s.m.portImg.portMode p.val = 1) : Completes (.commandWindow p k) s (fun m => s.m.HubOnly m ∧
    m.ph = s.m.ph ∧ ∃ f, m.out = Output.frame p.val true (s.m.port p.val).both f :: s.m.out ∧
      framePayload f = commandPayload codes part ((s.m.node (nodeAddr p.val k)).correctionAt (s.m.cycleNo p.val))) := by
  have honly := Mach.HubOnly.sendAll s.m p.val [s.m.ownFrame p.val 2 false (nodeAddr p.val k) launch
    (commandPayload codes part ((s.m.node (nodeAddr p.val k)).correctionAt (s.m.cycleNo p.val)))]
  exact completes_to _ (exec_commandWindow p k s) ((if_pos (by simp [hrun, hcmd, hmode])).trans (Mach.sendCommand_eq h)) honly.sys
    ⟨honly, rfl, _, rfl, framePayload_ownFrame _ _ _ _ _ _ _⟩

theorem completes_pollWindow (hmode : s.m.portImg.portMode p.val = 2) : Completes (.pollWindow p k) s (fun m => s.m.HubOnly m ∧
    m.ph = s.m.ph ∧ ∃ f, m.out = Output.frame p.val (!(s.m.node (nodeAddr p.val k)).pollWest) (s.m.node (nodeAddr p.val k)).pollWest f ::
      s.m.out ∧ framePayload f = commandPayload codes part 0x8000) := by
  obtain ⟨husk, hlen, hpoll⟩ := Mach.sendPoll_eq h
  exact completes_to _ (exec_pollWindow p k s) ((if_pos (by simp [hrun, hcmd, hmode])).trans hpoll) rfl
    ⟨.emit _ _, rfl, _, rfl, framePayload_frameBytes hlen _⟩

end

/-! ### Delays (R214, R216) -/

/-- A frame that waits for its own class 4 grant is taken with the grant. -/
theorem Mach.takeOwn_spec {m n : Mach} {p dest type len start : Nat} {pay : List Byte} (h : m.takeOwn p dest type len = some (start, pay, n)) :
    m.HubOnly n ∧ n.out = m.out ∧ (n.port p).both = (m.port p).both ∧ (n.port p).own.length + 1 = (m.port p).own.length ∧
      (n.port p).grants.length + 1 = (m.port p).grants.length := by
  unfold Mach.takeOwn at h
  dsimp only at h
  split at h
  next e g hown hgrant =>
    obtain ⟨rfl, rfl, rfl⟩ : g.start = start ∧ e.2.2.2 = pay ∧
        m.updPort p (fun q => { q with own := q.own.erase e, grants := q.grants.erase g }) = n := by
      simpa using h
    have howned := List.mem_of_find?_eq_some hown
    have hgranted := List.mem_of_find?_eq_some hgrant
    have hone := List.length_pos_of_mem howned
    have hone' := List.length_pos_of_mem hgranted
    rw [Mach.port_updPort_self, List.length_erase_of_mem howned, List.length_erase_of_mem hgranted]
    exact ⟨.updPort _ _ _, rfl, rfl, by omega, by omega⟩
  next => exact absurd h (by simp)

theorem completes_delaySend {start : Nat} {pay : List Byte} {n : Mach} (h : s.m.takeOwn p.val (nodeAddr p.val k) 10 16 = some (start, pay, n)) :
    Completes (.delaySend p k) s (fun m => s.m.HubOnly m ∧
      (∃ f, m.out = Output.frame p.val true (s.m.port p.val).both f :: s.m.out ∧ framePayload f = pay) ∧
      (m.port p.val).own.length + 1 = (s.m.port p.val).own.length ∧ (m.port p.val).grants.length + 1 = (s.m.port p.val).grants.length) := by
  obtain ⟨honly, hout, hboth, hown, hgrants⟩ := Mach.takeOwn_spec h
  have hsend : s.m.delaySend p.val k =
      n.sendAll p.val [n.ownFrame p.val 10 false (nodeAddr p.val k) (n.cycleStart p.val + 8 * start) pay] := by
    unfold Mach.delaySend
    rw [h]
    rfl
  have hall := honly.trans (.sendAll n p.val [n.ownFrame p.val 10 false (nodeAddr p.val k) (n.cycleStart p.val + 8 * start) pay])
  exact completes_to (·.delaySend p.val k) rfl hsend hall.sys
    ⟨hall, ⟨_, by rw [← hboth, ← hout]; rfl, framePayload_ownFrame _ _ _ _ _ _ _⟩, hown, hgrants⟩

theorem completes_delaySend_none (h : s.m.takeOwn p.val (nodeAddr p.val k) 10 16 = none) : Completes (.delaySend p k) s (fun m => m = s.m) := by
  refine completes_unchanged (·.delaySend p.val k) rfl ?_
  unfold Mach.delaySend
  rw [h]

end

/-- Settles O45: a port basic cycle is what befell the ring, a change of the port and the beacon with what waited; the other rows send the one frame
that stands ready. -/
theorem portsSend : Obligations.PortsSend := by
  unfold Obligations.PortsSend
  intro s p k seen q quiet
  refine ⟨fun hrun => ⟨?_, completes_commandWindow_stopped hrun, completes_pollWindow_stopped hrun⟩, fun hrun hdue hring => ?_,
    fun part launch codes hrun hcmd h => ⟨fun hmode => ?_, fun hmode => ?_⟩, fun start pay n h => ?_, completes_delaySend_none⟩
  · obtain ⟨m, he, honly, hrest⟩ := completes_portBasicCycle_stopped hrun
    exact ⟨m, he, honly.quiet, hrest⟩
  · obtain ⟨m, he, honly, hrest⟩ := completes_portBasicCycle hrun hdue hring
    exact ⟨m, he, honly.quiet, hrest⟩
  · obtain ⟨m, he, honly, hrest⟩ := completes_commandWindow hrun hcmd h hmode
    exact ⟨m, he, honly.quiet, hrest⟩
  · obtain ⟨m, he, honly, hrest⟩ := completes_pollWindow hrun hcmd h hmode
    exact ⟨m, he, honly.quiet, hrest⟩
  · obtain ⟨m, he, honly, hrest⟩ := completes_delaySend h
    exact ⟨m, he, honly.quiet, hrest⟩

end Sys2Proof.Machine


/-! # Rings that split and heal, probes, latency and schedule switches (R166, R203, R211, R215, R226 to R229) -/
namespace Sys2Proof.Machine

/-! ### Changes of ports and registers of the Port Hub -/

/-- The Port Hub alone has changed, and what it keeps of each node is as before. -/
structure Mach.PortsOnly (m n : Mach) : Prop extends Mach.HubOnly m n where
  nodes : n.ph.nodes = m.ph.nodes

namespace Mach.PortsOnly

variable {m n o : Mach}

theorem refl (m : Mach) : m.PortsOnly m := ⟨.refl m, rfl⟩

theorem trans (h : m.PortsOnly n) (g : n.PortsOnly o) : m.PortsOnly o := ⟨h.toHubOnly.trans g.toHubOnly, g.nodes.trans h.nodes⟩

theorem ite {c : Prop} [Decidable c] (g : m.PortsOnly n) (h : m.PortsOnly o) : m.PortsOnly (if c then n else o) := by
  split
  · exact g
  · exact h

theorem putPh (m : Mach) (f : Field) (v : Nat) : m.PortsOnly (m.putPh f v) := ⟨.putPh m f v, rfl⟩

theorem incPh (m : Mach) (f : Field) : m.PortsOnly (m.incPh f) := ⟨.incPh m f, rfl⟩

theorem updPort (m : Mach) (p : Nat) (f : Port → Port) : m.PortsOnly (m.updPort p f) := ⟨.updPort m p f, rfl⟩

theorem queueOwn (m : Mach) (p cls dest type : Nat) (pay : List Byte) : m.PortsOnly (m.queueOwn p cls dest type pay) := updPort m p _

theorem portRegs (m : Mach) (p : Nat) : m.PortsOnly (m.portRegs p) := ⟨.portRegs m p, Mach.nodes_portRegs m p⟩

theorem raisePh (m : Mach) (b : Blk) (i : Nat) : m.PortsOnly (m.raisePh b i) := ⟨.raisePh m b i, by rw [Mach.raisePh_ph]⟩

theorem ringSplit (m : Mach) (p c : Nat) : m.PortsOnly (m.ringSplit p c) := by
  unfold Mach.ringSplit
  exact ite (refl m) (((updPort m _ _).trans (incPh _ _)).trans (portRegs _ _))

theorem ringHealing (m : Mach) (p : Nat) : m.PortsOnly (m.ringHealing p) := by
  unfold Mach.ringHealing
  exact ite (refl m) (((updPort m _ _).trans (raisePh _ _ _)).trans (portRegs _ _))

theorem probeReg (m : Mach) (p result node trip : Nat) : m.PortsOnly (m.probeReg p result node trip) :=
  (((putPh m _ _).trans (putPh _ _ _)).trans (putPh _ _ _)).trans (putPh _ _ _)

theorem noteLatency (m : Mach) (p l : Nat) : m.PortsOnly (m.noteLatency p l) := (updPort m _ _).trans (putPh _ _ _)

theorem endAnnounce (m : Mach) (p : Nat) : m.PortsOnly (m.endAnnounce p) := ite (putPh m _ _) (refl m)

end Mach.PortsOnly

/-- What the rows of rings and schedules leave as it was: all but ports, registers, lane records, clocks and what was sent. -/
def Mach.RingQuiet (m n : Mach) : Prop :=
  n.sys = m.sys ∧ n.sc = m.sc ∧ n.fed = m.fed ∧ n.ph.nodes = m.ph.nodes ∧
  ∀ l, (n.lane l).si = (m.lane l).si ∧ (n.lane l).live = (m.lane l).live

theorem Mach.HubTells.ringQuiet {m n : Mach} (h : m.HubTells n) (hn : n.ph.nodes = m.ph.nodes) : m.RingQuiet n :=
  ⟨h.sys, h.sc, h.fed, hn, h.tables⟩

theorem Mach.PortsOnly.quiet {m n : Mach} (h : m.PortsOnly n) : m.RingQuiet n := h.tells.ringQuiet h.nodes

/-! ### Splits and missing returns (R226, R227) -/

/-- A port whose ring has split, the notice still due. -/
def Port.splitBy (q : Port) (cause : Nat) : Port := { q with split := true, sinceChange := 0, good := 0, missed := 0, splitDue := cause }

theorem Mach.port_ringSplit {m : Mach} {p : Nat} (h : (m.port p).split = false) (cause : Nat) :
    (m.ringSplit p cause).port p = (m.port p).splitBy cause := by
  unfold Mach.ringSplit
  rw [if_neg (by simp [h])]
  simp only [Mach.port_portRegs, Mach.port_incPh, Mach.port_updPort_self]
  rfl

theorem Mach.port_ringHealing (m : Mach) (p : Nat) : (m.ringHealing p).port p = { m.port p with healing := true } := by
  unfold Mach.ringHealing
  split
  next h => exact congrArg (fun b => { m.port p with healing := b }) h
  next => rw [Mach.port_portRegs, Mach.port_raisePh, Mach.port_updPort_self]

/-- A port whose beacon has not come back. -/
def Port.missing (q : Port) : Port := { q with missed := q.missed + 1, returned := false, healing := true }

/-- A missing return: healing begins, and an echo or a second one in a row splits the ring. -/
theorem Mach.returnMissing_eq (m : Mach) (p : Nat) (echo : Bool) : ∃ n, m.PortsOnly n ∧ n.port p = (m.port p).missing ∧
    m.returnMissing p echo = if echo then n.ringSplit p 2 else if 2 ≤ (m.port p).missed + 1 then n.ringSplit p 3 else n := by
  refine ⟨_, (Mach.PortsOnly.updPort m p _).trans (.ringHealing _ p), ?_, rfl⟩
  rw [Mach.port_ringHealing, Mach.port_updPort_self]
  rfl

theorem Mach.PortsOnly.returnMissing (m : Mach) (p : Nat) (echo : Bool) : m.PortsOnly (m.returnMissing p echo) := by
  obtain ⟨n, hn, -, h⟩ := m.returnMissing_eq p echo
  rw [h]
  exact .ite (hn.trans (.ringSplit n p 2)) (.ite (hn.trans (.ringSplit n p 3)) hn)

section
variable {m : Mach} {p : Nat} (hsplit : (m.port p).split = false)
include hsplit

theorem Mach.port_returnMissing_echo : (m.returnMissing p true).port p = (m.port p).missing.splitBy 2 := by
  obtain ⟨n, -, hport, h⟩ := m.returnMissing_eq p true
  rw [h, if_pos rfl, Mach.port_ringSplit (by rw [hport]; exact hsplit), hport]

theorem Mach.port_returnMissing_again (h1 : 1 ≤ (m.port p).missed) : (m.returnMissing p false).port p = (m.port p).missing.splitBy 3 := by
  obtain ⟨n, -, hport, h⟩ := m.returnMissing_eq p false
  rw [h, if_neg Bool.false_ne_true, if_pos (by omega), Mach.port_ringSplit (by rw [hport]; exact hsplit), hport]

omit hsplit in
theorem Mach.port_returnMissing_once (h0 : (m.port p).missed = 0) : (m.returnMissing p false).port p = (m.port p).missing := by
  obtain ⟨n, -, hport, h⟩ := m.returnMissing_eq p false
  rw [h, if_neg Bool.false_ne_true, if_neg (by omega), hport]

end

/-! ### RING_RETURN_CHECK (R211, R226, R227) -/

/-- A port that has measured its ring at `l` ns. -/
def Port.measuredAt (q : Port) (l : Nat) : Port :=
  { q with measured := l, missed := 0, returned := true, maxL := if q.started ≤ 16 then max q.maxL l else q.maxL }

theorem Mach.port_noteLatency (m : Mach) (p l : Nat) : (m.noteLatency p l).port p = (m.port p).measuredAt l := by
  rw [Mach.noteLatency, Mach.port_putPh, Mach.port_updPort_self]
  rfl

theorem Mach.port_probeReg (m : Mach) (k p result node trip : Nat) : (m.probeReg k result node trip).port p = m.port p := by
  rw [Mach.probeReg, Mach.port_putPh, Mach.port_putPh, Mach.port_putPh, Mach.port_putPh]

/-- The beacon is back in time: the ring heals no more, and an echo in a cycle with no join index is a probe of nobody. -/
def Mach.returned (m : Mach) (p l : Nat) (echo : Bool) : Mach :=
  let n := (m.noteLatency p l).updPort p (fun q => { q with healing := false })
  (if echo && decide ((m.port p).joinIndex = 0) then n.probeReg p 2 0 0 else n).portRegs p

theorem Mach.PortsOnly.returned (m : Mach) (p l : Nat) (echo : Bool) : m.PortsOnly (m.returned p l echo) := by
  have h := (noteLatency m p l).trans (updPort _ p (fun q => { q with healing := false }))
  exact (ite (h.trans (probeReg _ _ _ _ _)) h).trans (portRegs _ _)

theorem Mach.port_returned (m : Mach) (p l : Nat) (echo : Bool) :
    (m.returned p l echo).port p = { (m.port p).measuredAt l with healing := false } := by
  have h : ((m.noteLatency p l).updPort p (fun q => { q with healing := false })).port p = { (m.port p).measuredAt l with healing := false } := by
    rw [Mach.port_updPort_self, Mach.port_noteLatency]
  unfold Mach.returned
  dsimp only
  rw [Mach.port_portRegs]
  split
  next => rw [Mach.port_probeReg, h]
  next => exact h

/-- The beacon comes back after the deadline: it is measured, and missing. -/
def Mach.returnedLate (m : Mach) (p l : Nat) (echo : Bool) : Mach :=
  ((m.noteLatency p l).updPort p (fun q => { q with missed := (m.port p).missed })).returnMissing p echo

theorem Mach.ringCheck_idle {m : Mach} {p : Nat}
    (h : ¬(((m.port p).running = true ∧ m.portImg.portMode p = 1) ∧ (m.port p).split = false)) (latency : Option Nat) (echo : Bool) :
    m.ringCheck p latency echo = m := by
  unfold Mach.ringCheck
  refine if_pos ?_
  by_contra hc
  simp at hc
  exact h ⟨⟨hc.1.1.1, hc.1.1.2⟩, hc.1.2⟩

section
variable {m : Mach} {p : Nat} (hring : ((m.port p).running = true ∧ m.portImg.portMode p = 1) ∧ (m.port p).split = false)
include hring

theorem Mach.ringCheck_oneLink (h : (m.port p).eastUp ≠ (m.port p).westUp) (latency : Option Nat) (echo : Bool) :
    m.ringCheck p latency echo = (m.ringHealing p).ringSplit p 1 := by
  obtain ⟨⟨hrun, hmode⟩, hsplit⟩ := hring
  unfold Mach.ringCheck
  dsimp only
  rw [if_neg (by revert h; cases (m.port p).eastUp <;> cases (m.port p).westUp <;> simp [hrun, hmode, hsplit]),
    if_pos (by revert h; cases (m.port p).eastUp <;> cases (m.port p).westUp <;> simp)]

section
variable (heast : (m.port p).eastUp = true) (hwest : (m.port p).westUp = true)
include heast hwest

theorem Mach.ringCheck_inTime {l : Nat} (h : m.inTime p l = true) (echo : Bool) : m.ringCheck p (some l) echo = m.returned p l echo := by
  obtain ⟨⟨hrun, hmode⟩, hsplit⟩ := hring
  unfold Mach.ringCheck
  dsimp only
  rw [if_neg (by simp [hrun, hmode, hsplit, heast]), if_neg (by simp [heast, hwest]), if_pos h]
  rfl

theorem Mach.ringCheck_late {l : Nat} (h : m.inTime p l = false) (echo : Bool) : m.ringCheck p (some l) echo = m.returnedLate p l echo := by
  obtain ⟨⟨hrun, hmode⟩, hsplit⟩ := hring
  unfold Mach.ringCheck
  dsimp only
  rw [if_neg (by simp [hrun, hmode, hsplit, heast]), if_neg (by simp [heast, hwest]), if_neg (by simp [h])]
  rfl

theorem Mach.ringCheck_none (echo : Bool) : m.ringCheck p none echo = m.returnMissing p echo := by
  obtain ⟨⟨hrun, hmode⟩, hsplit⟩ := hring
  unfold Mach.ringCheck
  dsimp only
  rw [if_neg (by simp [hrun, hmode, hsplit, heast]), if_neg (by simp [heast, hwest])]

end

end

/-! ### LINK_SYNC_LOSS (R226) -/

/-- A port that has lost sync on a link. -/
def Port.lose (q : Port) : Link → Port
  | .east => { q with eastUp := false, good := 0 }
  | .west => { q with westUp := false, good := 0 }

/-- The loss of sync as registers and interrupts show it. -/
def Mach.linkShown (m : Mach) (p : Nat) (link : Link) : Mach :=
  (((m.updPort p (·.lose link)).raisePh (.ttp (Fin.ofNat 16 p)) I.TTP_LINK).raisePh .phb I.PHB_LINK_DOWN).portRegs p

/-- A port with both links down: its ring is not split, and nothing of a split is due. -/
def Port.dark (q : Port) : Port := { q with split := false, healing := false, both := false, missed := 0, splitDue := 0 }

theorem Mach.PortsOnly.linkShown (m : Mach) (p : Nat) (link : Link) : m.PortsOnly (m.linkShown p link) :=
  (((updPort m _ _).trans (raisePh _ _ _)).trans (raisePh _ _ _)).trans (portRegs _ _)

theorem Mach.port_linkShown (m : Mach) (p : Nat) (link : Link) : (m.linkShown p link).port p = (m.port p).lose link := by
  rw [Mach.linkShown, Mach.port_portRegs, Mach.port_raisePh, Mach.port_raisePh, Mach.port_updPort_self]

theorem Mach.linkDown_eq {m n : Mach} {p : Nat} {link : Link} (hn : n = m.linkShown p link) :
    m.linkDown p link = if !(n.port p).running || decide (n.portImg.portMode p ≠ 1) then n
      else if !(n.port p).eastUp && !(n.port p).westUp then ((n.updPort p Port.dark).nodesLost p).portRegs p
      else if (n.port p).split then n else (n.ringHealing p).ringSplit p 1 := by
  subst hn
  cases link <;> rfl

/-- The nodes of a port that go LOST with its links: a lane's table of nodes changes, and the Port Hub's interrupts. -/
structure Mach.Loses (m n : Mach) : Prop where
  sys : n.sys = m.sys
  sc : n.sc = m.sc
  ports : n.ph.ports = m.ph.ports

/-- A lane's table with one node's state changed. -/
def Lane.updComm (a : Nat) (f : NodeComm → NodeComm) (x : Lane) : Lane :=
  { x with live := { x.live with node := Store.upd NodeComm.absent x.live.node a f } }

theorem Mach.updComm_everyLane (m : Mach) (a : Nat) (f : NodeComm → NodeComm) : m.updComm everyLane a f = m.mapLanes (Lane.updComm a f) := rfl

/-- A node's state after a change of one node's in every lane. -/
theorem Mach.comm_updComm (m : Mach) (a b : Nat) (f : NodeComm → NodeComm) :
    (m.updComm everyLane a f).comm b = if b = a then f (m.comm a) else m.comm b := by
  have hlead : (m.mapLanes (Lane.updComm a f)).lead = m.lead :=
    Mach.lead_congr (fun l => by rw [Mach.lane_mapLanes]; rfl) (fun l => by rw [Mach.lane_mapLanes]; rfl) rfl rfl
  unfold Mach.comm Mach.leadLane
  rw [Mach.updComm_everyLane, hlead, Mach.lane_mapLanes]
  exact Store.get_set _ _ _ _ _

theorem Mach.toLost_loses (m : Mach) (a : Nat) : m.Loses (m.toLost a) := by
  unfold Mach.toLost
  rw [Mach.updComm_everyLane]
  exact ⟨Mach.raisePh_sys _ _ _, Mach.raisePh_sc _ _ _, by rw [Mach.raisePh_ph, Mach.mapLanes_ph]⟩

/-- The node is LOST, and every other as it was. -/
theorem Mach.commState_toLost (m : Mach) (a b : Nat) : ((m.toLost a).comm b).state = if b = a then 1 else (m.comm b).state := by
  unfold Mach.toLost
  rw [(Mach.HubOnly.raisePh _ _ _).comm, Mach.comm_updComm]
  split
  next =>
    split
    next h => exact h
    next => rfl
  next => rfl

/-- One node of a port, as `Mach.nodesLost` takes it. -/
def Mach.loseOne (p : Nat) (m : Mach) (k : Nat) : Mach := if (m.comm (nodeAddr p k)).state = 0 then m.toLost (nodeAddr p k) else m

theorem Mach.nodesLost_eq (m : Mach) (p : Nat) : m.nodesLost p = (m.nodesOf p).foldl (Mach.loseOne p) m := rfl

theorem Mach.loseOne_loses (p : Nat) (m : Mach) (k : Nat) : m.Loses (Mach.loseOne p m k) := by
  unfold Mach.loseOne
  split
  · exact m.toLost_loses _
  · exact ⟨rfl, rfl, rfl⟩

/-- A node that is LOST stays so, and one of the list that was IN_COMM is LOST. -/
theorem Mach.commState_foldl_loseOne (p b : Nat) (ks : List Nat) (m : Mach)
    (h : (m.comm b).state = 1 ∨ (m.comm b).state = 0 ∧ b ∈ ks.map (nodeAddr p)) : ((ks.foldl (Mach.loseOne p) m).comm b).state = 1 := by
  induction ks generalizing m with
  | nil => exact h.resolve_right (by simp)
  | cons k ks ih =>
    refine ih _ ?_
    have hstep : ((Mach.loseOne p m k).comm b).state =
        if (m.comm (nodeAddr p k)).state = 0 ∧ b = nodeAddr p k then 1 else (m.comm b).state := by
      unfold Mach.loseOne
      by_cases h0 : (m.comm (nodeAddr p k)).state = 0
      · rw [if_pos h0, Mach.commState_toLost]
        simp only [h0, true_and]
      · rw [if_neg h0, if_neg (fun hc => h0 hc.1)]
    rw [hstep]
    split
    next => exact .inl rfl
    next hne =>
      refine h.imp_right fun h0 => ⟨h0.1, ?_⟩
      have hmem := h0.2
      rw [List.map_cons, List.mem_cons] at hmem
      exact hmem.resolve_left fun hb => hne ⟨by rw [← hb]; exact h0.1, hb⟩

theorem Mach.nodesLost_loses (m : Mach) (p : Nat) : m.Loses (m.nodesLost p) := by
  rw [Mach.nodesLost_eq]
  refine List.foldlRecOn (motive := fun n => m.Loses n) (m.nodesOf p) (Mach.loseOne p) ⟨rfl, rfl, rfl⟩ fun n hn k _ => ?_
  have h := Mach.loseOne_loses p n k
  exact ⟨h.sys.trans hn.sys, h.sc.trans hn.sc, h.ports.trans hn.ports⟩

/-! ### RING_RESTORED (R229) -/

/-- A port whose ring is whole again. -/
def Port.whole (q : Port) : Port :=
  { q with split := false, healing := false, both := false, good := 0, missed := 0, sinceChange := 0, splitDue := 0 }

theorem Mach.ringRestored_eq {m : Mach} {p : Nat} {seen : RingSeen} (hrun : (m.port p).running = true) (hsplit : (m.port p).split = true)
    (hgood : 15 ≤ (m.port p).good) (hseen : (m.port p).ringGood seen = true) : m.ringRestored p seen =
      ((((m.updPort p Port.whole).incPh F.STG_HEALS_RESTORES).raisePh .stg I.STG_RESTORED).record 0x4003 p 2 0 0).portRegs p := by
  unfold Mach.ringRestored
  dsimp only
  rw [if_neg (by simp [hrun, hsplit, hseen]; omega)]
  rfl

theorem Mach.ringRestored_idle {m : Mach} {p : Nat} {seen : RingSeen}
    (h : (m.port p).split = false ∨ (m.port p).good < 15 ∨ (m.port p).ringGood seen = false) : m.ringRestored p seen = m := by
  unfold Mach.ringRestored
  refine if_pos ?_
  rcases h with h | h | h <;> simp [h]

/-! ### PORT_LATENCY_CHECK (R166, R211) -/

/-- A port that is refused for its latency. -/
def Port.refusedFor (q : Port) : Port :=
  { q with running := false, commanding := false, refused := true, announcing := false, decided := none, target := 0, grants := [], own := [] }

section
variable {m : Mach} {p : Nat}

theorem Mach.latencyCheck_idle (h : (m.port p).running = false ∨ (m.port p).checked = true ∨ (m.port p).started < 16) :
    m.latencyCheck p = m := by
  unfold Mach.latencyCheck
  refine if_pos ?_
  rcases h with h | h | h <;> simp [h]

section
variable (hrun : (m.port p).running = true) (hcheck : (m.port p).checked = false) (hstart : 16 ≤ (m.port p).started)
include hrun hcheck hstart

theorem Mach.latencyCheck_refused (h : m.portImg.ringMax p * 1000 < (m.port p).maxL) : m.latencyCheck p =
    ((((m.updPort p Port.refusedFor).endAnnounce p).raisePh (.ttp (Fin.ofNat 16 p)) I.TTP_LINK).record 0x4001 p (m.port p).maxL
      (m.portImg.ringMax p * 1000) 0).portRegs p := by
  unfold Mach.latencyCheck
  dsimp only
  rw [if_neg (by simp [hrun, hcheck]; omega), if_pos h]
  rfl

theorem Mach.latencyCheck_passed (h : (m.port p).maxL ≤ m.portImg.ringMax p * 1000) :
    m.latencyCheck p = m.updPort p (fun q => { q with checked := true }) := by
  unfold Mach.latencyCheck
  dsimp only
  rw [if_neg (by simp [hrun, hcheck]; omega), if_neg (by omega)]

end

theorem Mach.port_endAnnounce (k : Nat) : (m.endAnnounce k).port p = m.port p := by
  unfold Mach.endAnnounce
  split
  · rw [Mach.port_putPh]
  · rfl

/-! ### SCHED_DECISION (R203) -/

theorem Mach.schedDecide_idle (h : (m.port p).announcing = false ∨ (m.port p).bc + 1 ≠ m.portImg.perCluster p) : m.schedDecide p = m := by
  unfold Mach.schedDecide
  refine if_pos ?_
  rcases h with h | h <;> simp [h]

section
variable (hann : (m.port p).announcing = true) (htarget : (m.sys.cluster + 1) % 16 = (m.port p).target)
  (hlast : (m.port p).bc + 1 = m.portImg.perCluster p) (hopen : (m.port p).decided = none)
include hann htarget hlast hopen

theorem Mach.schedDecide_agreed (h : m.nacks p = []) : m.schedDecide p = m.updPort p (fun q => { q with decided := some true }) := by
  unfold Mach.schedDecide
  dsimp only
  rw [if_neg (by simp [hann, htarget, hlast, hopen]), h]
  rfl

theorem Mach.schedDecide_blocked (h : m.nacks p ≠ []) : ∃ v w, m.schedDecide p =
    (((((m.updPort p (fun q => { q with decided := some false })).putPh (F.TTP_SCHED_STATE p) 3).putPh (F.TTP_NACK_LO_NODES p) v).putPh
      (F.TTP_NACK_HI_NODES p) w).raisePh (.ttp (Fin.ofNat 16 p)) I.TTP_SCHED_ABANDONED).record 0x4004 p 3 (m.port p).next (m.nacks p).length := by
  have hsome : (m.nacks p).isEmpty = false := List.isEmpty_eq_false_iff.mpr h
  unfold Mach.schedDecide
  dsimp only
  rw [if_neg (by simp [hann, htarget, hlast, hopen]), hsome, if_neg Bool.false_ne_true]
  exact ⟨_, _, rfl⟩

end

end

end Sys2Proof.Machine


/-! # PROBE_ECHO, RING_RETURN_CHECK, LINK_SYNC_LOSS, RING_RESTORED, PORT_LATENCY_CHECK and SCHED_DECISION -/
namespace Sys2Proof.Machine

/-- A record between changes of ports: the lanes tell of it, and nothing else of them has changed. -/
theorem Mach.PortsOnly.recorded {m n o : Mach} (h : m.PortsOnly n) {code p0 p1 p2 p3 : Nat} (ho : (n.record code p0 p1 p2 p3).PortsOnly o) :
    m.RingQuiet o ∧ o.Recorded code p0 p1 p2 := by
  refine ⟨((h.tells.trans (.record n _ _ _ _ _)).trans ho.tells).ringQuiet ?_, (n.recorded_record code p0 p1 p2 p3).hubOnly ho.toHubOnly⟩
  rw [ho.nodes, Mach.record_ph, h.nodes]

section
variable {s : State} {p : Fin 16}

/-! ### RING_RETURN_CHECK -/

section
variable (hring : ((s.m.port p.val).running = true ∧ s.m.portImg.portMode p.val = 1) ∧ (s.m.port p.val).split = false)
include hring

theorem completes_ringReturnCheck_oneLink (h : (s.m.port p.val).eastUp ≠ (s.m.port p.val).westUp) (l : Option Nat) (e : Bool) :
    Completes (.ringReturnCheck p l e) s (fun m => s.m.RingQuiet m ∧ (m.port p.val).split = true ∧ (m.port p.val).splitDue = 1) := by
  have hsplit : ((s.m.ringHealing p.val).port p.val).split = false := by
    rw [Mach.port_ringHealing]
    exact hring.2
  have hq := ((Mach.PortsOnly.ringHealing s.m p.val).trans (.ringSplit _ p.val 1)).quiet
  refine completes_to (·.ringCheck p.val l e) rfl (Mach.ringCheck_oneLink hring h l e) hq.1 ⟨hq, ?_⟩
  rw [Mach.port_ringSplit hsplit]
  exact ⟨rfl, rfl⟩

section
variable (heast : (s.m.port p.val).eastUp = true) (hwest : (s.m.port p.val).westUp = true)
include heast hwest

theorem completes_ringReturnCheck_inTime {l : Nat} (e : Bool) (h : s.m.inTime p.val l = true) : Completes (.ringReturnCheck p (some l) e) s
    (fun m => s.m.RingQuiet m ∧ (m.port p.val).measured = l ∧ (m.port p.val).missed = 0 ∧ (m.port p.val).split = false ∧
      (m.port p.val).healing = false) := by
  have hq := (Mach.PortsOnly.returned s.m p.val l e).quiet
  refine completes_to (·.ringCheck p.val (some l) e) rfl (Mach.ringCheck_inTime hring heast hwest h e) hq.1 ⟨hq, ?_⟩
  rw [Mach.port_returned]
  exact ⟨rfl, rfl, hring.2, rfl⟩

theorem completes_ringReturnCheck_late {l : Nat} (h : s.m.inTime p.val l = false) (h0 : (s.m.port p.val).missed = 0) :
    Completes (.ringReturnCheck p (some l) false) s (fun m => s.m.RingQuiet m ∧ (m.port p.val).measured = l ∧ (m.port p.val).missed = 1 ∧
      (m.port p.val).split = false ∧ (m.port p.val).healing = true) := by
  have hport : ((s.m.noteLatency p.val l).updPort p.val (fun q => { q with missed := (s.m.port p.val).missed })).port p.val =
      { (s.m.port p.val).measuredAt l with missed := (s.m.port p.val).missed } := by
    rw [Mach.port_updPort_self, Mach.port_noteLatency]
  have hq := (((Mach.PortsOnly.noteLatency s.m p.val l).trans (.updPort _ p.val (fun q => { q with missed := (s.m.port p.val).missed }))).trans
    (.returnMissing _ p.val false)).quiet
  refine completes_to (·.ringCheck p.val (some l) false) rfl (Mach.ringCheck_late hring heast hwest h false) hq.1 ⟨hq, ?_⟩
  rw [Mach.returnedLate, Mach.port_returnMissing_once (by rw [hport]; exact h0), hport]
  exact ⟨rfl, congrArg (· + 1) h0, hring.2, rfl⟩

theorem completes_ringReturnCheck_echo : Completes (.ringReturnCheck p none true) s (fun m => s.m.RingQuiet m ∧
    (m.port p.val).split = true ∧ (m.port p.val).sinceChange = 0 ∧ (m.port p.val).splitDue = 2) := by
  have hq := (Mach.PortsOnly.returnMissing s.m p.val true).quiet
  refine completes_to (·.ringCheck p.val none true) rfl (Mach.ringCheck_none hring heast hwest true) hq.1 ⟨hq, ?_⟩
  rw [Mach.port_returnMissing_echo hring.2]
  exact ⟨rfl, rfl, rfl⟩

theorem completes_ringReturnCheck_again (h1 : 1 ≤ (s.m.port p.val).missed) : Completes (.ringReturnCheck p none false) s (fun m =>
    s.m.RingQuiet m ∧ (m.port p.val).split = true ∧ (m.port p.val).splitDue = 3) := by
  have hq := (Mach.PortsOnly.returnMissing s.m p.val false).quiet
  refine completes_to (·.ringCheck p.val none false) rfl (Mach.ringCheck_none hring heast hwest false) hq.1 ⟨hq, ?_⟩
  rw [Mach.port_returnMissing_again hring.2 h1]
  exact ⟨rfl, rfl⟩

theorem completes_ringReturnCheck_once (h0 : (s.m.port p.val).missed = 0) : Completes (.ringReturnCheck p none false) s (fun m =>
    s.m.RingQuiet m ∧ (m.port p.val).split = false ∧ (m.port p.val).missed = 1 ∧ (m.port p.val).healing = true) := by
  have hq := (Mach.PortsOnly.returnMissing s.m p.val false).quiet
  refine completes_to (·.ringCheck p.val none false) rfl (Mach.ringCheck_none hring heast hwest false) hq.1 ⟨hq, ?_⟩
  rw [Mach.port_returnMissing_once h0]
  exact ⟨hring.2, congrArg (· + 1) h0, rfl⟩

/-! ### LINK_SYNC_LOSS -/

theorem completes_linkSyncLoss_split (link : Link) : Completes (.linkSyncLoss p link) s (fun m => s.m.RingQuiet m ∧
    (m.port p.val).split = true ∧ ((m.port p.val).eastUp = false ↔ link = .east) ∧ ((m.port p.val).westUp = false ↔ link = .west) ∧
    (m.port p.val).splitDue = 1) := by
  obtain ⟨⟨hrun, hmode⟩, hsplit⟩ := hring
  generalize hn : s.m.linkShown p.val link = n
  have hshown : s.m.PortsOnly n := hn ▸ .linkShown s.m p.val link
  have hport : n.port p.val = (s.m.port p.val).lose link := hn ▸ s.m.port_linkShown p.val link
  have heq : s.m.linkDown p.val link = (n.ringHealing p.val).ringSplit p.val 1 := by
    rw [Mach.linkDown_eq hn.symm, hport, hshown.portImg]
    cases link <;> simp [Port.lose, hrun, hmode, hsplit, heast, hwest]
  have hheal : (n.ringHealing p.val).port p.val = { (s.m.port p.val).lose link with healing := true } := by
    rw [Mach.port_ringHealing, hport]
  have hwhole : ((n.ringHealing p.val).port p.val).split = false := by
    rw [hheal]
    cases link <;> exact hsplit
  have hq := ((hshown.trans (.ringHealing n p.val)).trans (.ringSplit _ p.val 1)).quiet
  refine completes_to (·.linkDown p.val link) rfl heq hq.1 ⟨hq, ?_⟩
  rw [Mach.port_ringSplit hwhole, hheal]
  cases link <;> simp [Port.splitBy, Port.lose, heast, hwest]

end

end

theorem completes_ringReturnCheck_idle (h : ¬(((s.m.port p.val).running = true ∧ s.m.portImg.portMode p.val = 1) ∧
    (s.m.port p.val).split = false)) (l : Option Nat) (e : Bool) : Completes (.ringReturnCheck p l e) s (fun m => m = s.m) :=
  completes_unchanged (·.ringCheck p.val l e) rfl (Mach.ringCheck_idle h l e)

theorem completes_linkSyncLoss_dark (hrun : (s.m.port p.val).running = true) (hmode : s.m.portImg.portMode p.val = 1)
    (hwest : (s.m.port p.val).westUp = false) : Completes (.linkSyncLoss p .east) s (fun m => m.sys = s.m.sys ∧ m.sc = s.m.sc ∧
      (m.port p.val).eastUp = false ∧ (m.port p.val).split = false ∧ (m.port p.val).splitDue = 0 ∧
      ∀ k ∈ s.m.nodesOf p.val, (s.m.comm (nodeAddr p.val k)).state = 0 → (m.comm (nodeAddr p.val k)).state = 1) := by
  generalize hn : s.m.linkShown p.val .east = n
  have hshown : s.m.HubOnly n := hn ▸ (Mach.PortsOnly.linkShown s.m p.val .east).toHubOnly
  have hport : n.port p.val = (s.m.port p.val).lose .east := hn ▸ s.m.port_linkShown p.val .east
  have heq : s.m.linkDown p.val .east = ((n.updPort p.val Port.dark).nodesLost p.val).portRegs p.val := by
    rw [Mach.linkDown_eq hn.symm, hport, hshown.portImg]
    simp [Port.lose, hrun, hmode, hwest]
  have hdark : s.m.HubOnly (n.updPort p.val Port.dark) := hshown.trans (.updPort n p.val Port.dark)
  have hloses := (n.updPort p.val Port.dark).nodesLost_loses p.val
  have hregs := Mach.HubOnly.portRegs ((n.updPort p.val Port.dark).nodesLost p.val) p.val
  have hfinal : (((n.updPort p.val Port.dark).nodesLost p.val).portRegs p.val).port p.val = ((s.m.port p.val).lose .east).dark := by
    rw [Mach.port_portRegs, Mach.port_of_ports _ _ hloses.ports, Mach.port_updPort_self, hport]
  have hsys : (((n.updPort p.val Port.dark).nodesLost p.val).portRegs p.val).sys = s.m.sys := by rw [hregs.sys, hloses.sys, hdark.sys]
  refine completes_to (·.linkDown p.val .east) rfl heq hsys ⟨hsys, by rw [hregs.sc, hloses.sc, hdark.sc], ?_, ?_, ?_, fun k hk h0 => ?_⟩
  · rw [hfinal]; rfl
  · rw [hfinal]; rfl
  · rw [hfinal]; rfl
  · rw [hregs.comm, Mach.nodesLost_eq, hdark.nodesOf]
    exact Mach.commState_foldl_loseOne _ _ _ _ (.inr ⟨by rw [hdark.comm]; exact h0, List.mem_map_of_mem hk⟩)

/-! ### The notice of a split (R226) -/

theorem completes_portBasicCycle_notice {seen : RingSeen} (hrun : (s.m.port p.val).running = true) (hdue : (s.m.port p.val).splitDue ≠ 0)
    (hnext : s.m.portNext p.val ≠ 0) : Completes (.portBasicCycle p seen) s (fun m => (m.port p.val).splitDue = 0 ∧
      m.Recorded 0x4003 p.val 1 (s.m.port p.val).splitDue ∧ m.sys = s.m.sys ∧ m.sc = s.m.sc ∧
      ∀ l, (m.lane l).si = (s.m.lane l).si ∧ (m.lane l).live = (s.m.lane l).live) := by
  have hnotice : s.m.noticed p.val seen = ((s.m.updPort p.val (fun q => { q with splitDue := 0 })).raisePh .stg I.STG_SPLIT).record
      0x4003 p.val 1 (s.m.port p.val).splitDue 0 := by
    unfold Mach.noticed Mach.splitNotice
    dsimp only
    rw [if_neg hnext, if_neg hdue]
  generalize hn : s.m.noticed p.val seen = n at hnotice
  obtain ⟨honly, own, gs, ptr, idx, joinPtr, start, hport⟩ := Mach.portBasic_port hn.symm
  have htells : s.m.HubTells n := by
    rw [hnotice]
    exact ((Mach.HubOnly.updPort s.m p.val _).trans (.raisePh _ _ _)).tells.trans (.record _ _ _ _ _ _)
  have hrec : n.Recorded 0x4003 p.val 1 (s.m.port p.val).splitDue := by
    rw [hnotice]
    exact Mach.recorded_record _ _ _ _ _ _
  have hall := htells.trans honly.tells
  refine completes_to _ (exec_portBasicCycle p seen s) (if_pos hrun) hall.sys ⟨?_, hrec.hubOnly honly, hall.sys, hall.sc, hall.tables⟩
  rw [hport, Port.offering_splitDue, Port.begun_splitDue, hnotice, Mach.port_record, Mach.port_raisePh, Mach.port_updPort_self]

/-! ### RING_RESTORED -/

theorem exec_ringRestored (x : RingEnd) (s : State) : exec (.ringRestored x) s =
    s.run (fun m => if m.sys.boundary then m.ringRestored x.port.val x.seen else m) := rfl

theorem completes_ringRestored {seen : RingSeen} (hrun : (s.m.port p.val).running = true) (hb : s.m.sys.boundary = true)
    (hsplit : (s.m.port p.val).split = true) (hgood : 15 ≤ (s.m.port p.val).good) (hseen : (s.m.port p.val).ringGood seen = true) :
    Completes (.ringRestored ⟨p, seen⟩) s (fun m => s.m.RingQuiet m ∧ (m.port p.val).split = false ∧ (m.port p.val).both = false ∧
      (m.port p.val).good = 0 ∧ (m.port p.val).sinceChange = 0 ∧ m.Recorded 0x4003 p.val 2 0) := by
  obtain ⟨hq, hrec⟩ := (((Mach.PortsOnly.updPort s.m p.val Port.whole).trans (.incPh _ F.STG_HEALS_RESTORES)).trans
    (.raisePh _ .stg I.STG_RESTORED)).recorded (code := 0x4003) (p0 := p.val) (p1 := 2) (p2 := 0) (p3 := 0) (.portRegs _ p.val)
  refine completes_to _ (exec_ringRestored _ s) ((if_pos hb).trans (Mach.ringRestored_eq hrun hsplit hgood hseen)) hq.1 ⟨hq, ?_⟩
  rw [Mach.port_portRegs, Mach.port_record, Mach.port_raisePh, Mach.port_incPh, Mach.port_updPort_self]
  exact ⟨rfl, rfl, rfl, rfl, hrec⟩

theorem completes_ringRestored_idle {seen : RingSeen} (h : (s.m.port p.val).split = false ∨ s.m.sys.boundary = false ∨
    (s.m.port p.val).good < 15 ∨ (s.m.port p.val).ringGood seen = false) : Completes (.ringRestored ⟨p, seen⟩) s (fun m => m = s.m) := by
  refine completes_unchanged _ (exec_ringRestored _ s) ?_
  dsimp only
  split
  next hb => exact Mach.ringRestored_idle (by simpa [hb] using h)
  next => rfl

/-! ### PROBE_ECHO (R215) -/

theorem Mach.fld_probeReg (m : Mach) (k result node trip : Nat) : (m.probeReg k result node trip).ph.regs.fld F.STG_PROBE_RESULT = result % 16 ∧
    (m.probeReg k result node trip).ph.regs.fld F.STG_PROBE_ROUND_TRIP = min (trip / 8) 65535 := by
  rw [Mach.probeReg, Mach.putPh_ph, Mach.putPh_ph, Mach.putPh_ph, Mach.putPh_ph]
  simp (disch := decide) only [Regs.fld_put_beside, Regs.fld_put_same]
  exact ⟨rfl, Nat.mod_eq_of_lt (lt_of_le_of_lt (Nat.min_le_right _ _) (by decide))⟩

theorem Mach.ports_probeReg (m : Mach) (k result node trip : Nat) : (m.probeReg k result node trip).ph.ports = m.ph.ports := by
  rw [Mach.probeReg, Mach.putPh_ph, Mach.putPh_ph, Mach.putPh_ph, Mach.putPh_ph]

/-- A probe that finds no node or no good echo shows its result. -/
theorem completes_probeEcho_shown {t : Nat} {ok back : Bool} {result node : Nat} (hlt : result < 16)
    (h : s.m.probeEcho p.val t ok back = s.m.probeReg p.val result node 0) : Completes (.probeEcho p t ok back) s (fun m => s.m.RingQuiet m ∧
      m.ph.regs.fld F.STG_PROBE_RESULT = result ∧ m.ph.ports = s.m.ph.ports) := by
  have hq := (Mach.PortsOnly.probeReg s.m p.val result node 0).quiet
  refine completes_to (·.probeEcho p.val t ok back) rfl h hq.1 ⟨hq, ?_, s.m.ports_probeReg _ _ _ _⟩
  rw [(s.m.fld_probeReg _ _ _ _).1, Nat.mod_eq_of_lt hlt]

section
variable (hmatrix : (s.m.port p.val).running = true ∧ s.m.portImg.portMode p.val = 1) (t : Nat)
include hmatrix

theorem completes_probeEcho_nobody (h : (s.m.port p.val).joinIndex = 0) (ok back : Bool) : Completes (.probeEcho p t ok back) s (fun m =>
    s.m.RingQuiet m ∧ m.ph.regs.fld F.STG_PROBE_RESULT = 2 ∧ m.ph.ports = s.m.ph.ports) := by
  refine completes_probeEcho_shown (result := 2) (node := 0) (by decide) ?_
  unfold Mach.probeEcho
  dsimp only
  rw [if_neg (by simp [hmatrix]), if_pos h]

section
variable (h : (s.m.port p.val).joinIndex ≠ 0)
include h

theorem completes_probeEcho_badCrc (back : Bool) : Completes (.probeEcho p t false back) s (fun m =>
    s.m.RingQuiet m ∧ m.ph.regs.fld F.STG_PROBE_RESULT = 3 ∧ m.ph.ports = s.m.ph.ports) := by
  refine completes_probeEcho_shown (result := 3) (node := (s.m.port p.val).joinIndex) (by decide) ?_
  unfold Mach.probeEcho
  dsimp only
  rw [if_neg (by simp [hmatrix]), if_neg h]
  rfl

theorem completes_probeEcho_notReturned : Completes (.probeEcho p t true false) s (fun m =>
    s.m.RingQuiet m ∧ m.ph.regs.fld F.STG_PROBE_RESULT = 4 ∧ m.ph.ports = s.m.ph.ports) := by
  refine completes_probeEcho_shown (result := 4) (node := (s.m.port p.val).joinIndex) (by decide) ?_
  unfold Mach.probeEcho
  dsimp only
  rw [if_neg (by simp [hmatrix]), if_neg h]
  rfl

/-- A good echo: its round trip is shown, and a DELAY of KIND 1 waits for the node. -/
theorem completes_probeEcho_answered : Completes (.probeEcho p t true true) s (fun m => s.m.RingQuiet m ∧
    m.ph.regs.fld F.STG_PROBE_RESULT = 1 ∧ m.ph.regs.fld F.STG_PROBE_ROUND_TRIP = min (t / 8) 65535 ∧
    (m.port p.val).own = (s.m.port p.val).own ++ [(4, nodeAddr p.val (s.m.port p.val).joinIndex, 10,
      delayPayload (moduleSeq s.m.sys.cluster (s.m.portImg.perCluster p.val) (s.m.port p.val).bc) t)]) := by
  have heq : s.m.probeEcho p.val t true true = (s.m.probeReg p.val 1 (s.m.port p.val).joinIndex t).queueOwn p.val 4
      (nodeAddr p.val (s.m.port p.val).joinIndex) 10
      (delayPayload (moduleSeq s.m.sys.cluster (s.m.portImg.perCluster p.val) (s.m.port p.val).bc) t) := by
    unfold Mach.probeEcho
    dsimp only
    rw [if_neg (by simp [hmatrix]), if_neg h]
    rfl
  have hq : s.m.RingQuiet (s.m.probeEcho p.val t true true) := by
    rw [heq]
    exact ((Mach.PortsOnly.probeReg _ _ _ _ _).trans (.queueOwn _ _ _ _ _ _)).quiet
  obtain ⟨hresult, htrip⟩ := s.m.fld_probeReg p.val 1 (s.m.port p.val).joinIndex t
  refine completes_to (·.probeEcho p.val t true true) rfl rfl hq.1 ⟨hq, ?_⟩
  rw [heq]
  refine ⟨?_, ?_, ?_⟩
  · rw [Mach.queueOwn, Mach.regs_updPort, hresult]
  · rw [Mach.queueOwn, Mach.regs_updPort, htrip]
  · rw [Mach.port_queueOwn, Mach.port_probeReg]

end

end

theorem completes_probeEcho_idle (h : ¬((s.m.port p.val).running = true ∧ s.m.portImg.portMode p.val = 1)) (t : Nat) (ok back : Bool) :
    Completes (.probeEcho p t ok back) s (fun m => m = s.m) := by
  refine completes_unchanged (·.probeEcho p.val t ok back) rfl (if_pos ?_)
  by_contra hc
  simp at hc
  exact h hc

/-! ### PORT_LATENCY_CHECK -/

section
variable (hrun : (s.m.port p.val).running = true) (hcheck : (s.m.port p.val).checked = false) (hstart : 16 ≤ (s.m.port p.val).started)
include hrun hcheck hstart

theorem completes_portLatencyCheck_refused (h : s.m.portImg.ringMax p.val * 1000 < (s.m.port p.val).maxL) :
    Completes (.portLatencyCheck p) s (fun m => s.m.RingQuiet m ∧ (m.port p.val).running = false ∧ (m.port p.val).refused = true ∧
      m.Recorded 0x4001 p.val (s.m.port p.val).maxL (s.m.portImg.ringMax p.val * 1000)) := by
  obtain ⟨hq, hrec⟩ := (((Mach.PortsOnly.updPort s.m p.val Port.refusedFor).trans (.endAnnounce _ p.val)).trans
    (.raisePh _ (.ttp (Fin.ofNat 16 p.val)) I.TTP_LINK)).recorded (code := 0x4001) (p0 := p.val) (p1 := (s.m.port p.val).maxL)
      (p2 := s.m.portImg.ringMax p.val * 1000) (p3 := 0) (.portRegs _ p.val)
  refine completes_to (·.latencyCheck p.val) rfl (Mach.latencyCheck_refused hrun hcheck hstart h) hq.1 ⟨hq, ?_⟩
  rw [Mach.port_portRegs, Mach.port_record, Mach.port_raisePh, Mach.port_endAnnounce, Mach.port_updPort_self]
  exact ⟨rfl, rfl, hrec⟩

theorem completes_portLatencyCheck_passed (h : (s.m.port p.val).maxL ≤ s.m.portImg.ringMax p.val * 1000) :
    Completes (.portLatencyCheck p) s (fun m => s.m.RingQuiet m ∧ m.port p.val = { s.m.port p.val with checked := true }) :=
  completes_to (·.latencyCheck p.val) rfl (Mach.latencyCheck_passed hrun hcheck hstart h) rfl
    ⟨(Mach.PortsOnly.updPort s.m p.val _).quiet, Mach.port_updPort_self _ _ _⟩

end

theorem completes_portLatencyCheck_idle (h : (s.m.port p.val).running = false ∨ (s.m.port p.val).checked = true ∨
    (s.m.port p.val).started < 16) : Completes (.portLatencyCheck p) s (fun m => m = s.m) :=
  completes_unchanged (·.latencyCheck p.val) rfl (Mach.latencyCheck_idle h)

/-! ### SCHED_DECISION -/

theorem exec_schedDecision (p : Fin 16) (s : State) : exec (.schedDecision p) s =
    s.run (fun m => if (m.port p.val).running then m.schedDecide p.val else m) := rfl

section
variable (hrun : (s.m.port p.val).running = true) (hann : (s.m.port p.val).announcing = true)
  (htarget : (s.m.sys.cluster + 1) % 16 = (s.m.port p.val).target) (hlast : (s.m.port p.val).bc + 1 = s.m.portImg.perCluster p.val)
  (hopen : (s.m.port p.val).decided = none)
include hrun hann htarget hlast hopen

theorem completes_schedDecision_agreed (h : s.m.nacks p.val = []) : Completes (.schedDecision p) s (fun m => s.m.RingQuiet m ∧
    m.port p.val = { s.m.port p.val with decided := some true }) :=
  completes_to _ (exec_schedDecision p s) ((if_pos hrun).trans (Mach.schedDecide_agreed hann htarget hlast hopen h)) rfl
    ⟨(Mach.PortsOnly.updPort s.m p.val _).quiet, Mach.port_updPort_self _ _ _⟩

theorem completes_schedDecision_blocked (h : s.m.nacks p.val ≠ []) : Completes (.schedDecision p) s (fun m => s.m.RingQuiet m ∧
    m.port p.val = { s.m.port p.val with decided := some false } ∧ m.ph.regs.fld (F.TTP_SCHED_STATE p.val) = 3 ∧
    m.Recorded 0x4004 p.val 3 (s.m.port p.val).next) := by
  obtain ⟨v, w, heq⟩ := Mach.schedDecide_blocked hann htarget hlast hopen h
  have happart : ∀ p : Fin 16, (F.TTP_SCHED_STATE p.val).addr ≠ blkBase (.ttp (Fin.ofNat 16 p.val)) + 0x10 ∧
      (F.TTP_SCHED_STATE p.val).addr ≠ (F.TTP_NACK_HI_NODES p.val).addr ∧
      (F.TTP_SCHED_STATE p.val).addr ≠ (F.TTP_NACK_LO_NODES p.val).addr := by decide
  obtain ⟨hint, hhi, hlo⟩ := happart p
  obtain ⟨hq, hrec⟩ := ((((Mach.PortsOnly.updPort s.m p.val (fun q => { q with decided := some false })).trans
    (.putPh _ (F.TTP_SCHED_STATE p.val) 3)).trans (.putPh _ (F.TTP_NACK_LO_NODES p.val) v)).trans
    ((Mach.PortsOnly.putPh _ (F.TTP_NACK_HI_NODES p.val) w).trans (.raisePh _ (.ttp (Fin.ofNat 16 p.val)) I.TTP_SCHED_ABANDONED))).recorded
      (code := 0x4004) (p0 := p.val) (p1 := 3) (p2 := (s.m.port p.val).next) (p3 := (s.m.nacks p.val).length) (.refl _)
  refine completes_to _ (exec_schedDecision p s) ((if_pos hrun).trans heq) hq.1 ⟨hq, ?_, ?_, hrec⟩
  · rw [Mach.port_record, Mach.port_raisePh, Mach.port_putPh, Mach.port_putPh, Mach.port_putPh, Mach.port_updPort_self]
  · rw [Mach.record_ph, Mach.raisePh_ph, Regs.fld_setBit_ne _ hint, Mach.putPh_ph, Regs.fld_put_ne _ _ hhi, Mach.putPh_ph,
      Regs.fld_put_ne _ _ hlo, Mach.putPh_ph]
    exact Regs.fld_put_same _ _ _ (show 31 < 32 by decide) (show 28 ≤ 31 by decide)

end

theorem completes_schedDecision_idle (h : (s.m.port p.val).announcing = false ∨ (s.m.port p.val).bc + 1 ≠ s.m.portImg.perCluster p.val) :
    Completes (.schedDecision p) s (fun m => m = s.m) := by
  refine completes_unchanged _ (exec_schedDecision p s) ?_
  rw [Mach.schedDecide_idle h]
  exact ite_self _

end

/-- Settles O48: each row is a change of its port after one split of cases, with a record in the lanes where the row tells of it; the loss of both
links takes the port's nodes one by one. -/
theorem ringsAndSchedules : Obligations.RingsAndSchedules := by
  unfold Obligations.RingsAndSchedules
  intro s p q quiet matrix rings
  refine ⟨fun hring heast hwest => ⟨fun l e h => completes_ringReturnCheck_inTime hring heast hwest e h,
      fun l h h0 => completes_ringReturnCheck_late hring heast hwest h h0, completes_ringReturnCheck_echo hring heast hwest,
      fun h1 => completes_ringReturnCheck_again hring heast hwest h1, fun h0 => completes_ringReturnCheck_once hring heast hwest h0⟩,
    fun hring h l e => completes_ringReturnCheck_oneLink hring h l e,
    fun seen hmatrix hdue hnext => completes_portBasicCycle_notice hmatrix.1 hdue hnext,
    fun h l e => completes_ringReturnCheck_idle h l e,
    fun hring heast hwest link => completes_linkSyncLoss_split hring heast hwest link,
    fun hmatrix hwest => completes_linkSyncLoss_dark hmatrix.1 hmatrix.2 hwest,
    fun seen hmatrix hb hsplit hgood hseen => completes_ringRestored hmatrix.1 hb hsplit hgood hseen,
    fun seen h => completes_ringRestored_idle h,
    fun hmatrix t => ⟨fun h ok back => completes_probeEcho_nobody hmatrix t h ok back, fun h =>
      ⟨fun back => completes_probeEcho_badCrc hmatrix t h back, completes_probeEcho_notReturned hmatrix t h,
        completes_probeEcho_answered hmatrix t h⟩⟩,
    fun h t ok back => completes_probeEcho_idle h t ok back,
    fun hrun hcheck hstart => ⟨fun h => completes_portLatencyCheck_refused hrun hcheck hstart h,
      fun h => completes_portLatencyCheck_passed hrun hcheck hstart h⟩,
    fun h => completes_portLatencyCheck_idle h,
    fun hrun hann htarget hlast hopen => ⟨fun h => completes_schedDecision_agreed hrun hann htarget hlast hopen h,
      fun h => completes_schedDecision_blocked hrun hann htarget hlast hopen h⟩,
    fun h => completes_schedDecision_idle h⟩

end Sys2Proof.Machine


/-! # Copies of node frames: accepted, discarded and cut (R168 to R172, R217, R220 to R224) -/
namespace Sys2Proof.Machine

/-! ### Clocks, errors and corrections that a copy moves -/

/-- Work of an unscheduled slot touches the clocks alone. -/
theorem Mach.wakeForFrame_eq (m : Mach) : ∃ c, m.wakeForFrame = { m with clk := c } := by
  refine List.foldlRecOn (motive := fun n : Mach => ∃ c, n = { m with clk := c }) _ Mach.wakeLane ⟨m.clk, rfl⟩ fun n hn l _ => ?_
  obtain ⟨c, rfl⟩ := hn
  unfold Mach.wakeLane
  split
  · exact ⟨c, rfl⟩
  · exact ⟨_, rfl⟩

/-- The start error of an accepted copy touches the worst error and one counter. -/
theorem Mach.noteError_eq (m : Mach) (idx : Nat) (err : Int) : ∃ r w, m.noteError idx err = { m with ph := { m.ph with regs := r, worst := w } } ∧
    (r = m.ph.regs ∨ r = m.ph.regs.inc F.STG_CUTS_OFF_EDGE) := by
  have hcount : ∃ r, (if 250 < err.natAbs then m.incPh F.STG_CUTS_OFF_EDGE else m) = { m with ph := { m.ph with regs := r } } ∧
      (r = m.ph.regs ∨ r = m.ph.regs.inc F.STG_CUTS_OFF_EDGE) := by
    split
    · exact ⟨_, rfl, .inr rfl⟩
    · exact ⟨_, rfl, .inl rfl⟩
  obtain ⟨r, hr, hcases⟩ := hcount
  unfold Mach.noteError
  dsimp only
  rw [hr]
  split
  · split
    · exact ⟨r, _, rfl, hcases⟩
    · exact ⟨r, _, rfl, hcases⟩
  · exact ⟨r, _, rfl, hcases⟩

/-- Of the Port Hub only what R217 measured of nodes has changed, and nothing beside it. -/
structure Mach.Gauges (m n : Mach) : Prop extends Mach.HubOnly m n where
  ports : n.ph.ports = m.ph.ports
  regs : n.ph.regs = m.ph.regs
  out : n.out = m.out
  seq : ∀ b, (n.node b).seq = (m.node b).seq
  copies : ∀ b, (n.node b).copies = (m.node b).copies
  quarantined : ∀ b, (n.node b).quarantined = (m.node b).quarantined
  quarWin : ∀ b, (n.node b).quarWin = (m.node b).quarWin

theorem Mach.Gauges.refl (m : Mach) : m.Gauges m := ⟨.refl m, rfl, rfl, rfl, fun _ => rfl, fun _ => rfl, fun _ => rfl, fun _ => rfl⟩

theorem Mach.Gauges.updNode (m : Mach) (a : Nat) (f : Node → List (Int × Nat)) :
    m.Gauges (m.updNode a (fun n => { n with correction := f n })) := by
  have hnode : ∀ b, ∃ c, (m.updNode a (fun n => { n with correction := f n })).node b = { m.node b with correction := c } := fun b => by
    rw [Mach.node_updNode]
    split
    next hb => exact ⟨_, by rw [hb]⟩
    next => exact ⟨_, rfl⟩
  refine ⟨.updNode m a _, rfl, rfl, rfl, fun b => ?_, fun b => ?_, fun b => ?_, fun b => ?_⟩ <;>
  · obtain ⟨c, hc⟩ := hnode b
    rw [hc]

/-- The module once a copy's start error is measured, on a matrix port. -/
def Mach.gauged (m : Mach) (p : Nat) (link : Link) (rx : RxFrame) : Mach :=
  if decide (m.portImg.portMode p = 2) then m else m.measure p link rx

/-- A start error is measured of a whole copy, or none is. -/
theorem Mach.measure_cases (m : Mach) (p : Nat) (link : Link) (rx : RxFrame) : m.measure p link rx = m ∨ frameWhole rx.bytes = true ∧
    ∃ f : Node → List (Int × Nat), m.measure p link rx = m.updNode (readHusk rx.bytes).source (fun n => { n with correction := f n }) := by
  unfold Mach.measure
  dsimp only
  split
  · split_ifs with hboth h h
    · exact .inr ⟨by simp only [Bool.and_eq_true] at h; exact h.1.1.1, _, rfl⟩
    · exact .inl rfl
    · exact .inr ⟨by simp only [Bool.and_eq_true] at h; exact h.1.1.1, _, rfl⟩
    · exact .inl rfl
  · exact .inl rfl

theorem Mach.gauged_gauges (m : Mach) (p : Nat) (link : Link) (rx : RxFrame) : m.Gauges (m.gauged p link rx) := by
  unfold Mach.gauged
  split
  · exact .refl m
  · obtain h | ⟨-, f, h⟩ := m.measure_cases p link rx
    · rw [h]
      exact .refl m
    · rw [h]
      exact .updNode m _ f

/-- Of a copy that was not received whole nothing is measured. -/
theorem Mach.gauged_of_broken {m : Mach} {rx : RxFrame} (h : frameWhole rx.bytes = false) (p : Nat) (link : Link) : m.gauged p link rx = m := by
  unfold Mach.gauged
  split
  · rfl
  · exact (m.measure_cases p link rx).resolve_right fun hc => by simp [h] at hc

theorem Mach.Gauges.discardReason {m n : Mach} (h : m.Gauges n) (p win : Nat) (bytes : List Byte) :
    n.discardReason p win bytes = m.discardReason p win bytes := by
  unfold Mach.discardReason
  dsimp only
  rw [h.portImg, h.seq, h.copies, h.fld, m.port_of_ports p h.ports]

/-! ### What becomes of a copy (R172) -/

/-- The first accepted copy of a window: counted, measured against its window, and kept by the node. -/
def Mach.taken (m : Mach) (p : Nat) (link : Link) (rx : RxFrame) (win : Nat) (err : Int) : Mach :=
  let h := readHusk rx.bytes
  (((m.wrapPh (F.TTP_RX_FRAMES_COUNT p)).noteError (nodeIndex h.source) err).updNode h.source (fun n => { n with
    seq := some h.seq,
    copies := n.copies ++ [⟨win, h.type, h.seq, rx.last, decide (link = .east), framePayload rx.bytes⟩] })).wakeForFrame

theorem Mach.forwards_of_running {m : Mach} {p : Nat} (h : (m.port p).running = true) : m.forwards p = false := by
  unfold Mach.forwards
  rw [h]
  simp

section
variable {m : Mach} {p : Nat} {rx : RxFrame}

theorem Mach.receive_ownReturn (hrun : (m.port p).running = true) (h : ownReturn p rx.bytes = true) (link : Link) (types : List Nat) :
    m.receive p link rx types = (m, none) := by
  unfold Mach.receive
  dsimp only
  rw [if_neg (by rw [Mach.forwards_of_running hrun]; exact Bool.false_ne_true), if_pos (by simp [h])]

theorem Mach.receive_badIndex (hrun : (m.port p).running = true) (hown : ownReturn p rx.bytes = false) (h : badIndex rx.bytes = true)
    (link : Link) (types : List Nat) : m.receive p link rx types = (m.discard p link 2 rx.bytes, none) := by
  unfold Mach.receive
  dsimp only
  rw [if_neg (by rw [Mach.forwards_of_running hrun]; exact Bool.false_ne_true), if_neg (by simp [hrun, hown]), if_pos h]

section
variable (hg : m.Guarded p rx) (link : Link)
include hg

theorem Mach.receive_cut (hcut : (m.guardian p rx).1 ≠ 0) (types : List Nat) : m.receive p link rx types =
    ((m.gauged p link rx).cut p rx (m.guardian p rx).1 (m.guardian p rx).2.1 (m.guardian p rx).2.2, none) := by
  obtain ⟨hrun, hown, hbad⟩ := hg
  unfold Mach.receive
  dsimp only
  rw [if_neg (by rw [Mach.forwards_of_running hrun]; exact Bool.false_ne_true), if_neg (by simp [hrun, hown]), if_neg (by simp [hbad]),
    if_pos hcut]
  rfl

variable (hok : (m.guardian p rx).1 = 0) (hfree : m.Unbarred p rx)
include hok hfree

theorem Mach.receive_discard {r : Nat} (hr : m.discardReason p (m.guardian p rx).2.1 rx.bytes = some r) (types : List Nat) :
    m.receive p link rx types = ((m.gauged p link rx).discard p link r rx.bytes, none) := by
  obtain ⟨hrun, hown, hbad⟩ := hg
  have hgauge := m.gauged_gauges p link rx
  unfold Mach.receive
  dsimp only
  rw [if_neg (by rw [Mach.forwards_of_running hrun]; exact Bool.false_ne_true), if_neg (by simp [hrun, hown]), if_neg (by simp [hbad]),
    if_neg (not_not_intro hok), ← Mach.gauged, if_neg, hgauge.discardReason, hr]
  rw [hgauge.quarantined, hgauge.quarWin]
  intro hc
  simp at hc
  exact hc.2 (hfree hc.1.2)

end

/-- The first copy of a window that the guardian and the checks accept answers its Husk and its payload. -/
theorem Mach.receive_accepts {type : Nat} (h : m.Accepts p rx type) (link : Link) : m.receive p link rx [type] =
    ((m.gauged p link rx).taken p link rx (m.guardian p rx).2.1 (m.guardian p rx).2.2, some (readHusk rx.bytes, framePayload rx.bytes)) := by
  obtain ⟨⟨hrun, hown, hbad⟩, hok, hfree, hpass, htype, hfirst⟩ := h
  have hgauge := m.gauged_gauges p link rx
  have hnone : (m.node (readHusk rx.bytes).source).copies.filter (fun c => decide (c.win = (m.guardian p rx).2.1)) = [] := by
    simpa [List.filter_eq_nil_iff] using hfirst
  unfold Mach.receive
  dsimp only
  rw [if_neg (by rw [Mach.forwards_of_running hrun]; exact Bool.false_ne_true), if_neg (by simp [hrun, hown]), if_neg (by simp [hbad]),
    if_neg (not_not_intro hok), ← Mach.gauged, if_neg, hgauge.discardReason, hpass]
  · dsimp only
    rw [if_neg (by simp [htype]), hgauge.copies, hnone]
    rfl
  · rw [hgauge.quarantined, hgauge.quarWin]
    intro hc
    simp at hc
    exact hc.2 (hfree hc.1.2)

end

end Sys2Proof.Machine


/-! # What an accepted, a discarded and a cut copy leave behind (R172, R207, R220 to R224) -/
namespace Sys2Proof.Machine

/-! ### Accepted copies -/

section
variable (m : Mach)

theorem Mach.HubOnly.wrapPh (f : Field) : m.HubOnly (m.wrapPh f) := withHub m _

theorem Mach.wrapPh_rest (f : Field) :
    (m.wrapPh f).ph.ports = m.ph.ports ∧ (m.wrapPh f).ph.nodes = m.ph.nodes ∧ (m.wrapPh f).out = m.out := ⟨rfl, rfl, rfl⟩

theorem Mach.HubOnly.noteError (idx : Nat) (err : Int) : m.HubOnly (m.noteError idx err) := by
  obtain ⟨r, w, h, -⟩ := m.noteError_eq idx err
  rw [h]
  exact withHub m _

theorem Mach.HubOnly.wakeForFrame : m.HubOnly m.wakeForFrame := by
  obtain ⟨c, h⟩ := m.wakeForFrame_eq
  rw [h]
  exact withClk m c

/-- The ports, the nodes and what was sent do not see a start error. -/
theorem Mach.noteError_ports_nodes_out (idx : Nat) (err : Int) : (m.noteError idx err).ph.ports = m.ph.ports ∧
    (m.noteError idx err).ph.nodes = m.ph.nodes ∧ (m.noteError idx err).out = m.out := by
  obtain ⟨r, w, h, -⟩ := m.noteError_eq idx err
  rw [h]
  exact ⟨rfl, rfl, rfl⟩

/-- Neither the Port Hub nor what was sent sees the work of a slot. -/
theorem Mach.wakeForFrame_ph_out : m.wakeForFrame.ph = m.ph ∧ m.wakeForFrame.out = m.out := by
  obtain ⟨c, h⟩ := m.wakeForFrame_eq
  rw [h]
  exact ⟨rfl, rfl⟩

variable (p : Nat) (link : Link) (rx : RxFrame) (win : Nat) (err : Int)

/-- What an accepted copy counts and measures, before the node moves. -/
def Mach.counted (m : Mach) (p idx : Nat) (err : Int) : Mach := (m.wrapPh (F.TTP_RX_FRAMES_COUNT p)).noteError idx err

theorem Mach.counted_spec (idx : Nat) : m.HubOnly (m.counted p idx err) ∧ (m.counted p idx err).ph.ports = m.ph.ports ∧
    (m.counted p idx err).ph.nodes = m.ph.nodes ∧ (m.counted p idx err).out = m.out := by
  unfold Mach.counted
  have hhub := Mach.HubOnly.wrapPh m (F.TTP_RX_FRAMES_COUNT p)
  obtain ⟨hports, hnodes, hout⟩ := m.wrapPh_rest (F.TTP_RX_FRAMES_COUNT p)
  generalize m.wrapPh (F.TTP_RX_FRAMES_COUNT p) = n at *
  obtain ⟨gports, gnodes, gout⟩ := n.noteError_ports_nodes_out idx err
  exact ⟨hhub.trans (.noteError _ _ _), gports.trans hports, gnodes.trans hnodes, gout.trans hout⟩

/-- The node of an accepted copy as it leaves it. -/
def Node.keep (n : Node) (link : Link) (rx : RxFrame) (win : Nat) : Node :=
  let h := readHusk rx.bytes
  { n with
    seq := some h.seq,
    copies := n.copies ++ [⟨win, h.type, h.seq, rx.last, decide (link = .east), framePayload rx.bytes⟩] }

theorem Mach.taken_eq : m.taken p link rx win err =
    ((m.counted p (nodeIndex (readHusk rx.bytes).source) err).updNode (readHusk rx.bytes).source (·.keep link rx win)).wakeForFrame := rfl

theorem Mach.HubOnly.taken : m.HubOnly (m.taken p link rx win err) := by
  obtain ⟨hhub, -, -, -⟩ := m.counted_spec p err (nodeIndex (readHusk rx.bytes).source)
  rw [Mach.taken_eq]
  exact (hhub.trans (.updNode _ _ _)).trans (.wakeForFrame _)

theorem Mach.out_taken : (m.taken p link rx win err).out = m.out := by
  obtain ⟨-, -, -, hout⟩ := m.counted_spec p err (nodeIndex (readHusk rx.bytes).source)
  rw [Mach.taken_eq, (Mach.wakeForFrame_ph_out _).2, ← hout]
  rfl

theorem Mach.ports_taken : (m.taken p link rx win err).ph.ports = m.ph.ports := by
  obtain ⟨-, hports, -, -⟩ := m.counted_spec p err (nodeIndex (readHusk rx.bytes).source)
  rw [Mach.taken_eq, (Mach.wakeForFrame_ph_out _).1, Mach.ports_updNode, hports]

/-- The node's SEQUENCE is the copy's, and the copy is kept behind those before. -/
theorem Mach.node_taken : (m.taken p link rx win err).node (readHusk rx.bytes).source =
    (m.node (readHusk rx.bytes).source).keep link rx win := by
  obtain ⟨-, -, hnodes, -⟩ := m.counted_spec p err (nodeIndex (readHusk rx.bytes).source)
  rw [Mach.taken_eq, Mach.node_of_nodes _ _ (congrArg Ph.nodes (Mach.wakeForFrame_ph_out _).1), Mach.node_updNode, if_pos rfl,
    Mach.node_of_nodes _ _ hnodes]

end

/-- JOIN_OPEN is no counter of copies. -/
theorem Mach.joinOpen_taken (m : Mach) (p : Fin 16) (link : Link) (rx : RxFrame) (win : Nat) (err : Int) :
    (m.taken p.val link rx win err).ph.regs.fld (F.TTP_PORT_CFG_JOIN_OPEN p.val) = m.ph.regs.fld (F.TTP_PORT_CFG_JOIN_OPEN p.val) := by
  have happart : ∀ p : Fin 16, (F.TTP_PORT_CFG_JOIN_OPEN p.val).addr ≠ (F.TTP_RX_FRAMES_COUNT p.val).addr ∧
      (F.TTP_PORT_CFG_JOIN_OPEN p.val).addr ≠ F.STG_CUTS_OFF_EDGE.addr := by decide
  obtain ⟨hcount, hedge⟩ := happart p
  have hwrap : (m.wrapPh (F.TTP_RX_FRAMES_COUNT p.val)).ph.regs.fld (F.TTP_PORT_CFG_JOIN_OPEN p.val) =
      m.ph.regs.fld (F.TTP_PORT_CFG_JOIN_OPEN p.val) := Regs.fld_put_ne _ _ hcount
  rw [Mach.taken_eq, (Mach.wakeForFrame_ph_out _).1, Mach.regs_updNode, ← hwrap, Mach.counted]
  generalize m.wrapPh (F.TTP_RX_FRAMES_COUNT p.val) = n
  obtain ⟨r, w, h, hr⟩ := n.noteError_eq (nodeIndex (readHusk rx.bytes).source) err
  rw [h]
  obtain rfl | rfl := hr
  · rfl
  · exact Regs.fld_inc_ne _ hedge

theorem Mach.HubOnly.joinResult {m n : Mach} (h : m.HubOnly n) {p : Nat}
    (hjoin : n.ph.regs.fld (F.TTP_PORT_CFG_JOIN_OPEN p) = m.ph.regs.fld (F.TTP_PORT_CFG_JOIN_OPEN p)) (idx : Nat) (pay : List Byte) :
    n.joinResult p idx pay = m.joinResult p idx pay := by
  unfold Mach.joinResult
  dsimp only
  rw [hjoin, h.portImg, h.comm]

/-! ### Discarded copies (R172, R207) -/

theorem Mach.discardReason_lt {m : Mach} {p win : Nat} {bytes : List Byte} {r : Nat} (h : m.discardReason p win bytes = some r) : r < 16 := by
  unfold Mach.discardReason at h
  dsimp only at h
  split_ifs at h <;> cases h <;> decide

/-- Beside registers of the Port Hub, the clocks, the MSI-X structures and what was sent, all of the module is as before. -/
structure Mach.HubRegs (m n : Mach) : Prop extends Mach.HubOnly m n where
  nodes : n.ph.nodes = m.ph.nodes
  ports : n.ph.ports = m.ph.ports

namespace Mach.HubRegs

theorem trans {m n o : Mach} (h : m.HubRegs n) (g : n.HubRegs o) : m.HubRegs o :=
  ⟨h.toHubOnly.trans g.toHubOnly, g.nodes.trans h.nodes, g.ports.trans h.ports⟩

theorem putPh (m : Mach) (f : Field) (v : Nat) : m.HubRegs (m.putPh f v) := ⟨.putPh m f v, rfl, rfl⟩

theorem incPh (m : Mach) (f : Field) : m.HubRegs (m.incPh f) := ⟨.incPh m f, rfl, rfl⟩

theorem raisePh (m : Mach) (b : Blk) (i : Nat) : m.HubRegs (m.raisePh b i) :=
  ⟨.raisePh m b i, by rw [Mach.raisePh_ph], by rw [Mach.raisePh_ph]⟩

end Mach.HubRegs

theorem Regs.namesDiscard_of_puts (r : Regs) (p : Nat) {reason : Nat} (hr : reason < 16) (type source : Nat) :
    (((r.put (F.TTP_LAST_DISCARD_REASON p) reason).put (F.TTP_LAST_DISCARD_TYPE p) type).put (F.TTP_LAST_DISCARD_SOURCE p) source).fld
      (F.TTP_LAST_DISCARD_REASON p) = reason := by
  rw [Regs.fld_put_beside (f := F.TTP_LAST_DISCARD_REASON p) (g := F.TTP_LAST_DISCARD_SOURCE p) _ _ rfl (show 10 < 32 by decide)
      (show 0 ≤ 10 by decide) (show 28 ≤ 31 by decide) (.inl (show 10 < 28 by decide)),
    Regs.fld_put_beside (f := F.TTP_LAST_DISCARD_REASON p) (g := F.TTP_LAST_DISCARD_TYPE p) _ _ rfl (show 27 < 32 by decide)
      (show 24 ≤ 27 by decide) (show 28 ≤ 31 by decide) (.inl (show 27 < 28 by decide)),
    Regs.fld_put_same _ _ _ (show 31 < 32 by decide) (show 28 ≤ 31 by decide)]
  exact Nat.mod_eq_of_lt hr

theorem Mach.regs_putPh (m : Mach) (f : Field) (v : Nat) : (m.putPh f v).ph.regs = m.ph.regs.put f v := rfl

theorem Mach.regs_incPh (m : Mach) (f : Field) : (m.incPh f).ph.regs = m.ph.regs.inc f := rfl

/-- The three fields that name the last discarded copy. -/
def Mach.named (m : Mach) (p r : Nat) (h : Husk) : Mach :=
  ((m.putPh (F.TTP_LAST_DISCARD_REASON p) r).putPh (F.TTP_LAST_DISCARD_TYPE p) h.type).putPh (F.TTP_LAST_DISCARD_SOURCE p) h.source

theorem Mach.HubRegs.named (m : Mach) (p r : Nat) (h : Husk) : m.HubRegs (m.named p r h) := by
  unfold Mach.named
  exact ((putPh _ _ _).trans (putPh _ _ _)).trans (putPh _ _ _)

theorem Mach.fld_named (m : Mach) (p : Nat) {r : Nat} (hr : r < 16) (h : Husk) :
    (m.named p r h).ph.regs.fld (F.TTP_LAST_DISCARD_REASON p) = r := by
  unfold Mach.named
  rw [Mach.regs_putPh, Mach.regs_putPh, Mach.regs_putPh]
  exact Regs.namesDiscard_of_puts _ p hr _ _

/-- A discarded copy is counted with its reason: registers of the Port Hub alone change. -/
theorem Mach.discard_spec (m : Mach) (p : Fin 16) (link : Link) {r : Nat} (hr : r < 16) (bytes : List Byte) :
    m.HubRegs (m.discard p.val link r bytes) ∧
    (m.discard p.val link r bytes).ph.regs.fld (F.TTP_LAST_DISCARD_REASON p.val) = r := by
  have hint : (F.TTP_LAST_DISCARD_REASON p.val).addr ≠ blkBase (.ttp (Fin.ofNat 16 p.val)) + 0x10 := by
    rw [Fin.ofNat_val_eq_self]
    exact Nat.ne_of_gt (Nat.add_lt_add_left (show 0x10 < 0x94 by decide) (ttpBase p.val))
  have hraised : ∃ f, m.discard p.val link r bytes =
      ((m.incPh f).named p.val r (readHusk bytes)).raisePh (.ttp (Fin.ofNat 16 p.val)) I.TTP_DISCARD := ⟨_, rfl⟩
  obtain ⟨f, hf⟩ := hraised
  have hreason := (m.incPh f).fld_named p.val hr (readHusk bytes)
  have honly := (Mach.HubRegs.incPh m f).trans (.named _ p.val r (readHusk bytes))
  rw [hf]
  generalize (m.incPh f).named p.val r (readHusk bytes) = n at *
  refine ⟨honly.trans (.raisePh _ _ _), ?_⟩
  rw [Mach.raisePh_ph, Regs.fld_setBit_ne _ hint]
  exact hreason

/-! ### Cut copies (R220, R221) -/

theorem ite_lt {c : Prop} [Decidable c] {a b n : Nat} (ha : a < n) (hb : b < n) : (if c then a else b) < n := by
  split
  · exact ha
  · exact hb

theorem Mach.judge_lt (m : Mach) (p : Nat) (rx : RxFrame) : (m.judge p rx).1 < 16 := by
  unfold Mach.judge
  dsimp only
  split
  · exact ite_lt (show 3 < 16 by decide) (show 0 < 16 by decide)
  · split
    · exact show 4 < 16 by decide
    · split
      · exact ite_lt (show 1 < 16 by decide) (show 2 < 16 by decide)
      · exact show 4 < 16 by decide

/-- The reasons of a cut fit their field. -/
theorem Mach.guardian_lt (m : Mach) (p : Nat) (rx : RxFrame) : (m.guardian p rx).1 < 16 := by
  unfold Mach.guardian
  split
  · exact ite_lt (show 0 < 16 by decide) (show 5 < 16 by decide)
  · exact m.judge_lt p rx

/-- STG.LAST_CUT as a cut shows it. -/
def Mach.cutShown (m : Mach) (p : Nat) (rx : RxFrame) (reason : Nat) (err : Int) : Mach :=
  (((((m.incPh F.STG_CUTS_CUTS).putPh F.STG_LAST_CUT_REASON reason).putPh F.STG_LAST_CUT_PORT p).putPh
    F.STG_LAST_CUT_UNATTRIBUTED (b2n (!frameWhole rx.bytes))).putPh F.STG_LAST_CUT_NODE
      (if frameWhole rx.bytes then (readHusk rx.bytes).source else 0)).putPh F.STG_LAST_CUT_ERR_ERR_NS (wrapSigned 32 err)

section
variable (m : Mach) (p : Nat) (rx : RxFrame) (reason : Nat) (err : Int)

theorem Mach.HubRegs.cutShown : m.HubRegs (m.cutShown p rx reason err) := by
  unfold Mach.cutShown
  exact (((((incPh _ _).trans (putPh _ _ _)).trans (putPh _ _ _)).trans (putPh _ _ _)).trans (putPh _ _ _)).trans (putPh _ _ _)

theorem readHusk_source_lt (bytes : List Byte) : (readHusk bytes).source < 2048 := Nat.mod_lt _ (show 0 < 2048 by decide)

/-- What STG.LAST_CUT names of a cut copy. -/
def Regs.NamesCut (r : Regs) (rx : RxFrame) (reason : Nat) : Prop :=
  r.fld F.STG_LAST_CUT_REASON = reason ∧ r.fld F.STG_LAST_CUT_UNATTRIBUTED = b2n (!frameWhole rx.bytes) ∧
    r.fld F.STG_LAST_CUT_NODE = if frameWhole rx.bytes then (readHusk rx.bytes).source else 0

/-- The registers that name a cut, as `cut` writes them. -/
def Regs.putCut (r : Regs) (reason port unknown node err : Nat) : Regs :=
  ((((r.put F.STG_LAST_CUT_REASON reason).put F.STG_LAST_CUT_PORT port).put F.STG_LAST_CUT_UNATTRIBUTED unknown).put
    F.STG_LAST_CUT_NODE node).put F.STG_LAST_CUT_ERR_ERR_NS err

theorem Regs.putCut_reason (r : Regs) {reason : Nat} (port unknown node err : Nat) (hr : reason < 16) :
    (r.putCut reason port unknown node err).fld F.STG_LAST_CUT_REASON = reason := by
  unfold Regs.putCut
  rw [Regs.fld_put_apart (f := F.STG_LAST_CUT_REASON) (g := F.STG_LAST_CUT_ERR_ERR_NS) _ _ rfl rfl rfl,
    Regs.fld_put_apart (f := F.STG_LAST_CUT_REASON) (g := F.STG_LAST_CUT_NODE) _ _ rfl rfl rfl,
    Regs.fld_put_apart (f := F.STG_LAST_CUT_REASON) (g := F.STG_LAST_CUT_UNATTRIBUTED) _ _ rfl rfl rfl,
    Regs.fld_put_apart (f := F.STG_LAST_CUT_REASON) (g := F.STG_LAST_CUT_PORT) _ _ rfl rfl rfl,
    Regs.fld_put_same _ F.STG_LAST_CUT_REASON _ (by decide) (by decide)]
  exact Nat.mod_eq_of_lt hr

theorem Regs.putCut_unattributed (r : Regs) (reason port : Nat) {unknown : Nat} (node err : Nat) (hu : unknown < 2) :
    (r.putCut reason port unknown node err).fld F.STG_LAST_CUT_UNATTRIBUTED = unknown := by
  unfold Regs.putCut
  rw [Regs.fld_put_apart (f := F.STG_LAST_CUT_UNATTRIBUTED) (g := F.STG_LAST_CUT_ERR_ERR_NS) _ _ rfl rfl rfl,
    Regs.fld_put_apart (f := F.STG_LAST_CUT_UNATTRIBUTED) (g := F.STG_LAST_CUT_NODE) _ _ rfl rfl rfl,
    Regs.fld_put_same _ F.STG_LAST_CUT_UNATTRIBUTED _ (by decide) (by decide)]
  exact Nat.mod_eq_of_lt hu

theorem Regs.putCut_node (r : Regs) (reason port unknown : Nat) {node : Nat} (err : Nat) (hn : node < 2048) :
    (r.putCut reason port unknown node err).fld F.STG_LAST_CUT_NODE = node := by
  unfold Regs.putCut
  rw [Regs.fld_put_apart (f := F.STG_LAST_CUT_NODE) (g := F.STG_LAST_CUT_ERR_ERR_NS) _ _ rfl rfl rfl,
    Regs.fld_put_same _ F.STG_LAST_CUT_NODE _ (by decide) (by decide)]
  exact Nat.mod_eq_of_lt hn

theorem Mach.cutShown_names (hr : reason < 16) : (m.cutShown p rx reason err).ph.regs.NamesCut rx reason := by
  have hnode : (if frameWhole rx.bytes then (readHusk rx.bytes).source else 0) < 2048 := ite_lt (readHusk_source_lt _) (by decide)
  have hbit : b2n (!frameWhole rx.bytes) < 2 := by cases frameWhole rx.bytes <;> decide
  have hregs : (m.cutShown p rx reason err).ph.regs = (m.ph.regs.inc F.STG_CUTS_CUTS).putCut reason p (b2n (!frameWhole rx.bytes))
      (if frameWhole rx.bytes then (readHusk rx.bytes).source else 0) (wrapSigned 32 err) := by
    unfold Mach.cutShown Regs.putCut
    rw [Mach.regs_putPh, Mach.regs_putPh, Mach.regs_putPh, Mach.regs_putPh, Mach.regs_putPh, Mach.regs_incPh]
  rw [hregs]
  exact ⟨Regs.putCut_reason _ _ _ _ _ hr, Regs.putCut_unattributed _ _ _ _ _ hbit, Regs.putCut_node _ _ _ _ _ hnode⟩

end

end Sys2Proof.Machine


/-! # Copies that the guardian cuts (R220 to R224) -/
namespace Sys2Proof.Machine

/-- A cut has been charged: beside the Port Hub the event staging alone has changed, in the Port Hub no register but of `as`, and every node keeps
its SEQUENCE and its copies. -/
structure Mach.Charged (as : List Nat) (m n : Mach) : Prop extends Mach.HubTells m n where
  regs : m.ph.regs.Keeps n.ph.regs as
  seq : ∀ b, (n.node b).seq = (m.node b).seq
  copies : ∀ b, (n.node b).copies = (m.node b).copies

namespace Mach.Charged

variable {as : List Nat} {m n o : Mach}

theorem trans (h : m.Charged as n) (g : n.Charged as o) : m.Charged as o :=
  ⟨h.toHubTells.trans g.toHubTells, h.regs.trans g.regs, fun b => (g.seq b).trans (h.seq b), fun b => (g.copies b).trans (h.copies b)⟩

theorem of_nodes (h : m.HubTells n) (hr : m.ph.regs.Keeps n.ph.regs as) (hn : n.ph.nodes = m.ph.nodes) : m.Charged as n :=
  ⟨h, hr, fun b => by rw [m.node_of_nodes b hn], fun b => by rw [m.node_of_nodes b hn]⟩

theorem refl (as : List Nat) (m : Mach) : m.Charged as m := of_nodes (HubOnly.refl m).tells (.refl _ _) rfl

theorem ite {c : Prop} [Decidable c] (g : m.Charged as n) (h : m.Charged as o) : m.Charged as (if c then n else o) := by
  split
  · exact g
  · exact h

theorem updNode (m : Mach) (a : Nat) {f : Node → Node} (hseq : ∀ n, (f n).seq = n.seq) (hcopies : ∀ n, (f n).copies = n.copies) :
    m.Charged as (m.updNode a f) := by
  refine ⟨(HubOnly.updNode m a f).tells, by rw [Mach.regs_updNode]; exact .refl _ _, fun b => ?_, fun b => ?_⟩ <;> rw [Mach.node_updNode]
  · split
    next hb => rw [hseq, hb]
    next => rfl
  · split
    next hb => rw [hcopies, hb]
    next => rfl

theorem queueOwn (m : Mach) (p cls dest type : Nat) (pay : List Byte) : m.Charged as (m.queueOwn p cls dest type pay) :=
  of_nodes (HubOnly.queueOwn m p cls dest type pay).tells (.refl _ _) rfl

theorem record (m : Mach) (code p0 p1 p2 p3 : Nat) : m.Charged as (m.record code p0 p1 p2 p3) :=
  of_nodes (.record m code p0 p1 p2 p3) (by rw [Mach.record_ph]; exact .refl _ _) (by rw [Mach.record_ph])

theorem raisePh (m : Mach) {b : Blk} (hb : blkBase b + 0x10 ∈ as) (i : Nat) : m.Charged as (m.raisePh b i) :=
  of_nodes (HubOnly.raisePh m b i).tells (by rw [Mach.raisePh_ph]; exact Regs.keeps_setBit (.refl _ _) hb) (by rw [Mach.raisePh_ph])

theorem portRegs (m : Mach) {p : Nat} (hp : mirrorRegs p ⊆ as) : m.Charged as (m.portRegs p) :=
  of_nodes (HubOnly.portRegs m p).tells ((m.keeps_portRegs p).mono hp) (Mach.nodes_portRegs m p)

end Mach.Charged

/-- The registers of the Port Hub that charging a cut to node `a` can change. -/
def chargeRegs (a : Nat) : List Nat := (blkBase .stg + 0x10) :: mirrorRegs (nodePort a)

theorem Mach.Charged.quarantine (m : Mach) (a start : Nat) : m.Charged (chargeRegs a) (m.quarantine a start) := by
  unfold Mach.quarantine
  dsimp only
  refine trans ?_ (portRegs _ (List.subset_cons_self _ _))
  refine trans ?_ (raisePh _ List.mem_cons_self _)
  refine trans ?_ (record _ _ _ _ _ _)
  refine trans ?_ (queueOwn _ _ _ _ _ _)
  refine updNode _ _ (fun n => ?_) fun n => ?_ <;> rfl

theorem Mach.Charged.chargeCut (m : Mach) (p a start reason : Nat) (join : Bool) :
    m.Charged (chargeRegs a) (m.chargeCut p a start reason join) := by
  unfold Mach.chargeCut
  dsimp only
  refine ite (refl _ m) (trans ?_ (ite (quarantine _ _ _) (refl _ _)))
  refine trans ?_ (raisePh _ List.mem_cons_self _)
  refine updNode _ _ (fun n => ?_) fun n => ?_ <;> rfl

/-- STG.LAST_CUT is none of them. -/
theorem lastCut_notMem_chargeRegs (a : Nat) : 0x40020094 ∉ chargeRegs a := by
  have hall : ∀ q : Fin 16, 0x40020094 ∉ (blkBase .stg + 0x10) :: mirrorRegs q.val := by decide
  exact hall ⟨nodePort a, Nat.mod_lt _ (show 0 < 16 by decide)⟩

theorem Regs.NamesCut.of_keeps {r r' : Regs} {as : List Nat} {rx : RxFrame} {reason : Nat} (h : r.NamesCut rx reason) (hk : r.Keeps r' as)
    (has : 0x40020094 ∉ as) : r'.NamesCut rx reason := by
  obtain ⟨hreason, hunknown, hnode⟩ := h
  exact ⟨(hk.fld _ has).trans hreason, (hk.fld _ has).trans hunknown, (hk.fld _ has).trans hnode⟩

section
variable (m : Mach) (p : Nat) {rx : RxFrame} {reason : Nat} (hr : reason < 16) (start : Nat) (err : Int)
include hr

/-- A copy that was not received whole is charged to no node. -/
theorem Mach.cut_broken (h : frameWhole rx.bytes = false) : m.HubRegs (m.cut p rx reason start err) ∧
    (m.cut p rx reason start err).ph.regs.NamesCut rx reason := by
  have heq : m.cut p rx reason start err = ((m.cutShown p rx reason err).incPh F.STG_UNATTRIBUTED_COUNT).raisePh .stg I.STG_UNATTRIBUTED :=
    if_pos (by simp [h])
  have hnames := m.cutShown_names p rx reason err hr
  have honly := Mach.HubRegs.cutShown m p rx reason err
  rw [heq]
  generalize m.cutShown p rx reason err = n at *
  refine ⟨honly.trans ((Mach.HubRegs.incPh _ _).trans (.raisePh _ _ _)), hnames.of_keeps (as := [0x40020010, 0x4002009C]) ?_ (by decide)⟩
  rw [Mach.raisePh_ph, Mach.regs_incPh]
  exact Regs.keeps_setBit (Regs.keeps_inc (.refl _ _) (by decide)) (by decide)

/-- A whole copy is charged to its SOURCE. -/
theorem Mach.cut_whole (h : frameWhole rx.bytes = true) : m.HubTells (m.cut p rx reason start err) ∧
    (∀ b, ((m.cut p rx reason start err).node b).seq = (m.node b).seq) ∧
    (∀ b, ((m.cut p rx reason start err).node b).copies = (m.node b).copies) ∧
    (m.cut p rx reason start err).ph.regs.NamesCut rx reason := by
  have heq : ∃ join, m.cut p rx reason start err = (m.cutShown p rx reason err).chargeCut p (readHusk rx.bytes).source start reason join :=
    ⟨_, if_neg (by simp [h])⟩
  obtain ⟨join, heq⟩ := heq
  have hnames := m.cutShown_names p rx reason err hr
  have honly := Mach.HubRegs.cutShown m p rx reason err
  rw [heq]
  generalize m.cutShown p rx reason err = n at *
  have hcharged := Mach.Charged.chargeCut n p (readHusk rx.bytes).source start reason join
  exact ⟨honly.tells.trans hcharged.toHubTells, fun b => by rw [hcharged.seq, m.node_of_nodes b honly.nodes],
    fun b => by rw [hcharged.copies, m.node_of_nodes b honly.nodes], hnames.of_keeps hcharged.regs (lastCut_notMem_chargeRegs _)⟩

end

end Sys2Proof.Machine


/-! # Frames of nodes: what an accepted copy does, and one that is not accepted (R172, R186 to R188, R198, R200, R214, R220, R235) -/
namespace Sys2Proof.Machine

/-! ### The events of a node (R188, R389) -/

/-- A lane that has lost records, and has no room to tell of it. -/
def Lane.Stuck (x : Lane) : Prop := x.evLost ≠ 0 ∧ ¬x.events.length < stagingMax

section
variable (x : Lane) (now : Nat) (e : Event)

theorem Lane.keeps_addEventAt : x.Keeps (x.addEventAt now e) eventRegs := by
  unfold Lane.addEventAt
  refine .trans ?_ (Lane.keeps_stage _ _)
  split
  · exact (show x.Keeps { x with evLost := 0 } eventRegs from ⟨rfl, .refl _ _⟩).trans (Lane.keeps_stage _ _)
  · exact .refl _ _

theorem Lane.events_addEventAt {d : Event} (h : d ∈ x.events) : d ∈ (x.addEventAt now e).events := by
  unfold Lane.addEventAt
  refine Lane.events_stage _ _ _ ?_
  split
  · exact Lane.events_stage _ _ _ h
  · exact h

/-- A record is staged, or the lane has no room left. -/
theorem Lane.stage_cases : ({ e with delayed := !x.hostLink, fed := x.fedTime } : Event) ∈ (x.stage e).events ∨ (x.stage e).Stuck := by
  unfold Lane.stage
  split
  next => exact .inl (by simp)
  next hfull => exact .inr ⟨Nat.succ_ne_zero _, hfull⟩

theorem Lane.Stuck.addEventAt {x : Lane} (h : x.Stuck) : (x.addEventAt now e).Stuck := by
  obtain ⟨hlost, hfull⟩ := h
  unfold Lane.addEventAt
  rw [if_neg fun hc => hfull hc.2]
  unfold Lane.stage
  rw [if_neg hfull]
  exact ⟨Nat.succ_ne_zero _, hfull⟩

end

/-- A lane that stages records one after the other. -/
def Lane.addEvents (now : Nat) (x : Lane) (es : List Event) : Lane := es.foldl (fun y e => y.addEventAt now e) x

section
variable (now : Nat) (es : List Event)

theorem Lane.keeps_addEvents (x : Lane) : x.Keeps (x.addEvents now es) eventRegs :=
  List.foldlRecOn es (motive := fun y : Lane => x.Keeps y eventRegs) _ (.refl x _) fun y hy e _ => hy.trans (y.keeps_addEventAt now e)

theorem Lane.events_addEvents {x : Lane} {d : Event} (h : d ∈ x.events) : d ∈ (x.addEvents now es).events :=
  List.foldlRecOn es (motive := fun y : Lane => d ∈ y.events) _ h fun y hy e _ => y.events_addEventAt now e hy

theorem Lane.Stuck.addEvents {x : Lane} (h : x.Stuck) : (x.addEvents now es).Stuck :=
  List.foldlRecOn es (motive := Lane.Stuck) _ h fun _ hy e _ => hy.addEventAt now e

end

/-- When no record is lost at the end, each of them was staged. -/
theorem Lane.mem_addEvents (now : Nat) (es : List Event) (x : Lane) (h : (x.addEvents now es).evLost = 0) {e : Event} (he : e ∈ es) :
    ∃ d ∈ (x.addEvents now es).events, d.code = e.code ∧ d.time = e.time ∧ d.p0 = e.p0 ∧ d.p1 = e.p1 := by
  induction es generalizing x with
  | nil => exact absurd he List.not_mem_nil
  | cons e' es ih =>
    obtain rfl | he := List.mem_cons.mp he
    · obtain hstaged | hstuck := Lane.stage_cases (if x.evLost ≠ 0 ∧ x.events.length < stagingMax then
        ({ x with evLost := 0 } : Lane).stage ⟨0x7002, now, 1, x.evLost, x.regs.fld F.VOT_LANE_LANE, 0, false, false⟩ else x) e
      · exact ⟨_, Lane.events_addEvents now es hstaged, rfl, rfl, rfl, rfl⟩
      · exact absurd h (Lane.Stuck.addEvents now es hstuck).1
    · exact ih (x.addEventAt now e') h he

/-- A step in each lane that is not excluded is a change of every lane. -/
theorem Mach.foldl_included (m : Mach) (g : Lane → Lane) :
    laneIds.foldl (fun (n : Mach) l => if true && decide ((n.lane l).role ≠ .excluded) then n.updLane l g else n) m =
      m.mapLanes (fun x => if x.role ≠ .excluded then g x else x) := by
  have hstep : (fun (n : Mach) l => if true && decide ((n.lane l).role ≠ .excluded) then n.updLane l g else n) =
      fun (n : Mach) l => n.updLane l (fun x => if x.role ≠ .excluded then g x else x) := by
    funext n l
    by_cases h : (n.lane l).role = .excluded
    · simp only [h, Mach.updLane]
      cases l <;> rfl
    · simp [h, Mach.updLane]
  rw [hstep]
  rfl

/-- The records that a lane makes of a node's events. -/
def nodeRecords (a cluster : Nat) (pay : List Byte) : List Event :=
  (eventEntries (pay.length / 16) pay).map fun e => ⟨0x8000, e.2.2.1, a * 2 ^ 16 + e.1, e.2.1, e.2.2.2, cluster, false, false⟩

theorem Mach.nodeEvents_eq (m : Mach) (a : Nat) (pay : List Byte) : m.nodeEvents (fun _ => true) a pay =
    m.mapLanes (fun x => if x.role ≠ .excluded then x.addEvents m.nowNs (nodeRecords a (m.sys.cluster % 2 ^ 32) pay) else x) := by
  unfold Lane.addEvents nodeRecords
  simp only [List.foldl_map]
  exact m.foldl_included _

theorem Mach.HubTells.nodeEvents (m : Mach) (a : Nat) (pay : List Byte) : m.HubTells (m.nodeEvents (fun _ => true) a pay) := by
  rw [Mach.nodeEvents_eq]
  refine ⟨fun l => ?_, rfl, rfl, rfl⟩
  rw [Mach.lane_mapLanes]
  split
  · exact Lane.keeps_addEvents _ _ _
  · exact .refl _ _

theorem Mach.nodeEvents_ph (m : Mach) (a : Nat) (pay : List Byte) : (m.nodeEvents (fun _ => true) a pay).ph = m.ph := by
  rw [Mach.nodeEvents_eq]
  rfl

/-- Each event of the payload stands in the records of every lane that lost none. -/
theorem Mach.mem_nodeEvents (m : Mach) (a : Nat) (pay : List Byte) {e : Nat × Nat × Nat × Nat} (he : e ∈ eventEntries (pay.length / 16) pay)
    {l : LaneId} (hrole : ((m.nodeEvents (fun _ => true) a pay).lane l).role ≠ .excluded)
    (hlost : ((m.nodeEvents (fun _ => true) a pay).lane l).evLost = 0) : ∃ r ∈ ((m.nodeEvents (fun _ => true) a pay).lane l).events,
      r.code = 0x8000 ∧ r.time = e.2.2.1 ∧ r.p0 = a * 2 ^ 16 + e.1 ∧ r.p1 = e.2.1 := by
  rw [Mach.nodeEvents_eq, Mach.lane_mapLanes] at hrole hlost ⊢
  by_cases hr : (m.lane l).role = .excluded
  · rw [if_neg (not_not_intro hr)] at hrole
    exact absurd hr hrole
  · rw [if_pos hr] at hlost ⊢
    exact Lane.mem_addEvents _ _ _ hlost (List.mem_map_of_mem he)

end Sys2Proof.Machine


/-! # Frames of nodes: the commands (R172, R186 to R188, R198, R200, R214, R220, R223, R235) -/
namespace Sys2Proof.Machine

/-- The mode and the clocks of the module, the Service Controller, the federation, and the State Images and inputs of the lanes stay. -/
def Mach.FrameQuiet (m n : Mach) : Prop :=
  n.sys = m.sys ∧ n.sc = m.sc ∧ n.fed = m.fed ∧ ∀ l, (n.lane l).si = (m.lane l).si ∧ (n.lane l).live = (m.lane l).live

theorem Mach.HubTells.frameQuiet {m n : Mach} (h : m.HubTells n) : m.FrameQuiet n := ⟨h.sys, h.sc, h.fed, h.tables⟩

/-! ### The module once a copy is accepted -/

/-- The module once the first copy of a window is accepted, before its type has had an effect. -/
def Mach.accepted (m : Mach) (p : Nat) (link : Link) (rx : RxFrame) : Mach :=
  (m.gauged p link rx).taken p link rx (m.guardian p rx).2.1 (m.guardian p rx).2.2

section
variable (m : Mach) (p : Nat) (link : Link) (rx : RxFrame)

theorem Mach.HubOnly.accepted : m.HubOnly (m.accepted p link rx) := (m.gauged_gauges p link rx).toHubOnly.trans (.taken _ _ _ _ _ _)

theorem Mach.out_accepted : (m.accepted p link rx).out = m.out := (Mach.out_taken _ _ _ _ _ _).trans (m.gauged_gauges p link rx).out

theorem Mach.port_accepted : (m.accepted p link rx).port p = m.port p := by
  refine m.port_of_ports p ?_
  unfold Mach.accepted
  rw [Mach.ports_taken, (m.gauged_gauges p link rx).ports]

theorem Mach.node_accepted : ((m.accepted p link rx).node (readHusk rx.bytes).source).seq = some (readHusk rx.bytes).seq ∧
    ((m.accepted p link rx).node (readHusk rx.bytes).source).copies = (m.node (readHusk rx.bytes).source).copies ++
      [⟨(m.guardian p rx).2.1, (readHusk rx.bytes).type, (readHusk rx.bytes).seq, rx.last, decide (link = .east), framePayload rx.bytes⟩] := by
  unfold Mach.accepted
  rw [Mach.node_taken, ← (m.gauged_gauges p link rx).copies]
  exact ⟨rfl, rfl⟩

end

theorem Mach.joinResult_accepted (m : Mach) (p : Fin 16) (link : Link) (rx : RxFrame) (idx : Nat) (pay : List Byte) :
    (m.accepted p.val link rx).joinResult p.val idx pay = m.joinResult p.val idx pay := by
  refine (Mach.HubOnly.accepted m p.val link rx).joinResult ?_ idx pay
  unfold Mach.accepted
  rw [Mach.joinOpen_taken, (m.gauged_gauges p.val link rx).regs]

theorem Mach.Accepts.receive {m : Mach} {p : Nat} {rx : RxFrame} {type : Nat} (h : m.Accepts p rx type) (link : Link) :
    m.receive p link rx [type] = (m.accepted p link rx, some (readHusk rx.bytes, framePayload rx.bytes)) := Mach.receive_accepts h link

/-- What an accepted copy leaves: nothing else changed but event staging and the Port Hub, the node's SEQUENCE moved and the copy is kept. -/
def Mach.Keeping (m n : Mach) (p : Nat) (link : Link) (rx : RxFrame) : Prop := m.FrameQuiet n ∧ m.Kept n p link rx

/-- What comes after an accepted copy lets the node keep its SEQUENCE and its copies. -/
theorem Mach.keeping_of_accepted {m n : Mach} {p : Nat} {link : Link} {rx : RxFrame} (h : (m.accepted p link rx).HubTells n)
    (hseq : (n.node (readHusk rx.bytes).source).seq = ((m.accepted p link rx).node (readHusk rx.bytes).source).seq)
    (hcopies : (n.node (readHusk rx.bytes).source).copies = ((m.accepted p link rx).node (readHusk rx.bytes).source).copies) :
    m.Keeping n p link rx := by
  obtain ⟨gseq, gcopies⟩ := m.node_accepted p link rx
  exact ⟨((Mach.HubOnly.accepted m p link rx).tells.trans h).frameQuiet, hseq.trans gseq, hcopies.trans gcopies⟩

theorem Mach.keeping_of_nodes {m n : Mach} {p : Nat} {link : Link} {rx : RxFrame} (h : (m.accepted p link rx).HubTells n)
    (hn : n.ph.nodes = (m.accepted p link rx).ph.nodes) : m.Keeping n p link rx := by
  have hnode := (m.accepted p link rx).node_of_nodes (readHusk rx.bytes).source hn
  exact Mach.keeping_of_accepted h (by rw [hnode]) (by rw [hnode])

/-! ### The commands -/

section
variable (s : State) (p : Fin 16) (link : Link) (rx : RxFrame)

theorem exec_inputFrame : exec (.inputFrame p link rx) s = s.run (fun m => (m.receive p.val link rx [3]).1) := rfl

theorem exec_eventFrame (v : BitVec 3) : exec (.eventFrame p link ⟨rx, v⟩) s = s.run (fun m => m.eventFrame p.val link ⟨rx, v⟩) := rfl

theorem exec_diagFrame : exec (.diagFrame p (.fromNode link rx)) s = s.run (fun m => m.forwardFrame p.val link rx 5) := rfl

theorem exec_maintFrame : exec (.maintFrame p (.fromNode link rx)) s = s.run (fun m => m.forwardFrame p.val link rx 6) := rfl

theorem exec_delayReport : exec (.delayReport p link rx) s = s.run (fun m => m.forwardFrame p.val link rx 10) := rfl

theorem exec_nodeLeaveFrame : exec (.nodeLeaveFrame p link rx) s = s.run (fun m => m.leaveFrame p.val link rx) := rfl

theorem exec_joinRequest : exec (.joinRequest p link rx) s = s.run (fun m => m.joinRequest p.val link rx) := rfl

theorem exec_pollReply : exec (.pollReply p link rx) s = s.run (fun m => (m.receive p.val link rx [12]).1) := rfl

theorem exec_diagToNode (k : Nat) (l : List Byte) :
    exec (.diagFrame p (.toNode k l)) s = s.run (fun m => m.passToNode p.val 2 5 k l) := rfl

theorem exec_maintToNode (k : Nat) (l : List Byte) :
    exec (.maintFrame p (.toNode k l)) s = s.run (fun m => m.passToNode p.val 3 6 k l) := rfl

end

/-! ### Accepted copies, type by type -/

section
variable {s : State} {p : Fin 16} {rx : RxFrame} (link : Link)

/-- Frames that wait for the end of their window: INPUT and POLL_REPLY. -/
theorem completes_waiting {c : Instr} {type : Nat} (hc : exec c s = s.run (fun m => (m.receive p.val link rx [type]).1))
    (h : s.m.Accepts p.val rx type) : Completes c s (fun m => s.m.Keeping m p.val link rx ∧ m.out = s.m.out) := by
  have heq : (s.m.receive p.val link rx [type]).1 = s.m.accepted p.val link rx := by rw [h.receive]
  exact completes_to _ hc heq (Mach.HubOnly.accepted s.m p.val link rx).sys
    ⟨Mach.keeping_of_nodes (Mach.HubOnly.refl _).tells rfl, Mach.out_accepted _ _ _ _⟩

theorem Mach.Accepts.forwardFrame {m : Mach} {p type : Nat} (h : m.Accepts p rx type) :
    m.forwardFrame p link rx type = (m.accepted p link rx).emit (.forwarded p (framePayload rx.bytes)) := by
  unfold Mach.forwardFrame
  rw [h.receive]

/-- Frames that the Service Controller is handed: DIAG, MAINT and DELAY. -/
theorem completes_forwarded {c : Instr} {type : Nat} (hc : exec c s = s.run (fun m => m.forwardFrame p.val link rx type))
    (h : s.m.Accepts p.val rx type) : Completes c s (fun m => s.m.Keeping m p.val link rx ∧
      m.out = .forwarded p.val (framePayload rx.bytes) :: s.m.out) := by
  have honly := Mach.HubOnly.accepted s.m p.val link rx
  have hemit := Mach.HubOnly.emit (s.m.accepted p.val link rx) (.forwarded p.val (framePayload rx.bytes))
  refine completes_to _ hc (h.forwardFrame link) (honly.trans hemit).sys ⟨Mach.keeping_of_nodes hemit.tells ?_, ?_⟩
  · rw [Mach.emit_ph]
  · rw [Mach.emit_out, Mach.out_accepted]

theorem Mach.Accepts.leaveFrame {m : Mach} {p : Nat} (h : m.Accepts p rx 9) : m.leaveFrame p link rx =
    (m.accepted p link rx).updNode (readHusk rx.bytes).source (fun n => { n with leaving := true }) := by
  unfold Mach.leaveFrame
  rw [h.receive]

/-- A node that leaves is marked so. -/
theorem completes_nodeLeaveFrame (h : s.m.Accepts p.val rx 9) : Completes (.nodeLeaveFrame p link rx) s (fun m =>
    s.m.Keeping m p.val link rx ∧ (m.node (readHusk rx.bytes).source).leaving = true) := by
  have honly := Mach.HubOnly.accepted s.m p.val link rx
  have hupd := Mach.HubOnly.updNode (s.m.accepted p.val link rx) (readHusk rx.bytes).source (fun n => { n with leaving := true })
  have hnode := (s.m.accepted p.val link rx).node_updNode (readHusk rx.bytes).source (readHusk rx.bytes).source
    (fun n => { n with leaving := true })
  rw [if_pos rfl] at hnode
  exact completes_to _ (exec_nodeLeaveFrame s p link rx) (h.leaveFrame link) (honly.trans hupd).sys
    ⟨Mach.keeping_of_accepted hupd.tells (by rw [hnode]) (by rw [hnode]), by rw [hnode]⟩

/-- The module once a JOIN_REQUEST with this RESULT waits for its grant. -/
def Mach.requested (m : Mach) (p a r : Nat) : Mach :=
  (m.updNode a (fun n => { n with request := some (be 1 r) })).queueOwn p 4 a 8 (List.replicate joinGrantLen 0)

theorem Mach.HubOnly.requested (m : Mach) (p a r : Nat) : m.HubOnly (m.requested p a r) := by
  unfold Mach.requested
  exact (updNode _ _ _).trans (queueOwn _ _ _ _ _ _)

theorem Mach.node_requested (m : Mach) (p a r : Nat) : (m.requested p a r).node a = { m.node a with request := some (be 1 r) } := by
  have hnode := m.node_updNode a a (fun n => { n with request := some (be 1 r) })
  rw [if_pos rfl] at hnode
  exact hnode

theorem Mach.own_requested (m : Mach) (p a r : Nat) :
    ((m.requested p a r).port p).own = (m.port p).own ++ [(4, a, 8, List.replicate joinGrantLen 0)] := by
  unfold Mach.requested
  rw [Mach.port_queueOwn, Mach.port_updNode]

theorem Mach.Accepts.joinRequest {m : Mach} (h : m.Accepts p.val rx 7) : m.joinRequest p.val link rx =
    (m.accepted p.val link rx).requested p.val (readHusk rx.bytes).source
      (m.joinResult p.val (nodeIndex (readHusk rx.bytes).source) (framePayload rx.bytes)) := by
  unfold Mach.joinRequest
  rw [h.receive]
  dsimp only
  rw [m.joinResult_accepted]
  rfl

/-- A JOIN_REQUEST waits for its grant with its RESULT. -/
theorem completes_joinRequest (h : s.m.Accepts p.val rx 7) : Completes (.joinRequest p link rx) s (fun m =>
    s.m.Keeping m p.val link rx ∧ (m.node (readHusk rx.bytes).source).request =
      some (be 1 (s.m.joinResult p.val (nodeIndex (readHusk rx.bytes).source) (framePayload rx.bytes))) ∧
    (m.port p.val).own = (s.m.port p.val).own ++ [(4, (readHusk rx.bytes).source, 8, List.replicate joinGrantLen 0)]) := by
  have honly := Mach.HubOnly.accepted s.m p.val link rx
  have hport := s.m.port_accepted p.val link rx
  have hreq := Mach.HubOnly.requested (s.m.accepted p.val link rx) p.val (readHusk rx.bytes).source
    (s.m.joinResult p.val (nodeIndex (readHusk rx.bytes).source) (framePayload rx.bytes))
  refine completes_to _ (exec_joinRequest s p link rx) (h.joinRequest link) (honly.trans hreq).sys
    ⟨Mach.keeping_of_accepted hreq.tells (by rw [Mach.node_requested]) (by rw [Mach.node_requested]), by rw [Mach.node_requested], ?_⟩
  rw [Mach.own_requested, hport]

theorem Mach.lostMarker_none (m : Mach) (a : Nat) : m.lostMarker (fun _ => false) a = m := rfl

theorem Mach.portFails_none (m : Mach) (p : Nat) : m.portFails p (fun _ => false) = m := rfl

theorem Mach.Accepts.eventFrame {m : Mach} {p : Nat} (h : m.Accepts p rx 4) : m.eventFrame p link ⟨rx, 0⟩ =
    ((m.accepted p link rx).wrapPh F.PHB_PRESENTED_COUNT).nodeEvents (fun _ => true) (readHusk rx.bytes).source (framePayload rx.bytes) := by
  have hnone : (fun l : LaneId => bitOf (0 : BitVec 3).toNat (laneIx l)) = fun _ => false := funext fun l => by simp [bitOf]
  unfold Mach.eventFrame
  rw [h.receive]
  dsimp only
  rw [hnone, Mach.lostMarker_none, Mach.portFails_none]
  rfl

/-- The events of a frame that every port snoop passes enter the records of the lanes. -/
theorem completes_eventFrame (h : s.m.Accepts p.val rx 4) : Completes (.eventFrame p link ⟨rx, 0⟩) s (fun m =>
    s.m.Keeping m p.val link rx ∧ ∀ e ∈ eventEntries ((framePayload rx.bytes).length / 16) (framePayload rx.bytes), ∀ l,
      (m.lane l).role ≠ .excluded → (m.lane l).evLost = 0 → ∃ r ∈ (m.lane l).events,
        r.code = 0x8000 ∧ r.time = e.2.2.1 ∧ r.p0 = (readHusk rx.bytes).source * 2 ^ 16 + e.1 ∧ r.p1 = e.2.1) := by
  have honly := Mach.HubOnly.accepted s.m p.val link rx
  have hwrap := Mach.HubOnly.wrapPh (s.m.accepted p.val link rx) F.PHB_PRESENTED_COUNT
  obtain ⟨-, hnodes, -⟩ := (s.m.accepted p.val link rx).wrapPh_rest F.PHB_PRESENTED_COUNT
  refine completes_to _ (exec_eventFrame s p link rx 0) (h.eventFrame link) ?_ ?_
  all_goals generalize (s.m.accepted p.val link rx).wrapPh F.PHB_PRESENTED_COUNT = n at *
  all_goals have htells := Mach.HubTells.nodeEvents n (readHusk rx.bytes).source (framePayload rx.bytes)
  · rw [htells.sys, hwrap.sys, honly.sys]
  · exact ⟨Mach.keeping_of_nodes (hwrap.tells.trans htells) (by rw [Mach.nodeEvents_ph, hnodes]), fun e he l hrole hlost =>
      Mach.mem_nodeEvents _ _ _ he hrole hlost⟩

end

/-! ### Copies without an effect of their type -/

/-- The commands that bring a frame of a node. -/
def frameCommands (p : Fin 16) (link : Link) (rx : RxFrame) (v : BitVec 3) : List Instr :=
  [.inputFrame p link rx, .eventFrame p link ⟨rx, v⟩, .diagFrame p (.fromNode link rx), .maintFrame p (.fromNode link rx),
    .delayReport p link rx, .nodeLeaveFrame p link rx, .joinRequest p link rx, .pollReply p link rx]

section
variable {m n : Mach} {p : Nat} {link : Link} {rx : RxFrame}

theorem Mach.forwardFrame_unanswered {type : Nat} (h : m.receive p link rx [type] = (n, none)) : m.forwardFrame p link rx type = n := by
  unfold Mach.forwardFrame
  rw [h]

theorem Mach.leaveFrame_unanswered (h : m.receive p link rx [9] = (n, none)) : m.leaveFrame p link rx = n := by
  unfold Mach.leaveFrame
  rw [h]

theorem Mach.joinRequest_unanswered (h : m.receive p link rx [7] = (n, none)) : m.joinRequest p link rx = n := by
  unfold Mach.joinRequest
  rw [h]

theorem Mach.eventFrame_unanswered (v : BitVec 3) (h : m.receive p link rx [4] = (n, none)) : m.eventFrame p link ⟨rx, v⟩ = n := by
  unfold Mach.eventFrame
  rw [h]

end

/-- A copy without an answer, whatever the type awaited, has no effect but its reception's. -/
theorem completes_unanswered {s : State} {p : Fin 16} {link : Link} {rx : RxFrame} {v : BitVec 3} {c : Instr} {n : Mach} {P : Mach → Prop}
    (hc : c ∈ frameCommands p link rx v) (h : ∀ types, s.m.receive p.val link rx types = (n, none)) (hsys : n.sys = s.m.sys) (hP : P n) :
    Completes c s P := by
  simp only [frameCommands, List.mem_cons, List.not_mem_nil, or_false] at hc
  obtain rfl | rfl | rfl | rfl | rfl | rfl | rfl | rfl := hc
  · exact completes_to _ (exec_inputFrame s p link rx) (by rw [h]) hsys hP
  · exact completes_to _ (exec_eventFrame s p link rx v) (Mach.eventFrame_unanswered v (h _)) hsys hP
  · exact completes_to _ (exec_diagFrame s p link rx) (Mach.forwardFrame_unanswered (h _)) hsys hP
  · exact completes_to _ (exec_maintFrame s p link rx) (Mach.forwardFrame_unanswered (h _)) hsys hP
  · exact completes_to _ (exec_delayReport s p link rx) (Mach.forwardFrame_unanswered (h _)) hsys hP
  · exact completes_to _ (exec_nodeLeaveFrame s p link rx) (Mach.leaveFrame_unanswered (h _)) hsys hP
  · exact completes_to _ (exec_joinRequest s p link rx) (Mach.joinRequest_unanswered (h _)) hsys hP
  · exact completes_to _ (exec_pollReply s p link rx) (by rw [h]) hsys hP

/-- A discarded copy leaves the node its SEQUENCE and its copies, and the ports as they were. -/
def Mach.Refused (m n : Mach) (a : Nat) : Prop :=
  m.FrameQuiet n ∧ (n.node a).seq = (m.node a).seq ∧ (n.node a).copies = (m.node a).copies ∧ n.ph.ports = m.ph.ports

/-- A measured and then discarded copy is refused with its reason. -/
theorem Mach.Gauges.discard {m n : Mach} (h : m.Gauges n) (p : Fin 16) (link : Link) {r : Nat} (hr : r < 16) (bytes : List Byte) (a : Nat) :
    m.HubOnly (n.discard p.val link r bytes) ∧ m.Refused (n.discard p.val link r bytes) a ∧
    (n.discard p.val link r bytes).ph.regs.fld (F.TTP_LAST_DISCARD_REASON p.val) = r := by
  obtain ⟨honly, hreason⟩ := n.discard_spec p link hr bytes
  have hnode := n.node_of_nodes a honly.nodes
  have hhub := h.toHubOnly.trans honly.toHubOnly
  exact ⟨hhub, ⟨hhub.tells.frameQuiet, by rw [hnode, h.seq], by rw [hnode, h.copies], honly.ports.trans h.ports⟩, hreason⟩

section
variable {s : State} {p : Fin 16} {link : Link} {rx : RxFrame} {v : BitVec 3} {c : Instr} (hc : c ∈ frameCommands p link rx v)
include hc

theorem completes_discarded (hg : s.m.Guarded p.val rx) (hok : (s.m.guardian p.val rx).1 = 0) (hfree : s.m.Unbarred p.val rx) {r : Nat}
    (hr : s.m.discardReason p.val (s.m.guardian p.val rx).2.1 rx.bytes = some r) : Completes c s (fun m =>
      s.m.Refused m (readHusk rx.bytes).source ∧ m.ph.regs.fld (F.TTP_LAST_DISCARD_REASON p.val) = r) := by
  obtain ⟨honly, hpost⟩ := (s.m.gauged_gauges p.val link rx).discard p link (Mach.discardReason_lt hr) rx.bytes (readHusk rx.bytes).source
  exact completes_unanswered hc (Mach.receive_discard hg link hok hfree hr) honly.sys hpost

theorem completes_badIndex (hrun : (s.m.port p.val).running = true) (hown : ownReturn p.val rx.bytes = false)
    (hbad : badIndex rx.bytes = true) : Completes c s (fun m =>
      s.m.Refused m (readHusk rx.bytes).source ∧ m.ph.regs.fld (F.TTP_LAST_DISCARD_REASON p.val) = 2) := by
  obtain ⟨honly, hpost⟩ := (Mach.Gauges.refl s.m).discard p link (show 2 < 16 by decide) rx.bytes (readHusk rx.bytes).source
  exact completes_unanswered hc (Mach.receive_badIndex hrun hown hbad link) honly.sys hpost

theorem completes_cut_broken (hg : s.m.Guarded p.val rx) (hcut : (s.m.guardian p.val rx).1 ≠ 0) (hbroken : frameWhole rx.bytes = false) :
    Completes c s (fun m => s.m.FrameQuiet m ∧ m.ph.regs.fld F.STG_LAST_CUT_REASON = (s.m.guardian p.val rx).1 ∧
      m.ph.regs.fld F.STG_LAST_CUT_UNATTRIBUTED = 1 ∧ m.ph.nodes = s.m.ph.nodes ∧ m.ph.ports = s.m.ph.ports) := by
  obtain ⟨honly, hreason, hunknown, -⟩ := s.m.cut_broken p.val (s.m.guardian_lt p.val rx) (s.m.guardian p.val rx).2.1
    (s.m.guardian p.val rx).2.2 hbroken
  have hreceive := Mach.receive_cut hg link hcut
  rw [Mach.gauged_of_broken hbroken] at hreceive
  exact completes_unanswered hc hreceive honly.sys
    ⟨honly.tells.frameQuiet, hreason, by rw [hunknown, hbroken]; rfl, honly.nodes, honly.ports⟩

theorem completes_cut_whole (hg : s.m.Guarded p.val rx) (hcut : (s.m.guardian p.val rx).1 ≠ 0) (hwhole : frameWhole rx.bytes = true) :
    Completes c s (fun m => s.m.FrameQuiet m ∧
      (m.node (readHusk rx.bytes).source).seq = (s.m.node (readHusk rx.bytes).source).seq ∧
      (m.node (readHusk rx.bytes).source).copies = (s.m.node (readHusk rx.bytes).source).copies ∧
      m.ph.regs.fld F.STG_LAST_CUT_REASON = (s.m.guardian p.val rx).1 ∧ m.ph.regs.fld F.STG_LAST_CUT_UNATTRIBUTED = 0 ∧
      m.ph.regs.fld F.STG_LAST_CUT_NODE = (readHusk rx.bytes).source) := by
  have hgauge := s.m.gauged_gauges p.val link rx
  obtain ⟨htells, hseq, hcopies, hreason, hunknown, hnode⟩ := (s.m.gauged p.val link rx).cut_whole p.val (s.m.guardian_lt p.val rx)
    (s.m.guardian p.val rx).2.1 (s.m.guardian p.val rx).2.2 hwhole
  have hall := hgauge.toHubOnly.tells.trans htells
  exact completes_unanswered hc (Mach.receive_cut hg link hcut) hall.sys ⟨hall.frameQuiet, by rw [hseq, hgauge.seq],
    by rw [hcopies, hgauge.copies], hreason, by rw [hunknown, hwhole]; rfl, by rw [hnode, if_pos hwhole]⟩

theorem completes_ownReturn (hrun : (s.m.port p.val).running = true) (hown : ownReturn p.val rx.bytes = true) :
    Completes c s (fun m => m = s.m) := completes_unanswered hc (Mach.receive_ownReturn hrun hown link) rfl rfl

end

/-! ### Frames for a node -/

theorem Mach.passToNode_eq {m : Mach} {p k : Nat} {l : List Byte} (hrun : (m.port p).running = true) (hmode : m.portImg.portMode p = 1)
    (hnode : m.portImg.hasNode p k = true) (hlen : l.length ≤ 2048) (cls type : Nat) :
    m.passToNode p cls type k l = m.queueOwn p cls (nodeAddr p k) type l := if_pos (by simp [hrun, hmode, hnode, hlen])

/-- A frame of the Service Controller for a node waits in its port. -/
theorem completes_passToNode {s : State} {p : Fin 16} {k : Nat} {l : List Byte} {c : Instr} {cls type : Nat}
    (hc : exec c s = s.run (fun m => m.passToNode p.val cls type k l)) (hrun : (s.m.port p.val).running = true)
    (hmode : s.m.portImg.portMode p.val = 1) (hnode : s.m.portImg.hasNode p.val k = true) (hlen : l.length ≤ 2048) :
    Completes c s (fun m => s.m.FrameQuiet m ∧
      (m.port p.val).own = (s.m.port p.val).own ++ [(cls, nodeAddr p.val k, type, l)]) := by
  have hqueue := Mach.HubOnly.queueOwn s.m p.val cls (nodeAddr p.val k) type l
  exact completes_to _ hc (Mach.passToNode_eq hrun hmode hnode hlen cls type) hqueue.sys
    ⟨hqueue.tells.frameQuiet, Mach.port_queueOwn _ _ _ _ _ _⟩

/-- Settles O46: a copy that is accepted moves the node's SEQUENCE, is kept and has its type's effect; of any other the reception alone is seen,
as `completes_unanswered` says. -/
theorem nodeFramesTaken : Obligations.NodeFramesTaken := by
  unfold Obligations.NodeFramesTaken
  intro s p link rx
  refine ⟨completes_waiting link (exec_inputFrame s p link rx), completes_eventFrame link, completes_forwarded link (exec_diagFrame s p link rx),
    completes_forwarded link (exec_maintFrame s p link rx), completes_forwarded link (exec_delayReport s p link rx),
    completes_nodeLeaveFrame link, completes_joinRequest link, completes_waiting link (exec_pollReply s p link rx), ?_, ?_⟩
  · exact fun c v hc => ⟨fun r hg hok hfree hr => completes_discarded hc hg hok hfree hr, completes_badIndex hc, completes_cut_broken hc,
      completes_cut_whole hc, completes_ownReturn hc⟩
  · exact fun k l hrun hmode hnode hlen => ⟨completes_passToNode (exec_diagToNode s p k l) hrun hmode hnode hlen,
      completes_passToNode (exec_maintToNode s p k l) hrun hmode hnode hlen⟩

end Sys2Proof.Machine
